-- ==== Sys2Proof/Word.lean ====
section
/-! DEFINITION. The word types of the model. Registers are 32 bits wide, host structures are little-endian (R9). -/

namespace Sys2Proof

/-- A register word. -/
abbrev Word := BitVec 32

/-- A byte. -/
abbrev Byte := BitVec 8

/-- Symbols in a superframe (R45). -/
abbrev sfLen : Nat := 2 ^ 20

/-- Symbols in a line frame (R45). -/
abbrev lfLen : Nat := 2 ^ 14

end Sys2Proof
end

