-- ==== Sys2Proof/Config.lean ====
section
/-! DEFINITION. What the manual leaves open. Each is an opaque constant: nothing can be proved of its values, so a claim holds
whatever they are. -/

namespace Sys2Proof.Config

/-- A value the manual does not fix after a command that goes on (assumption 10): `State.freeCtr` picks the next one. -/
opaque freeValue : Nat → Nat

/-- The credits that the far end of a winze port advertises for its line-traffic queue (R40, R42; assumption 10), by 4 ×
die code + port. -/
opaque linkCredits : Nat → Nat

/-- The SNR, in 0.01 dB, at which a class, h and code meet the threshold of R278, but for the one that R593 states (assumption 76). -/
opaque snrThreshold : Nat → Nat → Nat → BitVec 16

/-- The device-unique key of R403, fused at manufacture (assumption 11). -/
opaque deviceKey : BitVec 256

/-- The demapper's correction of max-log for a difference of two metrics, both in 1/65,536 nat: the table of R187
(assumption 67). -/
opaque maxLogTable : Nat → Nat

/-- The 6-bit message value that a magnitude in 1/64 nat enters the inner decoder as (R263; assumption 67). -/
opaque messageOf : Nat → Nat

/-- The offset of the decoder's min-sum, in message steps (R263; assumption 67). -/
opaque minSumOffset : Nat

end Sys2Proof.Config
end

