-- ==== Sys2Proof/Syntax.lean ====
section
/-! DEFINITION. The commands of the block: one constructor of `Instr` for each row of the manual's command table, with
the row's operands. What a row only measures or receives (a dispersion estimate, a temperature, a received overhead) is an
operand, because no rule computes it from the state. -/

namespace Sys2Proof

/-- The dies (R2, R12). -/
inductive Die
  | m0 | m1 | f0 | f1 | f2 | f3 | b0 | b1
  deriving DecidableEq, Repr

/-- A descriptor as fetched (R488): the ring it came from and its slot index there, the function that owns the ring, and
the header and operand fields. `ops` is bytes 24 to 63, byte 24 lowest. -/
structure Desc where
  ring : Nat
  slot : Nat
  fn : Fin 65
  fence : Bool
  irqNow : Bool
  flagsRsv : BitVec 6
  target : BitVec 16
  tag : Word
  sf : BitVec 64
  off : Word
  arg0 : Word
  ops : BitVec 320
  deriving DecidableEq, Repr

/-- What a host write names: a BAR0 address of the physical function, an address in a virtual function's BAR0, or one of
the settings the manual gives no register address (assumption 12): the symbol rate in quarters of a GBd (R7), the number
of virtual functions enabled in configuration space (R503), and the mask bit of an MSI-X vector (R504). -/
inductive WriteTarget
  | bar0 (addr : BitVec 26)
  | vfBar0 (v : Fin 64) (addr : BitVec 18)
  | symbolRate
  | sriov
  | msixMask (fn : Fin 65) (vec : Nat)
  deriving DecidableEq, Repr

/-- Why a carrier leaves TRACK (R195): los, the training block missing, the frequency offset, or divergence. -/
inductive LockLoss
  | los | training | freq | divergence
  deriving DecidableEq, Repr

/-- A layer of OTN framing on a Mill die: a local OTUC slice, an ODU context, or the ODUCn of a line group. -/
inductive OtnLayer
  | slice (x : Fin 48)
  | ctx (o : Fin 512)
  | group (g : Fin 4)
  deriving DecidableEq, Repr

/-- A whole payload structure identifier of 256 frames as received, and what ITU-T G.709 reads in it: its payload type is
that of the context, its MSI that of the slot map, its client signal fail bit. -/
structure Psi where
  bytes : List Byte
  ptOk : Bool
  msiOk : Bool
  csf : Bool
  deriving DecidableEq, Repr

/-- A block from an Ethernet client (R325, R363): idle, part of a frame, the last of a frame, or one of an uncorrectable codeword,
marked errored. -/
inductive EthBlock
  | idle | data | last | error
  deriving DecidableEq, Repr

/-- The crypto overhead of a received frame (R396): SEQB, CST and the 96-bit tag. -/
structure Coh where
  seqb : Byte
  cst : Byte
  tag : BitVec 96
  deriving DecidableEq, Repr

/-- Why loss of Mymos frame is declared (R300): five line frames without the pattern, from `lf` on with their final data, eight
overheads that failed their crc, or TRACK left. -/
inductive LofCause
  | pattern (lf : Fin 64) (finals : List (List Bool))
  | crc
  | track
  deriving DecidableEq, Repr

/-- A read of a memory test that did not return what the cells hold, or that coincided with SP_BUSY (R552): the run (the
background of a march, the pass of a canary test), the operation within it, the raw word returned, and what its repeat returned
where it coincided with SP_BUSY. -/
structure OddRead where
  run : Nat
  op : Nat
  value : Nat
  again : Option Nat
  deriving DecidableEq, Repr

/-- A memory word that a test finds unlike a sound one (R546, R562): its place, a spare row counting on from the bank's rows, the
raw word it held, the bits that are stuck and their levels, and its odd reads. -/
structure FaultyWord where
  mem : Nat
  bank : Nat
  row : Nat
  col : Nat
  held : Nat
  stuck : Nat
  level : Nat
  reads : List OddRead
  deriving DecidableEq, Repr

/-- The codewords that a port's RS(544,514) decoder saw in a PM second (R598, R601): all of them, those it could not correct, those it
corrected. -/
structure PortCounts where
  codewords : Word
  uncorrectable : Word
  corrected : Word
  deriving DecidableEq, Repr

/-- An anomaly of a survey (R612). -/
structure Anomaly where
  loc : Word
  loss : BitVec 16
  unc : BitVec 16
  span : BitVec 16
  deriving DecidableEq, Repr

/-- The strap balls (R624). -/
structure Straps where
  bootsel : BitVec 2
  pkgId : BitVec 12
  i2cAddr : BitVec 2
  deriving DecidableEq, Repr

/-- A boot image as the boot ROM reads it (R627, R628): header fields, the SHA-384 of its public key, what the signature, section
and read checks find, the rows of its repair lists (die, mem_id, bank, row), and the values that its sections write to
key_limit_log2 and surf_ppm (R658), none where they write none. -/
structure BootImage where
  magic : Word
  fmt : BitVec 16
  config : BitVec 16
  svn : Word
  marchMode : Byte
  lockMask : Byte
  keySlot : Fin 4
  keyHash : BitVec 384
  sigOk : Bool
  sectionsOk : Bool
  readOk : Bool
  repairs : List (Die × Nat × Nat × Nat)
  keyLimit : Option (BitVec 6)
  surfPpm : Option (BitVec 10)
  deriving DecidableEq, Repr

/-- What a Face die's receiver measures over an SF, as OVR_SF_LATCH closes it: the RMS codes of the four ADC lanes (R191), the
position at which the training block was found, if it was (R190, R195), whether the equaliser's error power lay below its
convergence limit and whether it lay above its divergence limit (R190, R195), and the tracked frequency offset in 2.5 MHz
(R175). -/
structure RxReport where
  rms : List (BitVec 8)
  training : Option (BitVec 20)
  errLow : Bool
  errHigh : Bool
  freq : BitVec 16
  deriving DecidableEq, Repr

/-- A payload or overhead symbol as carrier recovery gives it to the demapper (R187): the four real dimensions in 1/256 of an
amplitude unit. -/
structure RxSym where
  xi : Int
  xq : Int
  yi : Int
  yq : Int
  deriving DecidableEq, Repr

/-- The commands: one constructor per row of the command table, those with operands first. -/
inductive Instr
  /-- BLOCK_OFF_ACCESS (R505): A register access to a domain in Deep sleep or Off, in reset, or absent: a read returns 0xDEAD_0FF0, a write is discarded, and BLOCK_OFF is raised. -/
  | blockOffAccess (addr : BitVec 26) (write : Bool)
  /-- DIE_UNREACHABLE_ACCESS (R17): A register access to a die whose winze link is down or that is in reset: a read returns 0xDEAD_0FF0, a write is discarded, and an event names the die. -/
  | dieUnreachableAccess (addr : BitVec 26) (write : Bool)
  /-- REGISTER_WRITE (R653): A host write to a register that has no row of its own, applied field by field under its access codes. -/
  | registerWrite (tgt : WriteTarget) (data : List Byte)
  /-- WINZ_CRC_ERROR (R32): A winze link CRC error is corrected by retry within the link and counted. -/
  | winzCrcError (d : Die) (port : Fin 4) (lane : Fin 256)
  /-- LINK_DOWN (R34): No good transfer for 1 µs: link_up clears, an event is raised, outstanding requests complete RESET_ABORTED, and retraining starts. -/
  | linkDown (d : Die) (port : Fin 4)
  /-- LINK_RETRAIN_DONE (R34): A winze link finishes retraining and delivers again, with producer credits restored. -/
  | linkRetrainDone (d : Die) (port : Fin 4)
  /-- STALE_REPLY (R38): A reply carrying an old incarnation, or answering a request already completed, is discarded and counted in stale_replies. -/
  | staleReply (d : Die) (port : Fin 4) (incarnation : Fin 16) (ring slot : Nat)
  /-- WINZ_CNT_CLR (R42): Writing clear_all clears the four counters of a winze port. -/
  | winzCntClr (d : Die) (port : Fin 4)
  /-- TX_LINE_FRAME (R19): A transmit line frame falls due at the tally and is built and sent, whether or not client data is present. -/
  | txLineFrame (n : Fin 4) (frames : List (List (List Byte)))
  /-- FAR_SF_ARRIVAL (R53): A far SF boundary reaches the deframer output, and its far SF number and arrival position are recorded. -/
  | farSfArrival (n : Fin 4)
  /-- SF_OVERHEAD_RECEIVED (R291): A received 256-bit SF overhead is checked by its crc; a good one is used and a failed one is ignored and counted. -/
  | sfOverheadReceived (n : Fin 4) (oh : BitVec 256)
  /-- SHIFT_COMMIT (R64): M0 takes a SHIFT_COMMIT, checks it, and sends PREPARE to every live die or completes with BAD_DESC or LATE. -/
  | shiftCommit (d : Desc)
  /-- SHIFT_PREPARE (R60): A die receives PREPARE, checks its staged set and freezes its off-shift copy, answering ACCEPT or INVALID. -/
  | shiftPrepare (d : Die)
  /-- SHIFT_ACCEPT (R66): M0 receives a die's answer to PREPARE. -/
  | shiftAccept (d : Die)
  /-- GO_AHEAD (R69): A die that accepted a commit receives the go-ahead, which lets it swap. -/
  | goAhead (d : Die)
  /-- SHIFT_CANCEL (R67): A die receives CANCEL, unfreezes, and keeps its off-shift copy staged. -/
  | shiftCancel (d : Die)
  /-- TX_SWAP (R59): At the local target SF boundary, a die swaps its transmit and package settings. -/
  | txSwap (d : Die)
  /-- RX_SWAP (R71): A carrier's receive settings swap at the first symbol of the named far SF, at each stage it passes. -/
  | rxSwap (n : Fin 4)
  /-- PREDICTED_RX_SWAP (R73): Without a valid far tally, the receive settings swap at the predicted local position and rx_swap_predicted sets. -/
  | predictedRxSwap (n : Fin 4)
  /-- GROUP_RX_SWAP (R683): The receive part of a line group's settings swaps at far SF r_G and is released at R(r_G). -/
  | groupRxSwap (g : Fin 4)
  /-- OFFSHIFT_RELOAD (R59): After its last swap, a die reloads its off-shift copy from the on-shift copy before the next SF boundary and applies its queued writes. -/
  | offshiftReload (d : Die)
  /-- TALLY_SET (R89): A write to TALLY_SET_HI applies the new SF count when allowed and clears origin_lost; otherwise it is discarded with an event. -/
  | tallySet (hi : BitVec 16)
  /-- CAL_WINDOW_END (R102): A 16-SF calibration window ends; new coefficients take effect and cal_unit advances unless the window was discarded. -/
  | calWindowEnd (n : Fin 4) (a : Fin 4) (inRange : Bool)
  /-- ADC_OVERRANGE (R109): A saturated ADC code sets ovr_sticky, raising one event on the set. -/
  | adcOverrange (n : Fin 4) (a : Fin 4) (unit : Fin 65)
  /-- FOREGROUND_CAL_DONE (R107): The 18 ms foreground calibration of a die's converters ends and the ADC rotations restart at unit 0. -/
  | foregroundCalDone (n : Fin 4)
  /-- TIA_GAIN_DOWN (R111): Four consecutive SFs with ovr_sf_count at or above ovr_thresh queue a TIA gain-down request and start the hold-off. -/
  | tiaGainDown (n : Fin 4) (a : Fin 4)
  /-- TIA_HOLDOFF_END (R112): The tia_holdoff period ends and overrange counting for the lane restarts. -/
  | tiaHoldoffEnd (n : Fin 4) (a : Fin 4)
  /-- TIA_GAIN_UP (R114): tia_up_sf quiet SFs below tia_max, outside hold-off, queue a gain-up request. -/
  | tiaGainUp (n : Fin 4) (a : Fin 4)
  /-- SPI_TRANSACTION_START (R129): The free SPI controller starts the highest-priority pending transaction of its site. -/
  | spiTransactionStart (n : Fin 4)
  /-- SPI_TRANSACTION_DONE (R129): An SPI transaction ends, updating the TIA or trim shadow or completing the host OE_SPI. -/
  | spiTransactionDone (n : Fin 4) (miso : BitVec 64)
  /-- POWER_TRIM (R131): At each budget interval, the TX_TAP mean is compared with ptrim_target and a one-step trim write is queued if needed. -/
  | powerTrim (n : Fin 4)
  /-- SITE_PRESENCE_CHANGE (R122): OE_PRESENT steady for 10 ms changes site presence, sets present_changed and raises an event. -/
  | sitePresenceChange (n : Fin 4) (present : Bool)
  /-- OE_FAULT (R123): An OE_FAULT low of 1 µs or longer sets fault and fault_sticky and raises an event. -/
  | oeFault (n : Fin 4)
  /-- TXDIS_RELEASE (R125): At the first SF boundary after 64 complete SFs sent with no other cause, OE_TXDIS is released. -/
  | txdisRelease (n : Fin 4)
  /-- BIAS_CHIP_BOUNDARY (R135): A dither chip boundary of a bias loop changes the dither signs and closes the chip mean. -/
  | biasChipBoundary (n : Fin 4) (p : Fin 2)
  /-- SIGNAL_DETECTED (R190): los 0 for 256 consecutive SF moves the carrier from SIGNAL_DETECT to CD_SCAN. -/
  | signalDetected (n : Fin 4)
  /-- CD_SCAN_DONE (R156): The dispersion search completes, cd_est is held and the FFT size is chosen. -/
  | cdScanDone (n : Fin 4) (cdEst : BitVec 16)
  /-- FREQ_ACQ_DONE (R174): The frequency offset is found and the carrier moves to EQ_CONVERGE. -/
  | freqAcqDone (n : Fin 4) (offset : BitVec 16)
  /-- EQ_CONVERGED (R190): Error power below the convergence limit for 512 SF moves the carrier to TRAIN_LOCK. -/
  | eqConverged (n : Fin 4) (rateDiff : BitVec 16)
  /-- TRAIN_LOCK_DONE (R190): The training block found at one position in 4 consecutive SF moves the carrier to PHASE_LOCK. -/
  | trainLockDone (n : Fin 4) (farSub : Fin 8) (farRolloff : BitVec 7)
  /-- PHASE_LOCK_DONE (R192): 64 SF without a pilot outlier take the carrier to TRACK and raise RX_LOCK. -/
  | phaseLockDone (n : Fin 4)
  /-- ACQ_FAIL (R190): An acquisition state reaches its limit; the carrier returns to SIGNAL_DETECT, acq_failures increments and ACQ_FAIL is raised. -/
  | acqFail (n : Fin 4)
  /-- LOS_SET (R191): Mean RMS below los_thresh for 16 SF sets los, raises an event, and returns an acquiring carrier to SIGNAL_DETECT. -/
  | losSet (n : Fin 4)
  /-- LOS_CLEAR (R191): 16 SF at or above los_thresh clear los and raise an event. -/
  | losClear (n : Fin 4)
  /-- ACQ_RESTART (R193): Writing acq_restart sends the carrier to SIGNAL_DETECT at the next SF boundary and discards acquired state. -/
  | acqRestart (n : Fin 4)
  /-- RX_LOCK_LOST (R195): A carrier leaves TRACK on los, missing training, excess frequency offset or divergence; lock_lost sets and RX_LOCK_LOST is raised. -/
  | rxLockLost (n : Fin 4) (cause : LockLoss)
  /-- CD_EST_UPDATE (R157): Every 256 SF, cd_est is updated with the residual dispersion from the equaliser taps. -/
  | cdEstUpdate (n : Fin 4) (residual : BitVec 16)
  /-- SLIP_CANDIDATE (R177): A refinement change above π/4 between consecutive symbols raises a slip candidate. -/
  | slipCandidate (n : Fin 4) (pol : Fin 2) (sub : Fin 16) (jump : BitVec 16) (start : BitVec 20)
  /-- PILOT_CHECK (R177): A pilot or training block checks its phase error, confirming or discarding a pending candidate. -/
  | pilotCheck (n : Fin 4) (pol : Fin 2) (sub : Fin 16) (err : BitVec 16) (dist : BitVec 32) (sf : BitVec 48) (pilot : BitVec 20)
  /-- SLIP_RECORD (R183): A slip record reaches the Mill die and its symbols are corrected in place, or their block is re-decoded. -/
  | slipRecord (n : Fin 4)
  /-- ANNOUNCE_START (R228): At the first SF boundary after it accepts a retune or key-change commit, the Mill die starts ANNOUNCE, or the commit completes LATE. -/
  | announceStart (n : Fin 4)
  /-- ANNOUNCE_CANCEL_END (R230): After carrying CANCEL up to the target, the transmitter returns to NONE and sets retune_cancelled. -/
  | announceCancelEnd (n : Fin 4)
  /-- FEC_PHASE_WINDOW (R252): A 4-SF phase-hunt window ends; its mismatch counts are tested and a phase may be adopted. -/
  | fecPhaseWindow (n : Fin 4)
  /-- POSITION_COMPLETE (R262): The last LLR of a position arrives in the LLR queue and the position becomes complete. -/
  | positionComplete (n : Fin 4) (sf : BitVec 48) (j : Fin 252) (syms : List RxSym) (first : Nat)
  /-- POSITION_DISPATCH (R262): A free engine takes the oldest complete position. -/
  | positionDispatch (m : Fin 2) (engine : Fin 68)
  /-- ITERATION_END (R264): A decoding iteration ends; the position finishes or runs another iteration, taking overtime tokens if needed. -/
  | iterationEnd (m : Fin 2) (engine : Fin 68) (misreport : Bool)
  /-- POSITION_RELEASE (R268): 2¹⁹ symbol periods after completion, a position is released, as SHED if unfinished. -/
  | positionRelease (n : Fin 4)
  /-- OT_TOKEN_RELOAD (R266): At each SF boundary, ot_tokens is set to ot_grant. -/
  | otTokenReload (m : Fin 2)
  /-- KAT_TEST (R275): Every kat_period × 256 SF, a known-answer test runs on the next engine, or is counted in kat_skipped. -/
  | katTest (m : Fin 2) (answer : List Bool)
  /-- MSG_TX_WRITE (R293): A write to MSG_TX appends a byte to the transmit FIFO, or is discarded with an event when the FIFO is full. -/
  | msgTxWrite (m : Fin 2) (c : Fin 2) (byte : Byte)
  /-- MSG_RX_READ (R315): A read of MSG_RX returns and removes the oldest received message byte. -/
  | msgRxRead (m : Fin 2) (c : Fin 2)
  /-- SHAPE_SWEEP_WINDOW (R295): A 4-far-SF shaping-phase sweep window ends, and the next candidate of s mod 64 is tested. -/
  | shapeSweepWindow (n : Fin 4)
  /-- FRAME_HUNT (R296): In each LF period, the deframer tests 4,096 offsets of early-look bits for the alignment pattern. -/
  | frameHunt (n : Fin 4) (lf : Fin 64) (looks : List (List Bool))
  /-- MYMOS_SYNC (R298): Final data confirm the pattern at the candidate offset, sync is declared, and MYMOS_SYNC is raised. -/
  | mymosSync (n : Fin 4) (finals : List (List Bool))
  /-- MYMOS_LOF (R300): Five pattern misses, eight bad overheads or a TRACK exit declare loss of Mymos frame and clear far_valid. -/
  | mymosLof (n : Fin 4) (cause : LofCause)
  /-- SHAPE_UNLOCK (R301): 64 SF of hunting without sync clear shape_locked. -/
  | shapeUnlock (n : Fin 4)
  /-- MEMBER_IN (R311): After 64 good far SFs, a member's slices resume at the next multiple of 64 and MEMBER_IN is raised. -/
  | memberIn (n : Fin 4)
  /-- GROUP_RELEASE (R309): At R(s), the content of far SF s of every group member is released. -/
  | groupRelease (g : Fin 4)
  /-- RELEASE_POSITION_MSG (R314): The home die's release position R(s) reaches the other Mill die in link class 2. -/
  | releasePositionMsg (g : Fin 4)
  /-- REF_CLEAR (R312): 256 far SFs without a member in service clear the group reference. -/
  | refClear (g : Fin 4)
  /-- REF_RESTART (R312): Writing ref_restart sets a new reference at the next far SF boundary. -/
  | refRestart (g : Fin 4)
  /-- OTN_FRAME_RECEIVED (R329): A received ODU or OTUC frame is monitored for defects, BIP-8, TTI, PSI and APS. -/
  | otnFrameReceived (m : Fin 2) (layer : OtnLayer) (mfas : BitVec 8) (omfi : Fin 20) (oh : List Byte) (bip : List Nat) (psi : Option Psi) (impLost : Bool) (gmp : Option (Nat × Nat)) (farSf : BitVec 48)
  /-- OTN_FRAME_TRANSMIT (R349): A transmit frame takes the next insert entry or repeats the last one, with backward indications and replacement signals applied. -/
  | otnFrameTransmit (m : Fin 2) (layer : OtnLayer) (mfas : BitVec 8) (omfi : Fin 20) (gen : List Byte) (entry : List Byte) (client : Option Nat)
  /-- ETH_BLOCK_RECEIVED (R325): A client 64b/66b block is transcoded and enters the IMP adaptation buffer. -/
  | ethBlockReceived (m : Fin 2) (o : Fin 512) (kind : EthBlock) (taken : Nat)
  /-- APS_TX (R337): Writing aps_tx_level places APS_TX_VAL in that level's bytes from its next frame. -/
  | apsTx (m : Fin 2) (o : Fin 512) (level : Fin 8)
  /-- LCR_HANDSHAKE (R347): A G.7044 LCR control message on a FlexO link is processed as source or sink. -/
  | lcrHandshake (m : Fin 2) (o : Fin 512) (slots : List (Fin 960))
  /-- CDR_LOCK_CHANGE (R366): A lane's clock recovery gains or loses lock, changing cdr_lock and raising an event. -/
  | cdrLockChange (m : Fin 2) (l : Fin 24) (locked : Bool) (ppm : BitVec 16)
  /-- LANE_TRAINED (R369): Both ends report receiver ready and the lane enters TRAINED. -/
  | laneTrained (m : Fin 2) (l : Fin 24)
  /-- LANE_TRAIN_FAIL (R369): No receiver ready within 1 s: the lane enters FAILED, counts train_failures and raises LANE_TRAIN_FAIL. -/
  | laneTrainFail (m : Fin 2) (l : Fin 24)
  /-- LANE_RETRAIN (R369): 100 ms after FAILED, the lane re-enters TRAINING. -/
  | laneRetrain (m : Fin 2) (l : Fin 24)
  /-- PRBS_LOCK (R371): 1,024 error-free bits lock the PRBS checker, which starts counting. -/
  | prbsLock (m : Fin 2) (l : Fin 24)
  /-- PRBS_LOCK_LOST (R371): More than 4,096 errors in 65,536 bits set chk_lost and restart the hunt. -/
  | prbsLockLost (m : Fin 2) (l : Fin 24) (errs : BitVec 48) (nbits : BitVec 48)
  /-- INJ_SINGLE (R372): Writing inj_single inverts one transmitted bit and sets inj_busy, or is discarded with an event while busy. -/
  | injSingle (m : Fin 2) (l : Fin 24)
  /-- INJ_BURST (R372): Writing inj_burst inverts burst_len consecutive bits and sets inj_busy, or is discarded with an event while busy. -/
  | injBurst (m : Fin 2) (l : Fin 24)
  /-- INJ_DONE (R372): The last inverted bit leaves the lane and inj_busy clears. -/
  | injDone (m : Fin 2) (l : Fin 24)
  /-- PRBS_ERR_READ (R371): A read of PRBS_ERR_LO latches the four PRBS count registers. -/
  | prbsErrRead (m : Fin 2) (l : Fin 24) (errs : BitVec 48) (nbits : BitVec 48)
  /-- BLOCK_LOCK (R376): 64 consecutive valid headers declare block lock on a crosscut lane. -/
  | blockLock (m : Fin 2) (l : Fin 24)
  /-- BLOCK_LOCK_LOST (R376): 16 invalid headers within 64 blocks lose lock, count lock_losses and restart the hunt. -/
  | blockLockLost (m : Fin 2) (l : Fin 24)
  /-- ALIGN_BLOCK (R377): A received ALIGN control block gives the lane position used for deskew and reordering. -/
  | alignBlock (m : Fin 2) (l : Fin 24) (pos : Byte) (skew : Nat)
  /-- STATUS_BLOCK (R379): A received STATUS block gives the partner's ID, quality level and timing state. -/
  | statusBlock (m : Fin 2) (id : BitVec 12) (ql : BitVec 4) (tstate : BitVec 3)
  /-- TIME_BLOCK (R379): A received TIME block gives partner_toff. -/
  | timeBlock (m : Fin 2) (id : BitVec 12) (count : BitVec 48) (tstate : BitVec 3)
  /-- COORD_BLOCK (R383): A received COORD block updates the pair's protection state and agreement. -/
  | coordBlock (m : Fin 2) (p : Fin 32) (owner take leg : Bool) (seq ack : BitVec 16)
  /-- BAD_CTRL (R378): A control block of unknown type counts in bad_ctrl and is treated as IDLE. -/
  | badCtrl (m : Fin 2)
  /-- XC_DATA_BLOCK (R380): A crosscut data block delivers 15 bytes of a bridged ODU frame to its channel. -/
  | xcDataBlock (m : Fin 2) (p : Fin 32) (sof : Bool) (bytes : List Byte)
  /-- XC_TIME_SEND (R379): At each own SF boundary whose count is a multiple of 16, a TIME block is sent. -/
  | xcTimeSend (m : Fin 2)
  /-- XC_STATUS_SEND (R379): Once per SF, a STATUS block is sent. -/
  | xcStatusSend (m : Fin 2)
  /-- XC_COORD_SEND (R383): A COORD block is sent for each enabled pair at a change, or at least every 64 SF. -/
  | xcCoordSend (m : Fin 2) (p : Fin 32)
  /-- XC_PARTNER_LOST (R386): Every lane out of lock for xc_lost_us sets partner_lost and raises XC_PARTNER_LOST. -/
  | xcPartnerLost (m : Fin 2)
  /-- KEK_LOAD (R403): The KEK_LOAD command unwraps a DKEK under the DUK into both Mill dies. -/
  | kekLoad (d : Desc)
  /-- KEY_LOAD (R412): The KEY_LOAD command unwraps a tenant key into an off-shift slot. -/
  | keyLoad (d : Desc)
  /-- KEY_UNWRAP_DONE (R404): A 24 µs double unwrap ends with OK, AUTH_FAIL, or RETRY with a canary test. -/
  | keyUnwrapDone (m : Fin 2) (agree : Bool)
  /-- KEY_ZERO (R414): The KEY_ZERO command empties an off-shift slot at once, or starts destroying an on-shift key. -/
  | keyZero (d : Desc)
  /-- KEY_DESTROY (R414): Once pipe blocks finish under the old key, the on-shift key is destroyed and the command completes. -/
  | keyDestroy (m : Fin 2) (page : Fin 256)
  /-- PAGE_BIND (R409): The PAGE_BIND command binds up to four functions to a page and sets compat. -/
  | pageBind (d : Desc)
  /-- PAGE_UNBIND (R411): The PAGE_UNBIND command zeroises the page's slots, stops its streams and unbinds its functions. -/
  | pageUnbind (d : Desc)
  /-- STREAM_BIND (R494): The STREAM_BIND command writes the off-shift stream registers. -/
  | streamBind (d : Desc)
  /-- STREAM_START (R400): The STREAM_START command starts a stream at SF s0 with sequence max(s0 × 2¹⁶, seq_floor). -/
  | streamStart (d : Desc)
  /-- STREAM_STOP (R494): The STREAM_STOP command idles both directions of a stream from a named SF. -/
  | streamStop (d : Desc)
  /-- LA_ENCRYPT (R427): The LA_ENCRYPT command encrypts a host buffer under TX_ON with a counter IV. -/
  | laEncrypt (d : Desc)
  /-- LA_DECRYPT (R426): The LA_DECRYPT command decrypts and checks a host buffer under RX_ON. -/
  | laDecrypt (d : Desc)
  /-- LOOKASIDE_DONE (R428): A lookaside operation ends, writes its output and completes in ring order. -/
  | lookasideDone (ring : BitVec 18) (src : List Byte) (agree : Bool) (pipe : Fin 17)
  /-- ENCRYPT_FRAME (R395): A transmit frame of a stream is encrypted with AES-256-GCM, or replaced, and carries its COH. -/
  | encryptFrame (m : Fin 2) (stream : Fin 512) (mfas : BitVec 8) (data : List Byte) (agree : Bool) (pipe : Fin 17)
  /-- DECRYPT_FRAME (R419): A received frame is decrypted with the slot matching its key index and its tag is checked, or the frame is treated under R422. -/
  | decryptFrame (m : Fin 2) (stream : Fin 512) (mfas : BitVec 8) (coh : Option Coh) (data : List Byte) (agree : Bool) (pipe : Fin 17)
  /-- RX_KEY_SWAP (R417): At far SF ann_target + 64 at the decrypt stage, a staged page's RX slots swap. -/
  | rxKeySwap (m : Fin 2) (page : Fin 256)
  /-- TX_FRAMES_READ (R430): A read of TX_FRAMES_LO latches TX_FRAMES_HI. -/
  | txFramesRead (m : Fin 2) (page : Fin 256)
  /-- SEQ_READ (R431): A read of SEQ_LO latches SEQ_HI. -/
  | seqRead (m : Fin 2) (stream : Fin 512)
  /-- CANDIDATE_ACTIVE (R432): A timing candidate becomes active and starts unqualified. -/
  | candidateActive (c : Fin 14)
  /-- CANDIDATE_INACTIVE (R432): A timing candidate becomes inactive, its qualified bit clears, and selection reacts. -/
  | candidateInactive (c : Fin 14)
  /-- QL_RECEIVED (R435): A valid OSMC message, ESMC PDU or STATUS block updates a candidate's quality level. -/
  | qlReceived (c : Fin 14) (ql : BitVec 4)
  /-- QL_TIMEOUT (R435): 5 s without a valid message set the level to QL-FAILED and ql_timeout. -/
  | qlTimeout (c : Fin 14)
  /-- FREQ_MEASURE_UPDATE (R442): Every 100 ms, freq_off of each active candidate is updated. -/
  | freqMeasureUpdate (offs : List (BitVec 16))
  /-- WTR_EXPIRE (R439): A candidate's wait-to-restore ends and it becomes eligible again. -/
  | wtrExpire (c : Fin 14)
  /-- WTR_CLEAR (R439): Writing wtr_clear ends the candidate's wait at once. -/
  | wtrClear (c : Fin 14)
  /-- HISTORY_SECOND (R451): Each complete locked second adds a frequency average to the holdover history. -/
  | historySecond (avg : BitVec 64)
  /-- TIM_PSTEP (R453): A write to TIM_PSTEP adds to pstep_pending, which the DPLL slews out. -/
  | timPstep (v : BitVec 32)
  /-- PPS_IN_EDGE (R457): A rising edge on a pulse input is judged for validity and alignment. -/
  | ppsInEdge (p : Fin 2) (spaced onTime : Bool)
  /-- PPS_IN_MISSING (R457): Two consecutive expected edges missing make the pulse input invalid, with an event. -/
  | ppsInMissing (p : Fin 2)
  /-- PPS_REALIGN (R461): Writing realign moves PPS_OUT2 or PPS_OUT3 to internal second plus pps_offset. -/
  | ppsRealign (p : Fin 4)
  /-- CLK_REALIGN (R464): Writing clk_realign aligns a CLK_OUT rising edge with the next internal second edge. -/
  | clkRealign (c : Fin 4)
  /-- CLK_SEL_WRITE (R470): A CLK_SEL write changes a client selector's lane, and the candidate is judged afresh and starts unqualified. -/
  | clkSelWrite (n : Fin 4) (lane : BitVec 6) (en : Bool)
  /-- DOORBELL (R483): A doorbell write updates a ring's producer or consumer index, and a consumer doorbell re-arms its ring. -/
  | doorbell (fn : Fin 65) (ring : BitVec 18) (aligned : Bool) (data : BitVec 64)
  /-- DESCRIPTOR_FETCH (R509): The part fetches descriptors round-robin from rings with pending doorbells, within the in-flight limits. -/
  | descriptorFetch (ring : BitVec 18) (data : BitVec 512)
  /-- NOP (R489): The NOP command completes with no action. -/
  | nop (d : Desc)
  /-- RING_CREATE (R491): The RING_CREATE command creates a ring with both indices at 0. -/
  | ringCreate (d : Desc)
  /-- RING_DESTROY (R492): The RING_DESTROY command checks its ring and waits for the ring's descriptors in flight. -/
  | ringDestroy (d : Desc)
  /-- RING_DESTROY_DONE (R492): The ring's in-flight descriptors have completed, the ring is destroyed, and the command completes OK. -/
  | ringDestroyDone (ring : BitVec 18)
  /-- RING_BIND (R492): The RING_BIND command binds a ring to an overhead, telemetry or capture source. -/
  | ringBind (d : Desc)
  /-- VF_CONFIG (R508): The VF_CONFIG command sets a virtual function's ring window and ops_max. -/
  | vfConfig (d : Desc)
  /-- TABLE_LOAD (R493): The TABLE_LOAD command writes host words as register writes to consecutive offsets of a die. -/
  | tableLoad (d : Desc) (words : List (BitVec 32))
  /-- MEM_READ (R574): The MEM_READ command copies bytes of an on-chip memory to the host. -/
  | memRead (d : Desc) (warned : Bool) (rivals : List (List (BitVec 5)))
  /-- MEM_WRITE (R574): The MEM_WRITE command writes host bytes into an on-chip memory. -/
  | memWrite (d : Desc) (data : List Byte) (lost : List (Nat × BitVec 64)) (warned : Bool) (rivals : List (List (BitVec 5)))
  /-- MARCH_RUN (R566): The MARCH_RUN command starts a destructive or content-preserving march of a memory. -/
  | marchRun (d : Desc)
  /-- MARCH_DONE (R567): A march ends, failing rows are repaired to spares, and the command completes with its counts. -/
  | marchDone (t : Die) (faulty : List FaultyWord)
  /-- OE_SPI (R496): The OE_SPI command queues a host SPI transaction to an optical engine. -/
  | oeSpi (d : Desc)
  /-- PWR_REQ (R517): The PWR_REQ command queues a power-state request with the shift boss. -/
  | pwrReq (d : Desc)
  /-- RESET (R635): The RESET command resets a domain, a die or the package. -/
  | reset (d : Desc)
  /-- FW_UPDATE (R643): The FW_UPDATE command reads and authenticates a cluster image into the off-shift code bank. -/
  | fwUpdate (d : Desc)
  /-- MAILBOX (R645): The MAILBOX command sends a request to a loop-engine cluster. -/
  | mailbox (d : Desc)
  /-- MAILBOX_ANSWER (R645): A cluster answers a mailbox request, and its 8-byte answer completes the command. -/
  | mailboxAnswer (t : Die) (cluster : Fin 6) (answer : BitVec 64)
  /-- MAILBOX_TIMEOUT (R645): A cluster that does not answer within 1 ms completes the request with RETRY. -/
  | mailboxTimeout (t : Die) (cluster : Fin 6)
  /-- CAPTURE (R614): The CAPTURE command arms a raw sample capture at a symbol-resolution trigger. -/
  | capture (d : Desc)
  /-- ASSAY_SNAP (R607): The ASSAY_SNAP command arms a counter snapshot at an LF boundary. -/
  | assaySnap (d : Desc)
  /-- SURVEY_ACQ (R611): The SURVEY_ACQ command arms a fibre survey from an SF boundary. -/
  | surveyAcq (d : Desc)
  /-- AUX_SAMPLE (R589): The AUX_SAMPLE command arms a simultaneous auxiliary conversion at an LF boundary. -/
  | auxSample (d : Desc)
  /-- EVENT_WRITE (R501): A pending event entry leaves for its Event ring once the ring exists and has room. -/
  | eventWrite (fn : Fin 65)
  /-- INTERRUPT_TIMER (R503): mod_time µs after the oldest unsignalled entry, an armed ring sends its MSI-X message. -/
  | interruptTimer (ring : BitVec 18)
  /-- VF_FLR (R475): An FLR of a virtual function destroys its rings and zeroises the key slots of pages bound only to it. -/
  | vfFlr (v : Fin 64)
  /-- ADMIN_EN (R510): Writing admin_en creates rings 0 to 2, or destroys all rings; a refused write sets admin_err. -/
  | adminEn (en : Bool)
  /-- PWR_REQUEST (R519): A domain receives REQUEST and answers GRANT, REFUSE or DELAY. -/
  | pwrRequest (t : Die) (dom : Fin 16)
  /-- PWR_ANSWER (R519): The shift boss receives a domain's answer to a power request. -/
  | pwrAnswer (t : Die) (dom : Fin 16)
  /-- DOMAIN_GRANT (R520): A domain that answered DELAY, or a DEC domain whose engines have emptied, sends GRANT. -/
  | domainGrant (t : Die) (dom : Fin 16)
  /-- PWR_TIMEOUT (R519): A domain with no final answer 1,024 SF after REQUEST aborts the entry with TIMEOUT. -/
  | pwrTimeout (t : Die) (dom : Fin 16)
  /-- PWR_RELEASE (R522): A domain receives RELEASE, keeps its state, and a DEC domain takes positions again. -/
  | pwrRelease (t : Die) (dom : Fin 16)
  /-- WAKE_SOURCE (R515): A transfer or descriptor reaches an idle domain, which wakes by itself. -/
  | wakeSource (t : Die) (dom : Fin 16)
  /-- BUDGET_INTERVAL (R534): At each SF count that is a multiple of 256, the shift boss computes the grants from measured power and temperatures. -/
  | budgetInterval (pool : List (List Nat))
  /-- THERMAL_CHECK (R536): Every 16 SF, a die's temperature sets its thermal level, with an event on each change. -/
  | thermalCheck (t : Die)
  /-- THERMAL_TRIP (R538): At 115 °C, the die's trip circuit removes power from all its switched domains. -/
  | thermalTrip (t : Die)
  /-- BIN_TEMP_REPORT (R582): Every 16 SF, an ore bin die sends its higher temperature reading to its Mill die. -/
  | binTempReport (b : Fin 2) (base top : BitVec 12)
  /-- CE_DETECTED (R556): A read corrects an error; ce_total increments and the error table is updated. -/
  | ceDetected (t : Die) (mem : Byte) (addr : BitVec 32) (syn : BitVec 22)
  /-- UE_DETECTED (R560): An uncorrectable error poisons the word, counts ue_total, raises UE_DETECTED and queues a canary test. -/
  | ueDetected (t : Die) (mem : Byte) (addr : BitVec 32)
  /-- PARTIAL_MEMORY_WRITE (R559): A partial write merges into a corrected word, or is refused on a poisoned one. -/
  | partialMemoryWrite (t : Die) (mem : Byte) (addr : BitVec 32) (off : Nat) (bytes : List Byte) (fault : Option (BitVec 22))
  /-- CANARY_START (R573): The next queued memory canary test starts once the previous one has ended. -/
  | canaryStart (t : Die)
  /-- CANARY_DONE (R569): A canary test classifies its unit TRANSIENT or STUCK, returns or retires it, and raises CANARY_DONE. -/
  | canaryDone (t : Die) (kind : Fin 7) (idx : Nat) (word : FaultyWord) (fails1 fails2 : Bool)
  /-- CE_FREE (R558): A write to ce_free frees error-table entries, except those with a queued canary test. -/
  | ceFree (t : Die) (mask : BitVec 16)
  /-- MEM_CNT_CLEAR (R576): Writing cnt_clear clears the memory counters and every conflict counter. -/
  | memCntClear (t : Die)
  /-- LE_LOCKSTEP (R572): A lockstep mismatch restarts the task on the spare engine, raises LE_LOCKSTEP and starts a canary test. -/
  | leLockstep (t : Die) (cluster : Fin 6) (engine : Fin 65)
  /-- AUX_CONVERSION_END (R583): An auxiliary conversion ends, its result is delivered, and the next conversion starts by priority. -/
  | auxConversionEnd (t : Die) (code : BitVec 12) (overrange : Bool)
  /-- AUX_INJECT_REQUEST (R584): An injected conversion request is queued, or answered NOT_SETTLED when 16 are already waiting. -/
  | auxInjectRequest (t : Die) (who : Fin 3) (ch : BitVec 5)
  /-- REG_START (R584): Writing reg_start in single mode requests one regular conversion. -/
  | regStart (t : Die)
  /-- AUX_REG_PERIOD (R584): Every reg_period µs in periodic mode, a regular conversion falls due. -/
  | auxRegPeriod (t : Die)
  /-- REF_SETTLED (R585): 200 µs after ref_en is set or after a Deep-sleep exit, ref_settled sets. -/
  | refSettled (t : Die)
  /-- AUX_CAL (R588): Writing aux_cal requests a 128 µs auxiliary ADC calibration. -/
  | auxCal (t : Die)
  /-- AUX_CAL_DONE (R588): The auxiliary calibration ends and cal_busy clears. -/
  | auxCalDone (t : Die)
  /-- AUX_Q_POP (R619): A read of AUX_Q_LO pops a result-queue entry and latches AUX_Q_HI. -/
  | auxQPop (t : Die)
  /-- AUX_SIMUL_SAMPLE (R589): At the named LF boundary, every named die samples its channel and AUX_SAMPLE completes. -/
  | auxSimulSample (codes : List (BitVec 12 × Bool))
  /-- TELEMETRY_WRITE (R592): A telemetry source writes its next record once its ring has room. -/
  | telemetryWrite (source : BitVec 10) (m : Fin 2)
  /-- LINE_MONITOR_UPDATE (R593): At each interval boundary, a carrier in TRACK updates its line monitor and emits record 0x08. -/
  | lineMonitorUpdate (n : Fin 4) (dgd : BitVec 16) (pdl : BitVec 10)
  /-- SOP_SAMPLE (R595): At each sop_rate instant, the SOP stream takes a Stokes sample. -/
  | sopSample (n : Fin 4) (s1 s2 s3 : BitVec 16)
  /-- SOP_RATE_MEASURE (R596): In each LF, the polarisation rotation rate is measured and sop_rate_peak is updated. -/
  | sopRateMeasure (n : Fin 4) (rot : BitVec 17)
  /-- PM_SECOND (R597): A PM second boundary closes the window and judges ES, SES, BBE and unavailability. -/
  | pmSecond (source : BitVec 10) (m : Fin 2) (layer : Fin 10) (c : PortCounts)
  /-- PM_RECORD (R600): 10 s after a second ends, its PM record 0x01 is written. -/
  | pmRecord (source : BitVec 10) (m : Fin 2) (layer : Fin 10)
  /-- ASSAY_BATCH (R606): Writing batch_go latches the selected assay counters with stamps and sets batch_busy. -/
  | assayBatch (vals : List (BitVec 48))
  /-- ASSAY_SNAPSHOT (R607): At the named LF boundary, the named dies latch the counters and records 0x02 are written. -/
  | assaySnapshot (vals : List (List (BitVec 48)))
  /-- TAG_SEED_LOAD (R608): A seed written to TAG_SEED loads into the tag generator at the next SF boundary. -/
  | tagSeedLoad (m : Fin 2)
  /-- SURVEY_ACCUMULATE (R610): An active survey SF accumulates the correlation for every distance bin. -/
  | surveyAccumulate (n : Fin 4)
  /-- SURVEY_DONE (R612): The accumulation count is reached; profile and anomaly records are written and SURVEY_ACQ completes. -/
  | surveyDone (n : Fin 4) (profile : List (BitVec 16)) (anoms : List Anomaly)
  /-- SURVEY_TIMEOUT (R611): max_wait ends accumulation and the survey completes with partial set. -/
  | surveyTimeout (n : Fin 4) (profile : List (BitVec 16)) (anoms : List Anomaly)
  /-- CAPTURE_TRIGGER (R616): At the first sample instant at or after the trigger, the capture begins. -/
  | captureTrigger (n : Fin 4) (phi : Fin 9)
  /-- CAPTURE_SET (R616): A sample set enters the capture FIFO, which drains in link class 5. -/
  | captureSet (n : Fin 4) (bytes : List Byte) (drained : Nat)
  /-- CAPTURE_DONE (R617): The capture drains, its Capture ring entry is written, and the command completes. -/
  | captureDone (n : Fin 4)
  /-- PORST_RISE (R631): A rising PORST_N, or the internal power-on reset, latches the straps and runs the boot sequence. -/
  | porstRise (straps : Straps) (primary secondary : BootImage)
  /-- FW_READY (R631): Boot completes, the tally is set, and fw_ready rises. -/
  | fwReady (faulty : List (Die × FaultyWord))
  /-- I2C_RECOVERY_LOAD (R630): The board controller writes a recovery image through the management I²C recovery window. -/
  | i2cRecoveryLoad (img : BootImage)
  /-- RAIL_FAULT (R626): A rail of a die leaving tolerance holds that die in reset. -/
  | railFault (t : Die)
  /-- DOMAIN_RESET_DONE (R636): A domain reset ends, with the domain's incarnation incremented and its settings reloaded. -/
  | domainResetDone (t : Die) (dom : Fin 16)
  /-- RESET_DONE (R637): A die reset ends with marching, reload, calibration and retraining done; the die is stale and RESET_DONE is raised. -/
  | resetDone (t : Die) (faulty : List FaultyWord)
  /-- FW_SWAPPED (R644): The cluster's engines restart on the new code and FW_SWAPPED is raised. -/
  | fwSwapped (t : Die) (cluster : Fin 6)
  /-- SLIP_CLR (R204): Writing clear_all clears a carrier's three slip-outcome counters. -/
  | slipClr (m : Fin 2) (c : Fin 2)
  /-- DEC_CNT_CLR (R281): Writing clear_all clears a carrier's decoder counters. -/
  | decCntClr (m : Fin 2) (c : Fin 2)
  /-- FRM_CNT_CLR (R315): Writing clear_all clears a carrier's Mymos frame counters. -/
  | frmCntClr (m : Fin 2) (c : Fin 2)
  /-- ODU_CNT_CLR (R355): Writing clear_all clears an ODU context's counters. -/
  | oduCntClr (m : Fin 2) (o : Fin 512)
  /-- FAR_SF_READ (R92): A read of FAR_SF_LO latches the carrier's far-tally block. -/
  | farSfRead (m : Fin 2) (c : Fin 2)
  /-- UNFINISHED_HWM_READ (R281): A read of DEC_ITERCAP resets unfinished_hwm to the present value of unfinished. -/
  | unfinishedHwmRead (m : Fin 2) (c : Fin 2)
  /-- TEMP_PEAK_READ (R542): A read of DIE_TEMP resets temp_peak. -/
  | tempPeakRead (t : Die)
  /-- SOP_RATE_PEAK_READ (R622): A read of SOP_STS resets sop_rate_peak. -/
  | sopRatePeakRead (n : Fin 4)
  /-- QUEUE_HWM_READ (R605): A read of QUEUE_STS resets hwm to the present occupancy. -/
  | queueHwmRead (t : Die) (q : Fin 32) (occupancy peak : BitVec 16)
  /-- OVR_SF_LATCH (R109): At each SF boundary a Face die latches ovr_sf_count of each ADC, counts ovr_sf_total, and latches dac_clip_sf of each DAC lane (R116). -/
  | ovrSfLatch (n : Fin 4) (peaks : List (Fin 129)) (clips : List (BitVec 16)) (rx : RxReport)
  /-- OE_FAULT_END (R123): OE_FAULT returns high, fault clears, and the OE_FAULT cause of R124 ends, so that release can proceed under R125. -/
  | oeFaultEnd (n : Fin 4)
  /-- RAIL_RESTORED (R626): All rails of a die return within tolerance and the die is released from the reset that R626 holds it in. -/
  | railRestored (t : Die)
  /-- ALIGN_LOCK_CHANGE (R363): An Ethernet PCS or FlexO port gains or loses block lock or alignment, align_lock changes, and the port failure event is raised. -/
  | alignLockChange (m : Fin 2) (l : Fin 24) (locked : Bool) (corrected uncorrectable : Nat)
  /-- LANE_TRAIN_REQUEST (R368): A training frame from the link partner carries a coefficient request, which the lane applies or answers with maximum or minimum status. -/
  | laneTrainRequest (m : Fin 2) (l : Fin 24) (coef : Fin 5) (req : Fin 3) (beyond : Bool)
  /-- TABLE_LOAD_DONE (R493): The last word of a running TABLE_LOAD is written, the load completes with its discard count, and a die holding a PREPARE may then accept. -/
  | tableLoadDone (t : Die)
  /-- FW_STAGED (R643): The roughly 4 ms read and check of a FW_UPDATE section ends, the off-shift bank is written, and the command completes OK or AUTH_FAIL, raising FW_STAGED or FW_AUTH_FAIL. -/
  | fwStaged (t : Die) (cluster : Fin 6) (keyHash : BitVec 384) (sigOk : Bool)
  /-- PPS_OUT_PULSE (R460): A pulse output reaches its pulse position and emits a pulse of pps_width, subject to pps_en, squelch_unlocked and the 500 ms rule of R462. -/
  | ppsOutPulse (p : Fin 4)
  /-- COMMIT_DEADLINE (R66): At (target − 4):0, M0 sends the go-ahead, or sends CANCEL and completes with BAD_DESC, RESET_ABORTED or LATE. -/
  | commitDeadline
  /-- SHIFT_COMMIT_DONE (R70): After the last swap of the commit, shift_seq advances and the completion is written. -/
  | shiftCommitDone
  /-- SURF_CLK_LOST (R86): No SURF_CLK edge for 1 ms sets surf_clk_lost, and the surface domain switches to its internal oscillator. -/
  | surfClkLost
  /-- HOLDOFF_EXPIRE (R440): The loss of a selected line or client candidate outlasts holdoff_ms and the selector acts. -/
  | holdoffExpire
  /-- TIM_SWITCH (R446): A reference switch completes with its phase absorbed, switching clears, and TIM_SWITCH is raised. -/
  | timSwitch
  /-- XO_LOST (R445): No XO_IN edge for 10 µs sets xo_lost and raises XO_LOST. -/
  | xoLost
  /-- DPLL_LOCKED (R450): Phase and frequency error within limits for 1 s move the timing state from ACQUIRING to LOCKED. -/
  | dpllLocked
  /-- DPLL_PHASE_ERROR (R450): |phase error| above 1 µs in LOCKED returns the state to ACQUIRING. -/
  | dpllPhaseError
  /-- PHASE_STEP_DONE (R453): pstep_pending reaches 0 and step_busy clears. -/
  | phaseStepDone
  /-- INTERNAL_SECOND (R459): At an internal second edge, the tally is latched in PPS_TALLY and the PPS outputs pulse. -/
  | internalSecond
  /-- PPS_TALLY_READ (R467): A read of PPS_TALLY_OFF latches the PPS tally SF registers. -/
  | ppsTallyRead
  /-- COMPLETION_WRITE (R497): A completion entry is written once its ring has room, followed by any MSI-X message. -/
  | completionWrite
  /-- HOST_RESET (R474): A hot reset, link-down reset or PF FLR destroys every ring and disables SR-IOV, leaving traffic untouched. -/
  | hostReset
  /-- VF_DISABLE (R503): Clearing VF Enable ends every virtual function as an FLR does. -/
  | vfDisable
  /-- PWR_DEADLINE (R521): At (boundary − 4):0 of an at_tally request, ENTER is sent, or RELEASE is sent and the request completes LATE. -/
  | pwrDeadline
  /-- PWR_ENTER (R521): At the named SF boundary, the domains enter the requested state in order, and the completion follows. -/
  | pwrEnter
  /-- DOMAIN_WAKE_DONE (R525): Every named domain is back in Run after any calibration, and the Run request completes. -/
  | domainWakeDone
  /-- PACKAGE_POWER_OFF (R516): 1 ms after the package Off completion, power is removed from HOSTIF and TIMING. -/
  | packagePowerOff
  /-- GRANT_APPLY (R528): At the next SF boundary, issued grants take effect, raised to any new floor. -/
  | grantApply
  /-- LAMP_CLEAR (R540): Writing clear_all clears the lamp board, lamp_overflow and the PWR_CNT counts. -/
  | lampClear
  /-- ASSAY_BATCH_DONE (R606): Every latched batch value is in place and batch_busy clears. -/
  | assayBatchDone
  /-- PORST_FALL (R685): PORST_N low with VDD_SURF kept resets every die, while the surface domain holds the tally count. -/
  | porstFall
  /-- SVN_COMMIT (R630): Writing svn_commit burns the fused security version up to the running image's svn. -/
  | svnCommit
  /-- SURFACE_POWER_LOSS (R668): VDD_SURF leaving tolerance resets the package at once, and origin_lost applies at the next start. -/
  | surfacePowerLoss
  /-- WAKE (R641): A WAKE low of 100 µs or more in Off raises RAIL_EN. -/
  | wake
  /-- WAKE_RAILS_GOOD (R641): 1 ms after the rails are within tolerance, the surface domain generates the internal power-on reset. -/
  | wakeRailsGood
  /-- RAIL_TIMEOUT (R641): Rails not all within tolerance 100 ms after RAIL_EN rose: RAIL_EN drops and rail_fault sets. -/
  | railTimeout
  /-- RAIL_DISCHARGED (R642): With a latched WAKE, every group-3 rail falling below 50 % raises RAIL_EN again. -/
  | railDischarged
  /-- REG_ACC_CLR (R660): Writing clear_all clears REG_ACC. -/
  | regAccClr
  /-- TALLY_SNAP_READ (R90): A read of TALLY_SNAP_OFF latches the whole package tally. -/
  | tallySnapRead
  /-- RESET_HOLD_END (R39): The last request to a target's previous incarnation completes or aborts, and the reset command held under R39 starts. -/
  | resetHoldEnd
  /-- PCIE_LINK_UP (R632): M0's PCI Express endpoint completes link training after PERST_N deassertion and the 10 ms point. -/
  | pcieLinkUp
  deriving DecidableEq, Repr

end Sys2Proof
end

