-- ==== Sys2Proof/Decode.lean ====
section
/-! DEFINITION. The commands that table words spell. No row of the command table gives bits: the block is commanded by
register accesses, descriptors and events, not by an encoding of its own. -/

namespace Sys2Proof

/-- The command that a table word spells: none, for no row has bits. -/
def decodeTableWord (_nbits _w : Nat) : Option Instr := none

end Sys2Proof
end

