-- ==== Sys2Proof/Machine/Flags.lean ====
section
/-! DEFINITION. The code numbers of the manual: completion statuses (R498), event reasons (R502, R539, R575, R618, R646),
descriptor opcodes (R489) and power domains (R512). -/

namespace Sys2Proof.Machine

/-- Completion status codes (R498). -/
inductive Status
  | ok | late | targetUnpowered | resetAborted | keyBusy | authFail | nonceExhausted | refused | writeLost | badDesc
  | notPermitted | retry | uncorrectable | untrusted | shed | notSettled
  deriving DecidableEq, Repr

/-- The code of a status (R498). -/
def Status.code (t : Status) : Nat := t.ctorIdx

/-- The word a dead read returns (R5, R17, R505). -/
abbrev deadWord : Nat := 0xDEAD0FF0

namespace Reason
abbrev fieldEvent : Nat := 0x0001
abbrev blockOff : Nat := 0x0002
abbrev lockedWrite : Nat := 0x0003
abbrev dieUnreachable : Nat := 0x0004
abbrev doorbellBad : Nat := 0x0005
abbrev cmdNotPermitted : Nat := 0x0006
abbrev shiftWqFull : Nat := 0x0010
abbrev shiftStale : Nat := 0x0011
abbrev acqFail : Nat := 0x0020
abbrev rxLock : Nat := 0x0021
abbrev rxLockLost : Nat := 0x0022
abbrev retuneStaged : Nat := 0x0030
abbrev retuneDone : Nat := 0x0031
abbrev retuneInvalid : Nat := 0x0032
abbrev retuneMissed : Nat := 0x0033
abbrev fecPhase : Nat := 0x0040
abbrev mymosLof : Nat := 0x0050
abbrev mymosSync : Nat := 0x0051
abbrev rateMismatch : Nat := 0x0052
abbrev memberOut : Nat := 0x0053
abbrev memberIn : Nat := 0x0054
abbrev apsChange : Nat := 0x0060
abbrev lcrNack : Nat := 0x0061
abbrev laneTrainFail : Nat := 0x0070
abbrev xcLink : Nat := 0x0071
abbrev xcRoleConflict : Nat := 0x0072
abbrev xcPartnerLost : Nat := 0x0073
abbrev xcTakeover : Nat := 0x0074
abbrev keyWarn : Nat := 0x0080
abbrev nonceExhausted : Nat := 0x0081
abbrev keyStaged : Nat := 0x0082
abbrev keyMissed : Nat := 0x0083
abbrev freqWarn : Nat := 0x0090
abbrev freqDisq : Nat := 0x0091
abbrev freqQual : Nat := 0x0092
abbrev xoLost : Nat := 0x0093
abbrev timSwitch : Nat := 0x0094
abbrev timState : Nat := 0x0095
abbrev ppsJump : Nat := 0x0096
abbrev floorOverBudget : Nat := 0x0100
abbrev thermWarn : Nat := 0x0101
abbrev thermThrottle : Nat := 0x0102
abbrev thermClear : Nat := 0x0103
abbrev thermLimit : Nat := 0x0104
abbrev telemStale : Nat := 0x0105
abbrev pwrRefused : Nat := 0x0106
abbrev pwrAborted : Nat := 0x0107
abbrev decPark : Nat := 0x0108
abbrev ceThreshold : Nat := 0x0200
abbrev ueDetected : Nat := 0x0201
abbrev canaryDone : Nat := 0x0202
abbrev spareExhausted : Nat := 0x0203
abbrev marchFail : Nat := 0x0204
abbrev repairExhausted : Nat := 0x0205
abbrev ceTableFull : Nat := 0x0206
abbrev leLockstep : Nat := 0x0207
abbrev repairOverflow : Nat := 0x0208
abbrev auxOverrange : Nat := 0x0300
abbrev auxNotSettled : Nat := 0x0301
abbrev pmUasStart : Nat := 0x0302
abbrev pmUasEnd : Nat := 0x0303
abbrev telemMissed : Nat := 0x0304
abbrev sopFast : Nat := 0x0305
abbrev surveyAnomaly : Nat := 0x0306
abbrev captureShed : Nat := 0x0307
abbrev bootFallback : Nat := 0x0400
abbrev resetDone : Nat := 0x0401
abbrev fwStaged : Nat := 0x0402
abbrev fwSwapped : Nat := 0x0403
abbrev fwAuthFail : Nat := 0x0404
abbrev tripRecorded : Nat := 0x0405
end Reason

namespace Dom
abbrev convTx : Nat := 0x00
abbrev convRx : Nat := 0x01
abbrev cdc : Nat := 0x02
abbrev nlc0 : Nat := 0x03
abbrev nlc1 : Nat := 0x04
abbrev eq : Nat := 0x05
abbrev crdm : Nat := 0x06
abbrev txdsp : Nat := 0x07
abbrev auxm : Nat := 0x08
abbrev winz : Nat := 0x09
abbrev dec0 : Nat := 0x00
abbrev outer : Nat := 0x04
abbrev frame : Nat := 0x05
abbrev otn : Nat := 0x06
abbrev crypto : Nat := 0x07
abbrev clntA : Nat := 0x08
abbrev clntB : Nat := 0x09
abbrev hostif : Nat := 0x0A
abbrev timing : Nat := 0x0B
abbrev leA : Nat := 0x0C
abbrev leB : Nat := 0x0D
abbrev binArray : Nat := 0x00
abbrev binCtrl : Nat := 0x01
end Dom

end Sys2Proof.Machine
end

