-- ==== Sys2Proof/Machine/Bits.lean ====
section
/-! DEFINITION. Bit fields, saturating counters, rounding and byte lists: the arithmetic the meanings share. -/

namespace Sys2Proof.Machine

/-- Bits [hi:lo] of a number. -/
def bits (v hi lo : Nat) : Nat := v / 2 ^ lo % 2 ^ (hi + 1 - lo)

/-- Bit `k` of a number. -/
def bit (v k : Nat) : Bool := v / 2 ^ k % 2 == 1

/-- 1 for true, 0 for false. -/
def b2n (b : Bool) : Nat := if b then 1 else 0

/-- The quotient rounded up; 0 for a zero divisor. -/
def ceilDiv (a b : Nat) : Nat := if b = 0 then 0 else (a + b - 1) / b

/-- `v + k`, held at the greatest value of `w` bits. -/
def satAdd (w v k : Nat) : Nat := min (v + k) (2 ^ w - 1)

/-- The two's-complement word of width `w` of an integer. -/
def ofInt (w : Nat) (v : Int) : Nat := (v % (2 ^ w : Int)).toNat

/-- The integer that a two's-complement word of width `w` stands for. -/
def toInt (w v : Nat) : Int := if v % 2 ^ w < 2 ^ (w - 1) then (v % 2 ^ w : Nat) else (v % 2 ^ w : Nat) - (2 ^ w : Int)

/-- An integer held in the range of `w`-bit two's complement. -/
def clampInt (w : Nat) (v : Int) : Int := max (-(2 ^ (w - 1) : Int)) (min v (2 ^ (w - 1) - 1))

/-- The number whose little-endian bytes are given (R9). -/
def leNat : List Byte → Nat
  | [] => 0
  | b :: l => b.toNat + 256 * leNat l

/-- The `n` little-endian bytes of a number (R9). -/
def leBytes : Nat → Nat → List Byte
  | 0, _ => []
  | n + 1, v => BitVec.ofNat 8 v :: leBytes n (v / 256)

/-- The number whose bytes are given most significant first. -/
def beNat (l : List Byte) : Nat := leNat l.reverse

/-- The 32-bit words of a byte list; a last word of fewer than four bytes is dropped. -/
def leWords : List Byte → List Nat
  | a :: b :: c :: d :: l => leNat [a, b, c, d] :: leWords l
  | _ => []

/-- The number of set bits below bit `n`. -/
def popCount : Nat → Nat → Nat
  | 0, _ => 0
  | n + 1, v => v % 2 + popCount n (v / 2)

/-- The largest `k < n` with `p k`, or 0. -/
def lastWith (p : Nat → Bool) : Nat → Nat
  | 0 => 0
  | n + 1 => if p n then n else lastWith p n

/-- The first position of a list whose element passes, or none. -/
def findPos {α : Type} (p : α → Bool) : List α → Option Nat
  | [] => none
  | a :: l => if p a then some 0 else (findPos p l).map (· + 1)

/-- Apply a function to the elements that pass. -/
def updateWhere {α : Type} (p : α → Bool) (f : α → α) (l : List α) : List α := l.map fun a => if p a then f a else a

end Sys2Proof.Machine
end

