-- ==== Sys2Proof/Machine/Cells.lean ====
section
/-! DEFINITION. Sparse data by key in one canonical form: a list of key and value pairs, keys strictly rising, no value
equal to what an unlisted key reads as. The register store, the memories and the host's memory are kept so. -/

namespace Sys2Proof.Machine

/-- The value listed for a key. -/
def Cells.find {α : Type} (k : Nat) : List (Nat × α) → Option α
  | [] => none
  | (j, v) :: l => if j = k then some v else Cells.find k l

/-- The list with a pair placed before the first greater key. -/
def Cells.ins {α : Type} (k : Nat) (v : α) : List (Nat × α) → List (Nat × α)
  | [] => [(k, v)]
  | (j, w) :: l => if k < j then (k, v) :: (j, w) :: l else (j, w) :: Cells.ins k v l

/-- The list without a key. -/
def Cells.del {α : Type} (k : Nat) (l : List (Nat × α)) : List (Nat × α) := l.filter fun p => p.1 != k

/-- The list with a key's value replaced. -/
def Cells.put {α : Type} (k : Nat) (v : α) (l : List (Nat × α)) : List (Nat × α) := Cells.ins k v (Cells.del k l)

/-- The value at a key, where an unlisted key `k` reads as `d k`. -/
def Cells.get {α : Type} (d : Nat → α) (k : Nat) (l : List (Nat × α)) : α := (Cells.find k l).getD (d k)

/-- The list after a write: the value an unlisted key reads as is not listed. -/
def Cells.set {α : Type} [DecidableEq α] (d : Nat → α) (k : Nat) (v : α) (l : List (Nat × α)) : List (Nat × α) :=
  if v = d k then Cells.del k l else Cells.put k v l

/-- Keys strictly rising. -/
def Cells.sorted {α : Type} : List (Nat × α) → Bool
  | [] => true
  | [_] => true
  | (j, _) :: (k, w) :: l => decide (j < k) && Cells.sorted ((k, w) :: l)

/-- The canonical form: keys strictly rising, no value equal to what its key reads as unlisted. -/
def Cells.wf {α : Type} [DecidableEq α] (d : Nat → α) (l : List (Nat × α)) : Bool :=
  Cells.sorted l && l.all fun p => decide (p.2 ≠ d p.1)

end Sys2Proof.Machine
end

