-- ==== Sys2Proof/Machine/Fields.lean ====
section
/-! DEFINITION. The names of everything scalar the machine holds: one constructor of `Fld` per register field of the
manual's register tables (named block, then field), and one per scalar the rules imply but no register shows (the last
part). Reserved bits are no fields: they read 0 and ignore writes (R659). -/

namespace Sys2Proof.Machine

/-- The register blocks of the manual's tables: a block is a base offset and up to two instance strides. -/
inductive Blk
  | winz
  | tally
  | shift
  | acc
  | view
  | dom
  | far
  | adc
  | adc2
  | lanecorr
  | dac
  | dac2
  | site
  | spi
  | tia
  | ptrim
  | bias
  | loop
  | rx
  | cdc
  | nlc
  | eq
  | cr
  | acq
  | slip
  | slip2
  | tx
  | ltx
  | lrx
  | pool
  | pool2
  | eng
  | selfchk
  | dec
  | frm
  | lg
  | lg2
  | odu
  | odu2
  | lmap
  | fmap
  | slice
  | tti
  | tti2
  | lane
  | port
  | port2
  | xc
  | pair
  | cry
  | page
  | page2
  | page3
  | strm
  | tim
  | pps
  | clk
  | cand
  | csel
  | host
  | vf
  | pwr
  | car
  | pmill
  | pdie
  | lamp
  | mem
  | ce
  | mem2
  | rep
  | lespare
  | queue
  | aux
  | thr
  | tag
  | mon
  | assay
  | assay2
  | assay3
  | chip
  | fw
  | bin
  | internal
  deriving DecidableEq, Repr

/-- Every register field, and after them every internal scalar. -/
inductive Fld
  /- R41, R42: block winz. -/
  | winzLinkUp
  | winzDegraded
  | winzSpareExhausted
  | winzPeerIncarnation
  | winzLocalIncarnation
  | winzCreditsAvail
  | winzCreditsMax
  | winzCrcErrors
  | winzAbortedRequests
  | winzStaleReplies
  | winzTxUnderrun
  | winzClearAll
  /- R90: block tally. -/
  | tallySnapOff
  | tallySnapSfLo
  | tallySnapSfHi
  | tallyWakeAdvanceLo
  | tallyWakeErrSf
  | tallySurfClkLost
  | tallyOriginLost
  | tallySurfPpm
  | tallySetSfLo
  | tallySetSfHi
  | tallyWakeAdvanceHi
  /- R90: block shift. -/
  | shiftLastStatus
  | shiftPending
  | shiftSeq
  /- R660: block acc. -/
  | accPartialWrites
  | accDeadAccesses
  | accClearAll
  /- R91: block view. -/
  | viewViewOffshift
  | viewFrozen
  | viewStale
  | viewHeldWrites
  /- R544: block dom. -/
  | domState
  | domBusy
  /- R92: block far. -/
  | farValid
  | farRxSwapPredicted
  | farRxSwapJumped
  | farSfLo
  | farSfHi
  | farArrSfLo
  | farArrSfHi
  | farArrOffset
  /- R143: block adc. -/
  | adcCalFreeze
  | adcTiaReqEn
  | adcTiaUpEn
  | adcCalSkipLimit
  | adcOvrThresh
  | adcTiaHoldoff
  | adcTiaUpLevel
  | adcTiaUpSf
  /- R144: block adc2. -/
  | adcOvrSticky
  | adcCalHalted
  | adcCalStarved
  | adcSpareRetired
  | adcTiaAtMin
  | adcCalUnit
  | adcOvrSfCount
  | adcOvrSfTotal
  | adcCalDiscards
  | adcCalRotations
  | adcTiaRequests
  | adcTiaGainShadow
  /- R145: block lanecorr. -/
  | lanecorrDelay
  | lanecorrGain
  /- R146: block dac. -/
  | dacTxEnable
  | dacSwing
  | dacOeTxdisForce
  | dacFaultAutodis
  /- R146: block dac2. -/
  | dacTxDelay
  | dacPre2
  | dacPre1
  | dacMain
  | dacPost1
  | dacPost2
  | dacClipSf
  /- R147: block site. -/
  | sitePresent
  | siteFault
  | siteFaultSticky
  | siteTxdisState
  | sitePresentChanged
  | siteTxdisCause
  | sitePtrimRail
  /- R147: block spi. -/
  | spiSclkDiv
  | spiCmdWr
  | spiCmdRd
  /- R147: block tia. -/
  | tiaAddrBase
  | tiaMin
  | tiaMax
  | tiaStep
  /- R147: block ptrim. -/
  | ptrimEn
  | ptrimDead
  | ptrimTarget
  | ptrimAddr
  | ptrimShadow
  /- R148: block bias. -/
  | biasCode
  | biasRail
  /- R148: block loop. -/
  | loopMode
  | loopPushpull
  | loopQuadPol
  | loopDitherAmp
  | loopChipSf
  | loopSamplesPerChip
  | loopAvgPeriods
  | loopGainIq
  | loopGainP
  | loopLockThresh
  | loopState
  | loopBiasDiscard
  /- R197: block rx. -/
  | rxEnable
  | rxSubcarriers
  | rxEqMode
  | rxRolloff
  | rxCarrierFreq
  /- R198: block cdc. -/
  | cdcCdSet
  | cdcCdMode
  | cdcCdSpan
  | cdcFft
  | cdcCdEst
  | cdcFftActive
  /- R199: block nlc. -/
  | nlcSpanCount
  | nlcSpanLen
  | nlcAtten
  | nlcXiAuto
  | nlcGamma
  | nlcLaunchPwr
  | nlcXi
  | nlcFilt
  | nlcStepsGranted
  | nlcStepsActive
  | nlcActive
  | nlcXiCurrent
  /- R200: block eq. -/
  | eqTaps
  | eqMu
  | eqFreeze
  /- R201: block cr. -/
  | crPilotWin
  | crDdWin
  | crSlipDetEn
  | crFreqHint
  | crFreqHintEn
  | crLlrStep
  | crFreqOffset
  /- R202: block acq. -/
  | acqRestart
  | acqLosThresh
  | acqWarmWindow
  | acqState
  | acqLos
  | acqLockLost
  | acqLastFailState
  | acqFailures
  /- R203: block slip. -/
  | slipSlipsX
  | slipSlipsY
  | slipPilotOutliers
  /- R204: block slip2. -/
  | slipCorrQueue
  | slipRedecoded
  | slipLate
  | slipClearAll
  /- R236: block tx. -/
  | txSubcarriers
  | txRolloff
  | txPilotAmp
  | txRms
  /- R237: block ltx. -/
  | ltxEntH
  | ltxClass
  | ltxCode
  | ltxM
  | ltxAutoH
  | ltxHActive
  | ltxAnnouncing
  | ltxRetuneCancelled
  | ltxFill
  /- R238: block lrx. -/
  | lrxEntH
  | lrxClass
  | lrxCode
  | lrxM
  | lrxAutoH
  | lrxAnnH
  | lrxAnnClass
  | lrxAnnCode
  | lrxAnnM
  | lrxAnnStaged
  | lrxRetuneMissed
  | lrxAnnCancelSeen
  | lrxAnnTargetLo
  | lrxAnnTargetHi
  | lrxRetunesDone
  | lrxRetunesMissed
  | lrxDmMismatch
  /- R279: block pool. -/
  | poolHighMark
  | poolLowMark
  | poolShedStep
  | poolShedMinIter
  | poolIterMaxOt
  | poolOtEnable
  | poolEtMin
  | poolKatEn
  | poolKatPeriod
  /- R280: block pool2. -/
  | poolEnginesInService
  | poolShedding
  | poolDomainsRun
  | poolOtTokens
  | poolOtGrant
  /- R280: block eng. -/
  | engRetired
  | engSpareInUse
  | engSpareExhausted
  /- R280: block selfchk. -/
  | selfchkFail
  | selfchkKatSkipped
  /- R281: block dec. -/
  | decCapGrant
  | decCapEffective
  | decUnfinished
  | decUnfinishedHwm
  | decChainRunning
  | decPhaseKnown
  | decPhase
  | decPhaseConflict
  | decChainRestarts
  | decReleased
  | decIterSum
  | decOtIterations
  | decCapped
  | decShedBlocks
  | decOuterCorr
  | decOuterUncorr
  | decClearAll
  /- R315: block frm. -/
  | frmState
  | frmShapeLocked
  | frmShapePhase
  | frmLofSticky
  | frmDescMismatch
  | frmMsgOverflow
  | frmSyncOffset
  | frmLofCount
  | frmFalseSync
  | frmOhCrcErrors
  | frmGroupIdSeen
  | frmMemberIdxSeen
  | frmMemberCntSeen
  | frmMsgRxData
  | frmMsgAvail
  | frmMsgTxData
  | frmTxLevel
  | frmClearAll
  /- R316: block lg. -/
  | lgMembers
  | lgTxGroupId
  | lgRxGroupId
  | lgSkewMaxSf
  | lgRefRestart
  | lgInService
  | lgSkewDefect
  | lgRefCarrier
  | lgRefValid
  | lgMemberExits
  | lgMemberReturns
  | lgFailAll
  | lgLb
  | lgLbCont
  /- R316: block lg2. -/
  | lgSigma
  | lgSigmaValid
  /- R355: block odu. -/
  | oduType
  | oduEnable
  | oduClientKind
  | oduClientPort
  | oduParentCtx
  | oduParentDie
  | oduTsCount
  | oduFlexRate
  | oduLb
  | oduLbCont
  | oduLoTs0
  | oduLoTs1
  | oduLoTs2
  | oduTcmMode
  | oduTimMode
  | oduTimAct
  | oduApsMon
  | oduInsEn
  | oduExtEn
  | oduExtDiv
  | oduApsPersist
  | oduRepForce
  | oduApsTxVal
  | oduApsTxLevel
  | oduSsf
  | oduDAis
  | oduDLck
  | oduDOci
  | oduDBdi
  | oduDTim
  | oduDPlm
  | oduDMsim
  | oduDCsf
  | oduTcmFail
  | oduApsChanged
  | oduTxRepActive
  | oduRxRepActive
  | oduInsRepeat
  | oduExtDrop
  | oduBipErrors
  | oduBeiErrors
  | oduImpOverflow
  | oduImpUnderflow
  | oduClearAll
  /- R355: block odu2. -/
  | oduApsRx
  /- R356: block lmap. -/
  | lmapCtx
  | lmapDie
  /- R356: block fmap. -/
  | fmapCtx
  | fmapDie
  /- R357: block slice. -/
  | sliceFail
  | sliceDBdi
  | sliceDTim
  | sliceBdiTx
  | sliceInsEn
  | sliceExtEn
  | sliceExtDiv
  | sliceTimMode
  | sliceTimAct
  | sliceBipErrors
  | sliceInsRepeat
  | sliceExtDrop
  /- R358: block tti. -/
  | ttiOduTx
  | ttiOduExp
  | ttiOduAcc
  /- R358: block tti2. -/
  | ttiSliceTx
  | ttiSliceExp
  | ttiSliceAcc
  /- R389: block lane. -/
  | laneRate
  | laneTxPolInv
  | laneRxPolInv
  | laneTrainEn
  | laneCdrLock
  | laneBlockLock
  | laneTrainState
  | laneLockLosses
  | laneTrainFailures
  | laneGenPat
  | laneGenEn
  | laneChkPat
  | laneChkEn
  | laneInvert
  | laneInjSingle
  | laneInjBurst
  | laneBurstLen
  | laneInjBusy
  | laneChkLock
  | laneChkLost
  | lanePrbsErrLo
  | lanePrbsErrHi
  | lanePrbsBitsLo
  | lanePrbsBitsHi
  /- R390: block port. -/
  | portMode
  | portWidth
  | portFlexoBase
  | portSquelch
  /- R390: block port2. -/
  | portAlignLock
  | portCwCorrected
  | portCwUncorrectable
  /- R391: block xc. -/
  | xcQuads
  | xcPartnerId
  | xcLostUs
  | xcLinkUp
  | xcPartnerLost
  | xcPartnerTstate
  | xcPartnerQl
  | xcPartnerIdSeen
  | xcToffLo
  | xcToffHi
  | xcBadCtrl
  | xcLinkDowns
  /- R392: block pair. -/
  | pairCtx
  | pairEn
  | pairRole
  | pairOnLoss
  | pairSelForce
  | pairApsEn
  | pairApsLevel
  | pairRoleActive
  | pairSelLeg
  | pairAgreed
  | pairTookOver
  | pairSwitches
  | pairSwHit
  /- R429: block cry. -/
  | cryKeyLimitLog2
  | cryPipesInService
  | crySpareInUse
  | crySpareExhausted
  | cryKekLoaded
  | cryKwBusy
  | cryPipeRetired
  | cryDupMismatch
  | cryKwMismatch
  /- R430: block page. -/
  | pageFunc
  | pageFuncValid
  /- R430: block page2. -/
  | pageCompat
  | pageKeyWarn
  | pageKeyStaged
  | pageKeyMissed
  | pageTxFramesLo
  | pageTxFramesHi
  | pageLaCtrLo
  | pageLaCtrHi
  /- R430: block page3. -/
  | pageSlotLoaded
  | pageSlotKeyIdx
  /- R431: block strm. -/
  | strmTargetKind
  | strmTarget
  | strmPage
  | strmTxEn
  | strmRxEn
  | strmRepSel
  | strmNum
  | strmFarId
  | strmTxState
  | strmRxState
  | strmSeqLock
  | strmDUntrusted
  | strmTxSeqLo
  | strmTxSeqHi
  | strmAuthFail
  | strmKeyIdxMiss
  | strmUntrusted
  | strmSeqUnlocked
  /- R465, R466: block tim. -/
  | timMode
  | timForceCand
  | timRevertive
  | timQlEn
  | timQlOption
  | timDpllBw
  | timAcqBw
  | timWtrS
  | timPpsSel
  | timHoldoffMs
  | timHoldoverQl
  | timFreerunQl
  | timStepSlew
  | timWarnThr
  | timDisqThr
  | timRequalThr
  | timTstate
  | timSelCand
  | timSwitching
  | timStepBusy
  | timXoLost
  | timHistS
  | timOutQl
  | timRequalS
  | timPps0Valid
  | timPps1Valid
  | timSwitches
  | timHoldovers
  | timPpsJumps
  | timPstep
  | timPstepPending
  | timPpsTallyOff
  | timPpsTallySfLo
  | timPpsTallySfHi
  /- R468: block pps. -/
  | ppsOffset
  | ppsWidth
  | ppsEn
  | ppsSquelchUnlocked
  | ppsRealign
  /- R468: block clk. -/
  | clkFreqHz
  | clkEn
  | clkSquelch
  | clkRealign
  /- R469: block cand. -/
  | candEn
  | candPrio
  | candHostQl
  | candWtrClear
  | candRefFreqHz
  | candActive
  | candQualified
  | candSoftWarn
  | candWtrRunning
  | candEligible
  | candRxQl
  | candQlTimeout
  | candFreqOff
  | candWtrLeftS
  | candRequalLeftS
  /- R470: block csel. -/
  | cselLane
  | cselSelEn
  /- R510: block host. -/
  | hostFwReady
  | hostAdminReady
  | hostAdminErr
  | hostBigRingSpace
  | hostOpsInFlight
  | hostAdminEn
  | hostSqL
  | hostCqL
  | hostEqL
  | hostSqLo
  | hostSqHi
  | hostCqLo
  | hostCqHi
  | hostEqLo
  | hostEqHi
  /- R511: block vf. -/
  | vfWindowBase
  | vfWindowValid
  | vfOpsMax
  | vfOpsInFlight
  /- R540: block pwr. -/
  | pwrBudgetW
  | pwrGuardW
  | pwrTWarn
  | pwrTThrottle
  | pwrTHyst
  | pwrStepSlew
  | pwrDecParkEn
  | pwrStepMw
  | pwrOtUw
  | pwrSurveyDw
  | pwrPMeasW
  | pwrPGrantedW
  | pwrFloorOver
  | pwrHsBusy
  | pwrTelemStale
  | pwrLampClearAll
  | pwrLampUsed
  | pwrLampOverflow
  | pwrRefusals
  | pwrAborts
  /- R541: block car. -/
  | carNlFloor
  | carCapFloor
  | carStepMax
  | carCapTarget
  | carStepsGrant
  | carCapGrant
  | carSurveyDuty
  | carThermLevel
  | carSurveyReq
  | carMargin
  /- R542: block pmill. -/
  | pmillOtMax
  | pmillAssayKMin
  | pmillOtGrant
  | pmillAssayK
  | pmillThermLevel
  | pmillDecParked
  /- R542: block pdie. -/
  | pdieTemp
  | pdieTempPeak
  | pdiePDie
  | pdieStale
  /- R543: block lamp. -/
  | lampBlock
  | lampReason
  | lampReqState
  | lampValid
  | lampCount
  | lampFirstSf
  | lampLastSf
  /- R576: block mem. -/
  | memCeThresh
  | memCeUsed
  | memMarchBusy
  | memCanaryBusy
  | memCanaryQueue
  | memRepairExhausted
  | memRepairPendFull
  | memCeTotal
  | memUeTotal
  | memPartialRefused
  | memCeUnlogged
  | memCanaryDropped
  | memWriteLost
  | memSpBusyEvents
  | memCeFree
  | memCntClear
  /- R577: block ce. -/
  | ceMemId
  | ceValid
  | ceMultiSyndrome
  | ceCanaryState
  | ceHitCount
  | ceAddress
  | ceSyndrome
  | ceFirstSf
  | ceLastSf
  /- R578: block mem2. -/
  | memConflictCycles
  /- R579: block rep. -/
  | repMemId
  | repValid
  | repSource
  | repApplied
  | repBank
  | repRow
  /- R580: block lespare. -/
  | lespareInUse
  | lespareExhausted
  | lespareRetiredEngine
  | lespareLockstepMismatch
  /- R605: block queue. -/
  | queueOccupancy
  | queueHwm
  /- R619: block aux. -/
  | auxRefEn
  | auxRefSettled
  | auxCal
  | auxCalBusy
  | auxRegMode
  | auxRegStart
  | auxRegCh
  | auxRegPeriod
  | auxQueueInj
  | auxQResult
  | auxQChannel
  | auxQInjected
  | auxQOverrange
  | auxQNotSettled
  | auxQSimultaneous
  | auxQValid
  | auxQOffset
  | auxQSfLow
  | auxQLevel
  | auxInjDropped
  | auxQDrop
  /- R620: block thr. -/
  | thrQueue
  | thrEn
  | thrLevel
  /- R621: block tag. -/
  | tagEn
  | tagSeed
  | tagKActive
  | tagMissed
  /- R622: block mon. -/
  | monPrefecBer
  | monQDb
  | monSnrDb
  | monGsnrDb
  | monOsnrDb
  | monCd
  | monDgdPs
  | monPdl
  | monFreqOffset
  | monSf
  | monTrxSnr
  | monSopRate
  | monSopThr
  | monSopRatePeak
  /- R623: block assay. -/
  | assayEventId
  /- R623: block assay2. -/
  | assayBatchGo
  | assayBatchBusy
  | assayBatchLen
  /- R623: block assay3. -/
  | assayCountLo
  | assayCountHi
  | assayStamp
  /- R647: block chip. -/
  | chipStepping
  | chipConfig
  | chipSpeed200
  | chipPkgId
  | chipBootsel
  | chipBootFallback
  | chipBootFailed
  | chipBootFailReason
  | chipMarchPreserve
  | chipSvnCommit
  | chipSecFailReason
  | chipSvnFused
  | chipPor
  | chipWake
  | chipPkgReset
  | chipTrip
  | chipTripDie
  | chipRailFault
  /- R648: block fw. -/
  | fwStaged
  | fwRunning
  | fwSvnRunning
  /- R661: block bin. -/
  | binArrayReady
  | binRingCtxHome
  | binRefresh2x
  | binCapacityGib
  /- Scalars of the rules that no register shows. -/
  /-- R683: live copy of the members field as it defines the receive group (the receive part of the swap) -/
  | lgRxMembers
  /-- R7: SH the symbol rate, in quarters of a GBd (no register named; reset 272 GBd, DESIGN CHOICE) -/
  | symRate
  /-- R505,R637: the domain (instance 63: the die) is in reset -/
  | inReset
  /-- R513: the anchor domain of the die went to Deep sleep or Off through a power request -/
  | plannedDown
  /-- R35: incarnation number of the domain (instance 63: of the die) -/
  | incarnation
  /-- R32: SF of the lane's latest CRC errors (instance: port times 256 plus lane) -/
  | winzLaneSf
  /-- R32: CRC errors of the lane within that SF -/
  | winzLaneErrs
  /-- R32: spare lanes of the link at the port that carry traffic (instance: port) -/
  | winzSparesUsed
  /-- R78: shift sequence number the die last swapped to -/
  | dieSeq
  /-- R64: the die's answer to PREPARE on its way to M0: 1 ACCEPT, 2 INVALID -/
  | shiftAnswer
  /-- R493: a PREPARE that waits for the last word of a running TABLE_LOAD -/
  | prepareHeld
  /-- R59: the die's last swap of a commit that has completed is done and its off-shift copy is not yet reloaded -/
  | reloadDue
  /-- R67: M0 has sent CANCEL and the die has not received it -/
  | cancelSent
  /-- R53: last far SF number recorded -/
  | farLiveSf
  /-- R53: its arrival position, in symbols of the package tally -/
  | farLiveArr
  /-- R74: an arrival position recorded since the last reset and the last swap to a new symbol rate -/
  | farHasArr
  /-- R52: the count the last good SF overhead announced -/
  | farLastAnn
  /-- R52: farLastAnn holds a count of the present run -/
  | farAnnSeen
  /-- R86: the surface domain counts its internal oscillator in place of SURF_CLK -/
  | surfOsc
  /-- R83: ticks counted since the tally stopped -/
  | surfTicks
  /-- R83: SF count the surface domain holds -/
  | surfHeldSf
  /-- R88: the surface domain has held a tally since it last gained power -/
  | surfEverHeld
  /-- R64: M0 has sent PREPARE and the die has not answered -/
  | prepareSent
  /-- R105: a calibration window is in progress on the ADC -/
  | calActive
  /-- R99: SF at which the calibration window in progress began -/
  | calStart
  /-- R106: the slice that the spare replaces for good, plus one; 0 for none: kept for the start-up repair -/
  | adcRetired
  /-- R103: the window in progress has been discarded -/
  | calDiscarded
  /-- R104: discards in a row of the unit under calibration -/
  | calSkip
  /-- R106: the rotation waits for a canary test of its unit -/
  | calPaused
  /-- R109: saturated codes of the SF in progress -/
  | ovrCount
  /-- R111: consecutive SFs at or above ovr_thresh -/
  | ovrRun
  /-- R114: consecutive SFs without a code above tia_up_level -/
  | tiaQuiet
  /-- R112: the lane is in hold-off -/
  | tiaHold
  /-- R112: SF at which the hold-off ends -/
  | tiaHoldUntil
  /-- R107: foreground calibration of the die's converters is running -/
  | fgCal
  /-- R119: the DACs output code 0 in the pause of a symbol-rate change -/
  | dacPause
  /-- R125: complete SFs the DACs have sent since they began, held at 255 -/
  | dacSent
  /-- R125: the DACs began part-way through the SF in progress -/
  | dacPart
  /-- R125: enabled, present and powered: the DACs send but for the pause of R119 -/
  | dacUp
  /-- R142: the SPI balls of the site are driven low -/
  | spiLow
  /-- R126: the OE_TXDIS output drives its ball -/
  | txdisDrive
  /-- R140: a mode write that waits for the next chip boundary -/
  | biasModePend
  /-- R135: a loop just started waits for its first chip boundary -/
  | biasWait
  /-- R135: SF of the last chip boundary plus one; 0 for none -/
  | biasChipAt
  /-- R136: sum of the chip's samples -/
  | biasSum
  /-- R138: samples of the chip that count -/
  | biasGood
  /-- R136: conversions asked for in the chip -/
  | biasAsked
  /-- R137: the code the host last wrote to a bias channel (instance: channel) -/
  | biasHost
  /-- R131: sum of the TX_TAP conversions of the budget interval -/
  | trimSum
  /-- R131: how many -/
  | trimCount
  /-- R135: the chip in progress of the loop's four -/
  | biasChip
  /-- R138: the period in progress is void -/
  | biasVoid
  /-- R136: periods accumulated -/
  | biasPeriods
  /-- R137: updates in a row within the lock limit -/
  | biasLockRun
  /-- R134: a loop's bias in two's complement (instance: loop times 4 plus 0 I, 1 Q, 2 P) -/
  | biasV
  /-- R136: correlation sums of the period in progress, two's complement (instances as biasV) -/
  | biasPart
  /-- R136: accumulated correlations, two's complement (instances as biasV) -/
  | biasCorr
  /-- R192: tally position of the latest transition of the acquisition state -/
  | acqStamp
  /-- R195: the attempt in progress is a warm restart -/
  | acqWarm
  /-- R195: SF up to which a warm restart is possible; 0 for none -/
  | warmUntil
  /-- R194: the next dispersion search follows a symbol-rate change -/
  | acqRateChange
  /-- R157: the value the CDC filter holds, two's complement in 0.005 ns/nm -/
  | cdcValue
  /-- R177: a slip candidate is pending on the stream (instance: polarisation times 16 plus subcarrier) -/
  | candOn
  /-- R178: net rotation of the pending candidates -/
  | candK
  /-- R178: first rotated symbol -/
  | candStart
  /-- R275: the engine the next known-answer test runs on -/
  | katNext
  /-- R276: the unit that is the domain's spare; 31 for none left (instance: DEC domain) -/
  | engSpare
  /-- R251: positions still released CAPPED unless they converge, after a join -/
  | joinLeft
  /-- R296: the next offset the alignment hunt tests -/
  | huntPos
  /-- R301: SF at which the deframer began to hunt -/
  | huntSince
  /-- R297: the candidate offset in presync -/
  | huntCand
  /-- R267: the carrier is shedding -/
  | shedding
  /-- R520: the DEC domain has stopped taking positions for a power request -/
  | decHold
  /-- R608: state of the tag generator -/
  | tagGen
  /-- R299: the first complete SF overhead after sync is still to come -/
  | ohFirst
  /-- R300: SF overheads in a row that failed their crc -/
  | ohBad
  /-- R291: SFs whose overhead failed since the last good one -/
  | ohSince
  /-- R308: the last good SF overhead carried the configured group fields -/
  | ohIdsOk
  /-- R231: rt_state of the last good SF overhead -/
  | rtLastState
  /-- R417: key_state of the last good SF overhead -/
  | keyLastState
  /-- R231: contents of the last retune announcement: target, h, class, code, M -/
  | annKey
  /-- R231: consecutive far SFs with that ANNOUNCE -/
  | annRun
  /-- R233: consecutive far SFs with CANCEL -/
  | cancelRun
  /-- R231: contents of the staged retune -/
  | annStagedKey
  /-- R234: contents of the last announcement refused as invalid -/
  | annInvalidKey
  /-- R417: consecutive far SFs with the same key ANNOUNCE -/
  | keyAnnRun
  /-- R417: consecutive far SFs with a key CANCEL -/
  | keyCancelRun
  /-- R417: contents of the last key announcement -/
  | keyAnnKey
  /-- R417: target of the key change staged by the carrier; 0 for none -/
  | keyStagedAt
  /-- R417: far SF at which the page's RX slots swap; 0 for none -/
  | pageKeyTarget
  /-- R417: carrier whose announcement staged the page -/
  | pageKeyCarrier
  /-- R295: candidate of s mod 64 at the start of the sweep window -/
  | sweepCand
  /-- R297: line frame of the candidate in presync -/
  | huntLf
  /-- R291: last good otuc_ptr -/
  | rxOtucPtr
  /-- R291: last good otuc_mfas -/
  | rxOtucMfas
  /-- R416: key_idx bit of the Mymos SF overhead -/
  | mymosKeyIdx
  /-- R229: the announcement the carrier transmits: 0 NONE, 1 ANNOUNCE, 2 CANCEL -/
  | annTxState
  /-- R229: the running announcement is of a retune -/
  | annTxRetune
  /-- R416: the running announcement is of a key change -/
  | annTxKey
  /-- R229: target of the running announcement -/
  | annTxTarget
  /-- R229: h, class, code, M after the target -/
  | annTxVals
  /-- R293: the message byte of the last SF overhead sent, bit 8 msg_valid -/
  | msgSent
  /-- R311: far SFs in a row for which R308 held (instance: group times 4 plus carrier) -/
  | lgRun
  /-- R310: the member has left service since the group began (instances as lgRun) -/
  | lgWas
  /-- R311: the last far SF evaluated (instances as lgRun) -/
  | lgLastFar
  /-- R309: last measured skew in symbol periods, two's complement (instances as lgRun) -/
  | lgSkew
  /-- R311: far SF at which the member's slices resume; 0 for none (instances as lgRun) -/
  | lgResume
  /-- R312: ref_restart written, the new reference is still to come -/
  | lgRestart
  /-- R312: SF since which no member has been in service -/
  | lgIdleSince
  /-- R309: last far SF released -/
  | lgReleased
  /-- R314: last far SF whose release position reached the other Mill die -/
  | lgFarRelease
  /-- R312: tally position up to which the content is interrupted after a ref_restart -/
  | lgMuteUntil
  /-- R503: virtual functions enabled -/
  | numVfs
  /-- R345: the line slot map by which received content is taken apart (instance as lmapCtx) -/
  | rxMapCtx
  /-- R345: die bit of rxMapCtx -/
  | rxMapDie
  /-- R347: the FlexO slot set in use: context and die bit (instance as fmapCtx) -/
  | fmapUse
  /-- R329: consecutive frames with the last SM BDI value (instance: slice) -/
  | sliceStatRun
  /-- R329: that value -/
  | sliceBdiLast
  /-- R332: transmit frames begun since the SM BDI condition changed -/
  | sliceBdiRun
  /-- R329: last PM STAT value (instance: context) -/
  | oduStatLast
  /-- R329: consecutive frames with it -/
  | oduStatRun
  /-- R329: last PM BDI value -/
  | oduBdiLast
  /-- R329: consecutive frames with it -/
  | oduBdiRun
  /-- R329: last TCM STAT value (instance: context times 8 plus level) -/
  | tcmStatLast
  /-- R329: consecutive frames with it -/
  | tcmStatRun
  /-- R329: last TCM BDI value -/
  | tcmBdiLast
  /-- R329: consecutive frames with it -/
  | tcmBdiRun
  /-- R329: defects of the TCM level: bit 0 AIS, LCK, OCI; bit 1 LTC; bit 2 BDI; bit 3 AIS, LCK or OCI at an operational level -/
  | tcmBad
  /-- R332: PM BDI is being sent -/
  | oduBdiTx
  /-- R332: transmit frames begun since the PM BDI condition changed -/
  | oduBdiTxRun
  /-- R345: frames during which dMSIM is not raised against the parent context -/
  | msimHold
  /-- R329: dMSIM of the group's OPUCn -/
  | lgMsim
  /-- R345: frames during which dMSIM is not raised against the group's OPUCn -/
  | lgMsimHold
  /-- R335: APS value being counted (instance: context times 8 plus level) -/
  | apsCand
  /-- R335: consecutive occurrences of apsCand -/
  | apsRun
  /-- R337: APS value transmitted in the level's bytes -/
  | apsTxVal
  /-- R337: a level has a transmitted value -/
  | apsTxOn
  /-- R354: received frames since the last extract entry fell due (instance: context, or 512 plus slice) -/
  | extSkip
  /-- R354: entries were dropped before the next one (instances as extSkip) -/
  | extGap
  /-- R349: an insert entry has been taken (instances as extSkip) -/
  | insTaken
  /-- R350: the last entry taken has hold = 1 (instances as extSkip) -/
  | insHold
  /-- R325: blocks in the adaptation buffer of the context -/
  | impLevel
  /-- R325: idles among them -/
  | impIdles
  /-- R326: blocks are discarded up to the end of the Ethernet frame -/
  | impDrop
  /-- R338: rank of the signal the context sends toward the line; 0 for the client's own -/
  | oduRank
  /-- R338: the replacement signal: 1 AIS, 2 LCK, 3 OCI -/
  | oduSig
  /-- R339: IMP alignment of the received ODU is lost -/
  | oduImpLost
  /-- R338: tally position of the last frame start on the pair's crosscut channel -/
  | xcSofAt
  /-- R338: a frame start has arrived on the channel since the link was last UP -/
  | xcSofSeen
  /-- R329: a TTI of the layer has been accepted (instance: context, or 512 plus slice) -/
  | ttiSeen
  /-- R401: frames and lookaside encryptions under the page's transmit key -/
  | pageTxCount
  /-- R401: the page's key has reached its limit -/
  | pageOut
  /-- R414: the on-shift slot is being destroyed (instance: page times 4 plus slot) -/
  | zeroPend
  /-- R399: the stream has been bound -/
  | strmBound
  /-- R400: SF at which a start takes effect; with strmStartOn -/
  | strmStartAt
  /-- R400: a start is to come -/
  | strmStartOn
  /-- R400: seq_floor of that start -/
  | strmFloor
  /-- R494: SF from which the stream is idle; with strmStopOn -/
  | strmStopAt
  /-- R494: a stop is to come -/
  | strmStopOn
  /-- R400: sequence of the stream's next frame -/
  | strmNext
  /-- R400: the stream has sent a sequence -/
  | strmSent
  /-- R431: last sequence sent, live -/
  | strmSeq
  /-- R420: sequence counted for the next received frame -/
  | rxSeq
  /-- R420: SEQB bytes gathered -/
  | rxGather
  /-- R420: bytes gathered -/
  | rxGatherN
  /-- R420: base sequence of the last whole group -/
  | rxBase
  /-- R420: rxBase holds a group -/
  | rxBaseOk
  /-- R420: CST mismatches in a row -/
  | rxMiss
  /-- R424: the pipe that is the spare; 31 for none left -/
  | pipeSpare
  /-- R383: seq of the pair's COORD blocks -/
  | pairSeq
  /-- R383: last seq received from the partner for the pair -/
  | pairRxSeq
  /-- R383: own role of the last agreed state -/
  | pairAgRole
  /-- R383: own on_loss of the last agreed state -/
  | pairAgLoss
  /-- R384: role_active does not come from the on-shift role -/
  | pairTaken
  /-- R377: the last STATUS block of the present lock named the expected partner -/
  | xcStatusOk
  /-- R386: tally position since which every lane of the link is out of block lock -/
  | xcOutAt
  /-- R377: position in the link that the lane's ALIGN block carried -/
  | lanePos
  /-- R377: the lane is deskewed -/
  | laneDeskewed
  /-- R368: a coefficient of the lane's transmit equaliser in two's complement (instance: lane times 8 plus coefficient) -/
  | laneCoef
  /-- R368: status of the last request: 0 not updated, 1 updated, 2 maximum, 3 minimum (instances as laneCoef) -/
  | laneCoefSts
  /-- R372: bits of the injection in progress -/
  | injLeft
  /-- R371: errors counted by the checker, live -/
  | prbsErrs
  /-- R371: bits counted by the checker, live -/
  | prbsBits
  /-- R439: the candidate starts a wait-to-restore when it is next eligible in every other respect -/
  | candWtrDue
  /-- R439: cand_en when the candidates were last judged -/
  | candWasEn
  /-- R439: the candidate met every condition but its quality level when last judged -/
  | candBase
  /-- R444: updates in a row below requal_thr -/
  | candRun
  /-- R443: freq_off has not fallen below warn_thr since the last FREQ_WARN -/
  | candWarned
  /-- R435: the last OSMC code received -/
  | candQlLast
  /-- R435: how many times in a row -/
  | candQlRun
  /-- R440: a hold-off runs for the selected candidate -/
  | timHold
  /-- R440: the selected candidate came back within its hold-off and is followed though unqualified -/
  | timFollow
  /-- R446: the candidate that a switch in progress leaves; 15 for none -/
  | timOld
  /-- R451: the second in progress is not kept -/
  | timSecVoid
  /-- R457: edges in a row spaced 1 s on the pulse input -/
  | ppsRunIn
  /-- R458: edges in a row that agree on a new position -/
  | ppsAgree
  /-- R462: the output's position has moved since its last pulse -/
  | ppsMoved
  /-- R462: tally position of the output's last pulse -/
  | ppsLast
  /-- R462: the output has emitted a pulse -/
  | ppsEver
  /-- R461: the offset by which the output stands -/
  | ppsUse
  /-- R463: width code of the last pulse emitted -/
  | ppsPulse
  /-- R464: frequency the clock output runs at; 0 while stopped -/
  | clkUse
  /-- R464: the clock output realigns at the next internal second -/
  | clkRealigning
  /-- R459: tally position of the last internal second -/
  | ppsTallyLive
  /-- R632: the PCI Express link is up -/
  | pcieUp
  /-- R631: the boot sequence has begun since the last power-on reset -/
  | bootStarted
  /-- R525: a host request for Run holds the domain -/
  | hostRun
  /-- R531: a host request put the DEC domain to Sleep -/
  | hostSleep
  /-- R531: a request of the shift boss about the DEC domain or NLC1 waits or runs -/
  | parkAsk
  /-- R530: budget intervals in a row with grant and floor at 16 or fewer (instance: carrier) -/
  | nlcLow
  /-- R530: the carrier waits for NLC1 for more than 16 steps (instance: carrier) -/
  | nlcWant
  /-- R533: intervals in a row without a good supply reading of the die -/
  | supBad
  /-- R533: a good supply reading of the die since fw_ready -/
  | supGood
  /-- R533: the last good supply reading of the die, in 10 mW -/
  | supLast
  /-- R582: budget intervals in a row without a temperature of the ore bin die -/
  | binMiss
  /-- R582: a temperature of the ore bin die arrived since the last budget interval -/
  | binSeen
  /-- R536: thermal level of the die -/
  | thermLevel
  /-- R537: the die entered THROTTLE and its grants fall at the next SF boundary -/
  | thermFast
  /-- R538: THERM_LIMIT has been raised since the die was last below its condition -/
  | thermLimit
  /-- R534: measured power less the cost of the grants in force at the last interval, in units of 1/17,408 uW, two's complement -/
  | pwrOther
  /-- R538: a trip has taken the die to Off -/
  | tripped
  /-- R626: a rail of the die is outside tolerance -/
  | railBad
  /-- R516: 0 powered; 1 the Off completion is written; 2 power is removed -/
  | pkgOff
  /-- R641: level of RAIL_EN -/
  | railEn
  /-- R642: a WAKE that arrived before power was removed -/
  | wakeLatch
  /-- R685: the on-shift symbol rate as the surface domain mirrors it -/
  | surfRate
  /-- R538: a trip is recorded and not yet reported -/
  | tripRec
  /-- R87: SF at which the tally last stopped -/
  | stopSf
  /-- R87: SF at which it last resumed -/
  | resumeSf
  /-- R658: lock bits set by the boot image: bit 0 key_limit_log2, bit 1 surf_ppm -/
  | lkLocked
  /-- R631: an image has been accepted and fw_ready is to come -/
  | bootReady
  /-- R630: svn of the running boot image -/
  | svnRunning
  /-- R643: svn of the off-shift code bank (instance: cluster) -/
  | fwBankSvn
  /-- R644: the cluster has swapped banks and has not restarted (instance: cluster) -/
  | fwSwapping
  /-- R572: the cluster's spare engine is in use (instance: cluster) -/
  | leSpareUsed
  /-- R569: a memory canary test runs -/
  | memTested
  /-- R558: CE_TABLE_FULL has been raised for the present run of unlogged corrections -/
  | ceTableFull
  /-- R587: conversions still to carry NOT_SETTLED after an overrange -/
  | auxLate
  /-- R608: a seed waits for the next SF boundary -/
  | tagSeedPend
  /-- R646: svn of the on-shift code bank (instance: cluster) -/
  | fwSvnLive
  /-- R624: the latched I2CADDR straps: the management I2C target answers at 0x4C plus this value -/
  | i2cAddr
  /-- R191: SFs in a row with the mean RMS code below los_thresh, held at 16 -/
  | losLow
  /-- R191: SFs in a row with it at or above los_thresh, held at 16 -/
  | losHigh
  /-- R190: SFs in a row with los 0 in SIGNAL_DETECT, held at 256 -/
  | sigRun
  /-- R190: SFs in a row with the equaliser error power below its convergence limit, held at 512 -/
  | errLowRun
  /-- R195: SFs in a row with it above its divergence limit, held at 16 -/
  | errHighRun
  /-- R190: SFs in a row with the training block found at one position, held at 4 -/
  | trainRun
  /-- R190: that position -/
  | trainAt
  /-- R195: SFs in a row without the training block, held at 8 -/
  | trainMiss
  /-- R190: SFs in a row in PHASE_LOCK without a pilot outlier, held at 64 -/
  | cleanRun
  /-- R190: a pilot outlier in the SF in progress -/
  | outlierSeen
  /-- R193: an acq_restart waits for the next SF boundary -/
  | acqRestartPend
  /-- R167: the equaliser taps are held: eq_freeze at the last SF boundary -/
  | eqFrozen
  /-- R157: SF at which cd_est was last set or updated -/
  | cdUpdSf
  /-- R161: the dispersion that the CDC block compensates beside the active steps, two's complement in 0.005 ns/nm -/
  | cdcShare
  /-- R163: the last trial step of ξ went up -/
  | xiUp
  /-- R163: the SNR estimate at that step -/
  | xiSnr
  /-- R176: averaged phase estimate of the stream, two's complement in 2π/65,536 (instance as candOn) -/
  | crEst
  /-- R176: its change from the averaged estimate before, two's complement (instance as candOn) -/
  | crStep
  /-- R187: noise variance of the stream over the previous LF, in 1/65,536 of a squared amplitude unit (instance as candOn) -/
  | noiseEst
  /-- R187: sum of the squared errors of the LF in progress (instance as candOn) -/
  | noiseSum
  /-- R187: how many (instance as candOn) -/
  | noiseCnt
  /-- R187: that LF: far SF times 64 plus LF (instance as candOn) -/
  | noiseLf
  /-- R248: positions of the decoding chain received, held at 2 -/
  | chainPos
  /-- R251: the decoding chain joined a running far chain -/
  | chainJoin
  /-- R279: high_mark in force since the last SF boundary -/
  | highAct
  /-- R279: low_mark in force -/
  | lowAct
  /-- R279: shed_step in force -/
  | shedStepAct
  /-- R279: shed_min_iter in force -/
  | shedMinAct
  /-- R279: iter_max_ot in force -/
  | iterMaxAct
  /-- R279: ot_enable in force -/
  | otEnableAct
  /-- R279: et_min in force -/
  | etMinAct
  /-- R279: kat_en in force -/
  | katEnAct
  /-- R279: kat_period in force -/
  | katPeriodAct
  /-- R275: one more than the SF from which the last known-answer test was due -/
  | katServed
  /-- R251: a joining chain waits for the first SF boundary at which it holds LLRs -/
  | chainWait
  /-- R272: errors counted toward the pre-FEC estimate of the interval, in 2^-24 -/
  | berErrs
  /-- R272: coded bits of the positions counted -/
  | berBits
  /-- R20: the PRBS31 generator that fills line frames (instance 0 of a Face die) -/
  | prbs31
  /-- R324: MFAS of the slice's next frame, counted on from otuc_mfas (instance: local slice) -/
  | sliceMfas
  /-- R540: budget_w in force since the last interval -/
  | budgetAct
  /-- R540: guard_w in force -/
  | guardAct
  /-- R540: t_warn in force -/
  | tWarnAct
  /-- R540: t_throttle in force -/
  | tThrottleAct
  /-- R540: t_hyst in force -/
  | tHystAct
  /-- R540: step_slew in force -/
  | stepSlewAct
  /-- R540: dec_park_en in force -/
  | decParkAct
  /-- R540: step_mw in force -/
  | stepMwAct
  /-- R540: ot_uw in force -/
  | otUwAct
  /-- R540: survey_dw in force -/
  | surveyDwAct
  /-- R55: SF in which the grants that wait were issued -/
  | grantSf
  /-- R537: SF in which the die entered THROTTLE -/
  | thermFastSf
  /-- R295: far SF boundaries since the sweep window began, held at 7 -/
  | sweepRun
  /-- R332: BIP-8 errors of the last received frame that SM BEI has still to report (instance: local slice) -/
  | smBei
  /-- R332: the same of a context's PM layer or TCM level (instance: context times 8 plus level, 0 for PM) -/
  | odBei
  /-- R332: TCM BDI is being sent (instance: context times 8 plus level) -/
  | tcmBdiTx
  /-- R332: transmit frames begun since its cause changed -/
  | tcmBdiTxRun
  /-- R339: what the context sends toward its client: 0 its own, 1 ODU-AIS, 3 its own transmit ODU, 4 local fault ordered sets -/
  | oduClientSig
  /-- R327: Cm of the last server multiframe sent for the context -/
  | gmpTxCm
  /-- R327: its ΣCnD -/
  | gmpTxCnd
  /-- R327: Cm of the last server multiframe received -/
  | gmpRxCm
  /-- R327: its ΣCnD -/
  | gmpRxCnd
  /-- R327: client bytes of that multiframe, as Cm and ΣCnD give them -/
  | gmpRxBytes
  /-- R344: the line slot map by which frames are multiplexed: context (instance as lmapCtx) -/
  | txMapCtx
  /-- R344: its die bit -/
  | txMapDie
  /-- R345: a receive swap has left resized slot sets for the next frame with OMFI 0 (instance: local carrier) -/
  | rxMapWait
  /-- R383: The partner's on_loss value of an agreed state -/
  | pairAgFarLoss
  /-- R449: The bandwidth code that the DPLL uses -/
  | timBwUse
  /-- R440: The phase being absorbed is that of an input that returned within its hold-off -/
  | timReturn
  /-- R454: The quality level in the OSMC of the slice's transmitted frames -/
  | sliceQlTx
  /-- R509: The ring from which the last descriptor was fetched -/
  | fetchRing
  /-- R509: Descriptors fetched from it in its turn -/
  | fetchCount
  /-- R607: The counters of the pending ASSAY_SNAP have been latched, and its records leave -/
  | snapTaken
  /-- R595: The SF of the last sample of the polarisation stream -/
  | sopTaken
  /-- R628: The fused hash of key slot 0 to 3 (instance), a SHA-384 -/
  | fuseKeyHash
  /-- R628: The revocation fuse of key slot 0 to 3 (instance) -/
  | fuseKeyRevoked
  /-- R536,R581: The last good code of TEMP_MAIN that an injected conversion gave the shift boss -/
  | tempCode
  /-- R536: A good code of TEMP_MAIN has come -/
  | tempGood
  /-- R528,R667: Sum of the codes of supply channel 0x0C + instance in the budget interval -/
  | supSum
  /-- R528: Conversions in that sum -/
  | supCount
  /-- R533: A supply result of the interval was NOT_SETTLED or overrange -/
  | supTagged
  deriving DecidableEq

end Sys2Proof.Machine
end

