-- ==== Sys2Proof/Machine/FieldTable.lean ====
section
/-! DEFINITION. The register tables of the manual as data: where a field stands, its access code, its reset value, and
with which part of a shift change it swaps. The whole address map of R649 to R651 is read from here. -/

namespace Sys2Proof.Machine

/-- Which windows a block stands in (R649, R650): the package window, every die, or the dies of one kind. -/
inductive Win
  | pkg | any | face | mill | bin | faceMill | vf | internal
  deriving DecidableEq, Repr

/-- The access codes of R14. -/
inductive Acc
  | rw | ro | w1c | wo | sh | lk
  deriving DecidableEq, Repr

/-- With which part of a shift change an SH field swaps: the package or transmit set at the local target (R59), a
carrier's receive set (R71, R152), or the receive part of a line group (R683). -/
inductive SwapClass
  | pkg | rx | lg
  deriving DecidableEq, Repr

/-- A block: its window kind, base offset, instance counts and strides (offset = base + a*s1 + b*s2), and for blocks
whose inner instances share one word the bit stride of the inner instance. -/
structure BlkInfo where
  win : Win
  base : Nat
  n1 : Nat
  s1 : Nat
  n2 : Nat
  s2 : Nat
  bitStride : Nat

/-- A field: its block, word offset in the block, lowest bit, width, access code, reset value, swap class. -/
structure FldRow where
  blk : Blk
  off : Nat
  lo : Nat
  width : Nat
  acc : Acc
  reset : Nat
  cls : SwapClass

/-- The blocks' places. -/
def Blk.info : Blk → BlkInfo
  | .winz => ⟨.any, 0x8000, 4, 0x40, 1, 0x0, 0⟩
  | .tally => ⟨.pkg, 0x100, 1, 0x0, 1, 0x0, 0⟩
  | .shift => ⟨.pkg, 0x110, 1, 0x0, 1, 0x0, 0⟩
  | .acc => ⟨.pkg, 0x140, 1, 0x0, 1, 0x0, 0⟩
  | .view => ⟨.any, 0x40, 1, 0x0, 1, 0x0, 0⟩
  | .dom => ⟨.any, 0x80, 2, 0x4, 8, 0x0, 4⟩
  | .far => ⟨.mill, 0x9000, 2, 0x20, 1, 0x0, 0⟩
  | .adc => ⟨.face, 0x10000, 1, 0x0, 1, 0x0, 0⟩
  | .adc2 => ⟨.face, 0x10010, 4, 0x10, 1, 0x0, 0⟩
  | .lanecorr => ⟨.face, 0x10050, 4, 0x4, 1, 0x0, 0⟩
  | .dac => ⟨.face, 0x10080, 1, 0x0, 1, 0x0, 0⟩
  | .dac2 => ⟨.face, 0x10090, 4, 0x10, 1, 0x0, 0⟩
  | .site => ⟨.face, 0x10100, 1, 0x0, 1, 0x0, 0⟩
  | .spi => ⟨.face, 0x10104, 1, 0x0, 1, 0x0, 0⟩
  | .tia => ⟨.face, 0x10108, 1, 0x0, 1, 0x0, 0⟩
  | .ptrim => ⟨.face, 0x1010c, 1, 0x0, 1, 0x0, 0⟩
  | .bias => ⟨.face, 0x10200, 16, 0x4, 1, 0x0, 0⟩
  | .loop => ⟨.face, 0x10240, 2, 0x10, 1, 0x0, 0⟩
  | .rx => ⟨.face, 0x20000, 1, 0x0, 1, 0x0, 0⟩
  | .cdc => ⟨.face, 0x20004, 1, 0x0, 1, 0x0, 0⟩
  | .nlc => ⟨.face, 0x20010, 1, 0x0, 1, 0x0, 0⟩
  | .eq => ⟨.face, 0x20020, 1, 0x0, 1, 0x0, 0⟩
  | .cr => ⟨.face, 0x20030, 1, 0x0, 1, 0x0, 0⟩
  | .acq => ⟨.face, 0x20040, 1, 0x0, 1, 0x0, 0⟩
  | .slip => ⟨.face, 0x20050, 1, 0x0, 1, 0x0, 0⟩
  | .slip2 => ⟨.mill, 0x9100, 2, 0x10, 1, 0x0, 0⟩
  | .tx => ⟨.face, 0x30000, 1, 0x0, 1, 0x0, 0⟩
  | .ltx => ⟨.mill, 0x9200, 2, 0x20, 1, 0x0, 0⟩
  | .lrx => ⟨.mill, 0x9300, 2, 0x20, 1, 0x0, 0⟩
  | .pool => ⟨.mill, 0xa000, 1, 0x0, 1, 0x0, 0⟩
  | .pool2 => ⟨.mill, 0xa008, 1, 0x0, 1, 0x0, 0⟩
  | .eng => ⟨.mill, 0xa010, 4, 0x4, 1, 0x0, 0⟩
  | .selfchk => ⟨.mill, 0xa020, 1, 0x0, 1, 0x0, 0⟩
  | .dec => ⟨.mill, 0xa100, 2, 0x40, 1, 0x0, 0⟩
  | .frm => ⟨.mill, 0x9400, 2, 0x40, 1, 0x0, 0⟩
  | .lg => ⟨.pkg, 0x200, 4, 0x40, 1, 0x0, 0⟩
  | .lg2 => ⟨.pkg, 0x210, 4, 0x40, 4, 0x4, 0⟩
  | .odu => ⟨.mill, 0x40000, 512, 0x80, 1, 0x0, 0⟩
  | .odu2 => ⟨.mill, 0x40040, 512, 0x80, 8, 0x4, 0⟩
  | .lmap => ⟨.mill, 0x50000, 960, 0x4, 1, 0x0, 0⟩
  | .fmap => ⟨.mill, 0x51000, 960, 0x4, 1, 0x0, 0⟩
  | .slice => ⟨.mill, 0x52000, 48, 0x10, 1, 0x0, 0⟩
  | .tti => ⟨.mill, 0x60000, 512, 0x100, 16, 0x4, 0⟩
  | .tti2 => ⟨.mill, 0x80000, 48, 0x100, 16, 0x4, 0⟩
  | .lane => ⟨.mill, 0xc0000, 24, 0x20, 1, 0x0, 0⟩
  | .port => ⟨.mill, 0xc0400, 24, 0x4, 1, 0x0, 0⟩
  | .port2 => ⟨.mill, 0xc0600, 24, 0x10, 1, 0x0, 0⟩
  | .xc => ⟨.mill, 0xc0800, 1, 0x0, 1, 0x0, 0⟩
  | .pair => ⟨.mill, 0xc0900, 32, 0x8, 1, 0x0, 0⟩
  | .cry => ⟨.mill, 0xd0000, 1, 0x0, 1, 0x0, 0⟩
  | .page => ⟨.mill, 0xe0000, 256, 0x100, 4, 0x0, 8⟩
  | .page2 => ⟨.mill, 0xe0000, 256, 0x100, 1, 0x0, 0⟩
  | .page3 => ⟨.mill, 0xe0008, 256, 0x100, 4, 0x4, 0⟩
  | .strm => ⟨.mill, 0xf0000, 512, 0x20, 1, 0x0, 0⟩
  | .tim => ⟨.mill, 0xb0000, 1, 0x0, 1, 0x0, 0⟩
  | .pps => ⟨.mill, 0xb0040, 4, 0x8, 1, 0x0, 0⟩
  | .clk => ⟨.mill, 0xb0080, 4, 0x8, 1, 0x0, 0⟩
  | .cand => ⟨.mill, 0xb0100, 14, 0x10, 1, 0x0, 0⟩
  | .csel => ⟨.mill, 0xb00c0, 4, 0x4, 1, 0x0, 0⟩
  | .host => ⟨.pkg, 0x1000, 1, 0x0, 1, 0x0, 0⟩
  | .vf => ⟨.vf, 0x20000, 65, 0x0, 1, 0x0, 0⟩
  | .pwr => ⟨.pkg, 0x2000, 1, 0x0, 1, 0x0, 0⟩
  | .car => ⟨.pkg, 0x2100, 4, 0x20, 1, 0x0, 0⟩
  | .pmill => ⟨.pkg, 0x2180, 2, 0x10, 1, 0x0, 0⟩
  | .pdie => ⟨.pkg, 0x2200, 8, 0x10, 1, 0x0, 0⟩
  | .lamp => ⟨.pkg, 0x2400, 64, 0x10, 1, 0x0, 0⟩
  | .mem => ⟨.any, 0xc000, 1, 0x0, 1, 0x0, 0⟩
  | .ce => ⟨.any, 0xc100, 16, 0x20, 1, 0x0, 0⟩
  | .mem2 => ⟨.any, 0xc480, 32, 0x4, 1, 0x0, 0⟩
  | .rep => ⟨.any, 0xc300, 32, 0x8, 1, 0x0, 0⟩
  | .lespare => ⟨.faceMill, 0xc400, 6, 0x4, 1, 0x0, 0⟩
  | .queue => ⟨.any, 0xd400, 32, 0x4, 1, 0x0, 0⟩
  | .aux => ⟨.faceMill, 0xd100, 1, 0x0, 1, 0x0, 0⟩
  | .thr => ⟨.any, 0xd000, 16, 0x4, 1, 0x0, 0⟩
  | .tag => ⟨.mill, 0xd200, 1, 0x0, 1, 0x0, 0⟩
  | .mon => ⟨.pkg, 0x3000, 4, 0x40, 1, 0x0, 0⟩
  | .assay => ⟨.pkg, 0x3400, 16, 0x4, 1, 0x0, 0⟩
  | .assay2 => ⟨.pkg, 0x3440, 1, 0x0, 1, 0x0, 0⟩
  | .assay3 => ⟨.pkg, 0x3480, 16, 0x8, 1, 0x0, 0⟩
  | .chip => ⟨.pkg, 0x0, 1, 0x0, 1, 0x0, 0⟩
  | .fw => ⟨.faceMill, 0xe000, 6, 0x4, 1, 0x0, 0⟩
  | .bin => ⟨.bin, 0x10000, 1, 0x0, 1, 0x0, 0⟩
  | .internal => ⟨.internal, 0, 0, 0, 0, 0, 0⟩

/-- Rows 0 to 31 of the field table, in the order of `Fld`'s constructors. -/
def fldRows0 : List FldRow := [
  ⟨.winz, 0x0, 0, 1, .ro, 0x0, .pkg⟩ /- winzLinkUp -/,
  ⟨.winz, 0x0, 1, 1, .ro, 0x0, .pkg⟩ /- winzDegraded -/,
  ⟨.winz, 0x0, 2, 1, .ro, 0x0, .pkg⟩ /- winzSpareExhausted -/,
  ⟨.winz, 0x0, 4, 4, .ro, 0x0, .pkg⟩ /- winzPeerIncarnation -/,
  ⟨.winz, 0x0, 8, 4, .ro, 0x0, .pkg⟩ /- winzLocalIncarnation -/,
  ⟨.winz, 0x4, 0, 16, .ro, 0x0, .pkg⟩ /- winzCreditsAvail -/,
  ⟨.winz, 0x4, 16, 16, .ro, 0x0, .pkg⟩ /- winzCreditsMax -/,
  ⟨.winz, 0x8, 0, 32, .ro, 0x0, .pkg⟩ /- winzCrcErrors -/,
  ⟨.winz, 0xc, 0, 32, .ro, 0x0, .pkg⟩ /- winzAbortedRequests -/,
  ⟨.winz, 0x10, 0, 32, .ro, 0x0, .pkg⟩ /- winzStaleReplies -/,
  ⟨.winz, 0x14, 0, 32, .ro, 0x0, .pkg⟩ /- winzTxUnderrun -/,
  ⟨.winz, 0x18, 0, 1, .wo, 0x0, .pkg⟩ /- winzClearAll -/,
  ⟨.tally, 0x0, 0, 20, .ro, 0x0, .pkg⟩ /- tallySnapOff -/,
  ⟨.tally, 0x4, 0, 32, .ro, 0x0, .pkg⟩ /- tallySnapSfLo -/,
  ⟨.tally, 0x8, 0, 16, .ro, 0x0, .pkg⟩ /- tallySnapSfHi -/,
  ⟨.tally, 0x20, 0, 32, .ro, 0x0, .pkg⟩ /- tallyWakeAdvanceLo -/,
  ⟨.tally, 0x24, 0, 16, .ro, 0x0, .pkg⟩ /- tallyWakeErrSf -/,
  ⟨.tally, 0x24, 16, 1, .w1c, 0x0, .pkg⟩ /- tallySurfClkLost -/,
  ⟨.tally, 0x24, 17, 1, .ro, 0x0, .pkg⟩ /- tallyOriginLost -/,
  ⟨.tally, 0x24, 18, 10, .lk, 0x64, .pkg⟩ /- tallySurfPpm -/,
  ⟨.tally, 0x28, 0, 32, .wo, 0x0, .pkg⟩ /- tallySetSfLo -/,
  ⟨.tally, 0x2c, 0, 16, .wo, 0x0, .pkg⟩ /- tallySetSfHi -/,
  ⟨.tally, 0x30, 0, 16, .ro, 0x0, .pkg⟩ /- tallyWakeAdvanceHi -/,
  ⟨.shift, 0x0, 0, 8, .ro, 0x0, .pkg⟩ /- shiftLastStatus -/,
  ⟨.shift, 0x0, 8, 1, .ro, 0x0, .pkg⟩ /- shiftPending -/,
  ⟨.shift, 0x4, 0, 32, .ro, 0x0, .pkg⟩ /- shiftSeq -/,
  ⟨.acc, 0x0, 0, 16, .ro, 0x0, .pkg⟩ /- accPartialWrites -/,
  ⟨.acc, 0x0, 16, 16, .ro, 0x0, .pkg⟩ /- accDeadAccesses -/,
  ⟨.acc, 0x4, 0, 1, .wo, 0x0, .pkg⟩ /- accClearAll -/,
  ⟨.view, 0x0, 0, 1, .rw, 0x0, .pkg⟩ /- viewViewOffshift -/,
  ⟨.view, 0x0, 1, 1, .ro, 0x0, .pkg⟩ /- viewFrozen -/,
  ⟨.view, 0x0, 2, 1, .ro, 0x0, .pkg⟩ /- viewStale -/]

/-- Rows 32 to 63 of the field table, in the order of `Fld`'s constructors. -/
def fldRows1 : List FldRow := [
  ⟨.view, 0x0, 8, 9, .ro, 0x0, .pkg⟩ /- viewHeldWrites -/,
  ⟨.dom, 0x0, 0, 3, .ro, 0x0, .pkg⟩ /- domState -/,
  ⟨.dom, 0x0, 3, 1, .ro, 0x0, .pkg⟩ /- domBusy -/,
  ⟨.far, 0x0, 0, 1, .ro, 0x0, .pkg⟩ /- farValid -/,
  ⟨.far, 0x0, 1, 1, .w1c, 0x0, .pkg⟩ /- farRxSwapPredicted -/,
  ⟨.far, 0x0, 2, 1, .w1c, 0x0, .pkg⟩ /- farRxSwapJumped -/,
  ⟨.far, 0x4, 0, 32, .ro, 0x0, .pkg⟩ /- farSfLo -/,
  ⟨.far, 0x8, 0, 16, .ro, 0x0, .pkg⟩ /- farSfHi -/,
  ⟨.far, 0xc, 0, 32, .ro, 0x0, .pkg⟩ /- farArrSfLo -/,
  ⟨.far, 0x10, 0, 16, .ro, 0x0, .pkg⟩ /- farArrSfHi -/,
  ⟨.far, 0x14, 0, 20, .ro, 0x0, .pkg⟩ /- farArrOffset -/,
  ⟨.adc, 0x0, 0, 1, .rw, 0x0, .pkg⟩ /- adcCalFreeze -/,
  ⟨.adc, 0x0, 1, 1, .rw, 0x1, .pkg⟩ /- adcTiaReqEn -/,
  ⟨.adc, 0x0, 2, 1, .rw, 0x0, .pkg⟩ /- adcTiaUpEn -/,
  ⟨.adc, 0x0, 8, 8, .rw, 0x8, .pkg⟩ /- adcCalSkipLimit -/,
  ⟨.adc, 0x0, 16, 16, .rw, 0x10, .pkg⟩ /- adcOvrThresh -/,
  ⟨.adc, 0x4, 0, 8, .rw, 0x40, .pkg⟩ /- adcTiaHoldoff -/,
  ⟨.adc, 0x4, 8, 7, .rw, 0x40, .pkg⟩ /- adcTiaUpLevel -/,
  ⟨.adc, 0x4, 16, 16, .rw, 0x100, .pkg⟩ /- adcTiaUpSf -/,
  ⟨.adc2, 0x0, 0, 1, .w1c, 0x0, .pkg⟩ /- adcOvrSticky -/,
  ⟨.adc2, 0x0, 1, 1, .ro, 0x0, .pkg⟩ /- adcCalHalted -/,
  ⟨.adc2, 0x0, 2, 1, .w1c, 0x0, .pkg⟩ /- adcCalStarved -/,
  ⟨.adc2, 0x0, 3, 1, .ro, 0x0, .pkg⟩ /- adcSpareRetired -/,
  ⟨.adc2, 0x0, 4, 1, .w1c, 0x0, .pkg⟩ /- adcTiaAtMin -/,
  ⟨.adc2, 0x0, 8, 7, .ro, 0x0, .pkg⟩ /- adcCalUnit -/,
  ⟨.adc2, 0x0, 16, 16, .ro, 0x0, .pkg⟩ /- adcOvrSfCount -/,
  ⟨.adc2, 0x4, 0, 32, .ro, 0x0, .pkg⟩ /- adcOvrSfTotal -/,
  ⟨.adc2, 0x8, 0, 16, .ro, 0x0, .pkg⟩ /- adcCalDiscards -/,
  ⟨.adc2, 0x8, 16, 16, .ro, 0x0, .pkg⟩ /- adcCalRotations -/,
  ⟨.adc2, 0xc, 0, 16, .ro, 0x0, .pkg⟩ /- adcTiaRequests -/,
  ⟨.adc2, 0xc, 16, 8, .ro, 0x0, .pkg⟩ /- adcTiaGainShadow -/,
  ⟨.lanecorr, 0x0, 0, 12, .sh, 0x0, .rx⟩ /- lanecorrDelay -/]

/-- Rows 64 to 95 of the field table, in the order of `Fld`'s constructors. -/
def fldRows2 : List FldRow := [
  ⟨.lanecorr, 0x0, 12, 12, .sh, 0x400, .rx⟩ /- lanecorrGain -/,
  ⟨.dac, 0x0, 0, 1, .sh, 0x0, .pkg⟩ /- dacTxEnable -/,
  ⟨.dac, 0x0, 1, 3, .sh, 0x4, .pkg⟩ /- dacSwing -/,
  ⟨.dac, 0x0, 4, 1, .rw, 0x1, .pkg⟩ /- dacOeTxdisForce -/,
  ⟨.dac, 0x0, 5, 1, .rw, 0x1, .pkg⟩ /- dacFaultAutodis -/,
  ⟨.dac2, 0x0, 0, 12, .sh, 0x0, .pkg⟩ /- dacTxDelay -/,
  ⟨.dac2, 0x4, 0, 10, .sh, 0x0, .pkg⟩ /- dacPre2 -/,
  ⟨.dac2, 0x4, 10, 10, .sh, 0x0, .pkg⟩ /- dacPre1 -/,
  ⟨.dac2, 0x4, 20, 10, .sh, 0x100, .pkg⟩ /- dacMain -/,
  ⟨.dac2, 0x8, 0, 10, .sh, 0x0, .pkg⟩ /- dacPost1 -/,
  ⟨.dac2, 0x8, 10, 10, .sh, 0x0, .pkg⟩ /- dacPost2 -/,
  ⟨.dac2, 0xc, 0, 16, .ro, 0x0, .pkg⟩ /- dacClipSf -/,
  ⟨.site, 0x0, 0, 1, .ro, 0x0, .pkg⟩ /- sitePresent -/,
  ⟨.site, 0x0, 1, 1, .ro, 0x0, .pkg⟩ /- siteFault -/,
  ⟨.site, 0x0, 2, 1, .w1c, 0x0, .pkg⟩ /- siteFaultSticky -/,
  ⟨.site, 0x0, 3, 1, .ro, 0x1, .pkg⟩ /- siteTxdisState -/,
  ⟨.site, 0x0, 4, 1, .w1c, 0x0, .pkg⟩ /- sitePresentChanged -/,
  ⟨.site, 0x0, 5, 3, .ro, 0x3, .pkg⟩ /- siteTxdisCause -/,
  ⟨.site, 0x0, 8, 1, .w1c, 0x0, .pkg⟩ /- sitePtrimRail -/,
  ⟨.spi, 0x0, 0, 6, .rw, 0x1, .pkg⟩ /- spiSclkDiv -/,
  ⟨.spi, 0x0, 8, 8, .rw, 0x2, .pkg⟩ /- spiCmdWr -/,
  ⟨.spi, 0x0, 16, 8, .rw, 0x3, .pkg⟩ /- spiCmdRd -/,
  ⟨.tia, 0x0, 0, 8, .rw, 0x0, .pkg⟩ /- tiaAddrBase -/,
  ⟨.tia, 0x0, 8, 8, .rw, 0x0, .pkg⟩ /- tiaMin -/,
  ⟨.tia, 0x0, 16, 8, .rw, 0xff, .pkg⟩ /- tiaMax -/,
  ⟨.tia, 0x0, 24, 4, .rw, 0x1, .pkg⟩ /- tiaStep -/,
  ⟨.ptrim, 0x0, 0, 1, .rw, 0x0, .pkg⟩ /- ptrimEn -/,
  ⟨.ptrim, 0x0, 1, 3, .rw, 0x2, .pkg⟩ /- ptrimDead -/,
  ⟨.ptrim, 0x0, 4, 12, .rw, 0x0, .pkg⟩ /- ptrimTarget -/,
  ⟨.ptrim, 0x0, 16, 8, .rw, 0x0, .pkg⟩ /- ptrimAddr -/,
  ⟨.ptrim, 0x0, 24, 8, .ro, 0x0, .pkg⟩ /- ptrimShadow -/,
  ⟨.bias, 0x0, 0, 12, .rw, 0x0, .pkg⟩ /- biasCode -/]

/-- Rows 96 to 127 of the field table, in the order of `Fld`'s constructors. -/
def fldRows3 : List FldRow := [
  ⟨.bias, 0x0, 16, 1, .w1c, 0x0, .pkg⟩ /- biasRail -/,
  ⟨.loop, 0x0, 0, 2, .rw, 0x0, .pkg⟩ /- loopMode -/,
  ⟨.loop, 0x0, 2, 1, .rw, 0x1, .pkg⟩ /- loopPushpull -/,
  ⟨.loop, 0x0, 3, 1, .rw, 0x0, .pkg⟩ /- loopQuadPol -/,
  ⟨.loop, 0x0, 4, 6, .rw, 0x8, .pkg⟩ /- loopDitherAmp -/,
  ⟨.loop, 0x0, 10, 8, .rw, 0x10, .pkg⟩ /- loopChipSf -/,
  ⟨.loop, 0x0, 18, 4, .rw, 0x8, .pkg⟩ /- loopSamplesPerChip -/,
  ⟨.loop, 0x0, 22, 8, .rw, 0x10, .pkg⟩ /- loopAvgPeriods -/,
  ⟨.loop, 0x4, 0, 8, .rw, 0x20, .pkg⟩ /- loopGainIq -/,
  ⟨.loop, 0x4, 8, 8, .rw, 0x10, .pkg⟩ /- loopGainP -/,
  ⟨.loop, 0x4, 16, 8, .rw, 0x4, .pkg⟩ /- loopLockThresh -/,
  ⟨.loop, 0x8, 0, 2, .ro, 0x0, .pkg⟩ /- loopState -/,
  ⟨.loop, 0x8, 16, 16, .ro, 0x0, .pkg⟩ /- loopBiasDiscard -/,
  ⟨.rx, 0x0, 0, 1, .sh, 0x0, .rx⟩ /- rxEnable -/,
  ⟨.rx, 0x0, 1, 3, .sh, 0x0, .rx⟩ /- rxSubcarriers -/,
  ⟨.rx, 0x0, 4, 1, .sh, 0x1, .rx⟩ /- rxEqMode -/,
  ⟨.rx, 0x0, 5, 7, .sh, 0x5, .rx⟩ /- rxRolloff -/,
  ⟨.rx, 0xc, 0, 21, .sh, 0x1d8698, .rx⟩ /- rxCarrierFreq -/,
  ⟨.cdc, 0x0, 0, 16, .sh, 0x0, .rx⟩ /- cdcCdSet -/,
  ⟨.cdc, 0x0, 16, 2, .sh, 0x0, .rx⟩ /- cdcCdMode -/,
  ⟨.cdc, 0x0, 18, 8, .sh, 0x10, .rx⟩ /- cdcCdSpan -/,
  ⟨.cdc, 0x0, 26, 3, .sh, 0x0, .rx⟩ /- cdcFft -/,
  ⟨.cdc, 0x4, 0, 16, .ro, 0x0, .pkg⟩ /- cdcCdEst -/,
  ⟨.cdc, 0x4, 16, 3, .ro, 0x0, .pkg⟩ /- cdcFftActive -/,
  ⟨.nlc, 0x0, 0, 8, .sh, 0x0, .rx⟩ /- nlcSpanCount -/,
  ⟨.nlc, 0x0, 8, 10, .sh, 0x140, .rx⟩ /- nlcSpanLen -/,
  ⟨.nlc, 0x0, 18, 8, .sh, 0xaf, .rx⟩ /- nlcAtten -/,
  ⟨.nlc, 0x0, 26, 1, .sh, 0x1, .rx⟩ /- nlcXiAuto -/,
  ⟨.nlc, 0x4, 0, 10, .sh, 0x82, .rx⟩ /- nlcGamma -/,
  ⟨.nlc, 0x4, 10, 10, .sh, 0x0, .rx⟩ /- nlcLaunchPwr -/,
  ⟨.nlc, 0x4, 20, 6, .sh, 0x18, .rx⟩ /- nlcXi -/,
  ⟨.nlc, 0x4, 26, 6, .sh, 0x10, .rx⟩ /- nlcFilt -/]

/-- Rows 128 to 159 of the field table, in the order of `Fld`'s constructors. -/
def fldRows4 : List FldRow := [
  ⟨.nlc, 0x8, 0, 6, .ro, 0x0, .pkg⟩ /- nlcStepsGranted -/,
  ⟨.nlc, 0x8, 6, 6, .ro, 0x0, .pkg⟩ /- nlcStepsActive -/,
  ⟨.nlc, 0x8, 12, 1, .ro, 0x0, .pkg⟩ /- nlcActive -/,
  ⟨.nlc, 0x8, 13, 6, .ro, 0x0, .pkg⟩ /- nlcXiCurrent -/,
  ⟨.eq, 0x0, 0, 3, .sh, 0x3, .rx⟩ /- eqTaps -/,
  ⟨.eq, 0x0, 3, 3, .sh, 0x4, .rx⟩ /- eqMu -/,
  ⟨.eq, 0x0, 6, 1, .rw, 0x0, .pkg⟩ /- eqFreeze -/,
  ⟨.cr, 0x0, 0, 6, .sh, 0xf, .rx⟩ /- crPilotWin -/,
  ⟨.cr, 0x0, 6, 6, .sh, 0x10, .rx⟩ /- crDdWin -/,
  ⟨.cr, 0x0, 12, 1, .sh, 0x1, .rx⟩ /- crSlipDetEn -/,
  ⟨.cr, 0x0, 13, 13, .sh, 0x0, .rx⟩ /- crFreqHint -/,
  ⟨.cr, 0x0, 26, 1, .sh, 0x0, .rx⟩ /- crFreqHintEn -/,
  ⟨.cr, 0x4, 0, 7, .sh, 0x30, .rx⟩ /- crLlrStep -/,
  ⟨.cr, 0x8, 0, 16, .ro, 0x0, .pkg⟩ /- crFreqOffset -/,
  ⟨.acq, 0x0, 0, 1, .wo, 0x0, .pkg⟩ /- acqRestart -/,
  ⟨.acq, 0x0, 8, 8, .rw, 0x10, .pkg⟩ /- acqLosThresh -/,
  ⟨.acq, 0x0, 16, 8, .rw, 0x10, .pkg⟩ /- acqWarmWindow -/,
  ⟨.acq, 0x4, 0, 4, .ro, 0x0, .pkg⟩ /- acqState -/,
  ⟨.acq, 0x4, 4, 1, .ro, 0x0, .pkg⟩ /- acqLos -/,
  ⟨.acq, 0x4, 5, 1, .w1c, 0x0, .pkg⟩ /- acqLockLost -/,
  ⟨.acq, 0x4, 8, 4, .ro, 0x0, .pkg⟩ /- acqLastFailState -/,
  ⟨.acq, 0x4, 16, 16, .ro, 0x0, .pkg⟩ /- acqFailures -/,
  ⟨.slip, 0x0, 0, 16, .ro, 0x0, .pkg⟩ /- slipSlipsX -/,
  ⟨.slip, 0x0, 16, 16, .ro, 0x0, .pkg⟩ /- slipSlipsY -/,
  ⟨.slip, 0x4, 0, 32, .ro, 0x0, .pkg⟩ /- slipPilotOutliers -/,
  ⟨.slip2, 0x0, 0, 32, .ro, 0x0, .pkg⟩ /- slipCorrQueue -/,
  ⟨.slip2, 0x4, 0, 32, .ro, 0x0, .pkg⟩ /- slipRedecoded -/,
  ⟨.slip2, 0x8, 0, 32, .ro, 0x0, .pkg⟩ /- slipLate -/,
  ⟨.slip2, 0xc, 0, 1, .wo, 0x0, .pkg⟩ /- slipClearAll -/,
  ⟨.tx, 0x0, 0, 3, .sh, 0x0, .pkg⟩ /- txSubcarriers -/,
  ⟨.tx, 0x0, 3, 7, .sh, 0x5, .pkg⟩ /- txRolloff -/,
  ⟨.tx, 0x0, 10, 2, .sh, 0x1, .pkg⟩ /- txPilotAmp -/]

/-- Rows 160 to 191 of the field table, in the order of `Fld`'s constructors. -/
def fldRows5 : List FldRow := [
  ⟨.tx, 0x0, 12, 8, .sh, 0x30, .pkg⟩ /- txRms -/,
  ⟨.ltx, 0x0, 0, 11, .sh, 0x329, .pkg⟩ /- ltxEntH -/,
  ⟨.ltx, 0x0, 12, 2, .sh, 0x0, .pkg⟩ /- ltxClass -/,
  ⟨.ltx, 0x0, 14, 2, .sh, 0x2, .pkg⟩ /- ltxCode -/,
  ⟨.ltx, 0x0, 16, 9, .sh, 0xf0, .pkg⟩ /- ltxM -/,
  ⟨.ltx, 0x0, 25, 1, .sh, 0x1, .pkg⟩ /- ltxAutoH -/,
  ⟨.ltx, 0x4, 0, 11, .ro, 0x329, .pkg⟩ /- ltxHActive -/,
  ⟨.ltx, 0x4, 11, 1, .ro, 0x0, .pkg⟩ /- ltxAnnouncing -/,
  ⟨.ltx, 0x4, 12, 1, .w1c, 0x0, .pkg⟩ /- ltxRetuneCancelled -/,
  ⟨.ltx, 0x8, 0, 18, .ro, 0x0, .pkg⟩ /- ltxFill -/,
  ⟨.lrx, 0x0, 0, 11, .sh, 0x329, .rx⟩ /- lrxEntH -/,
  ⟨.lrx, 0x0, 12, 2, .sh, 0x0, .rx⟩ /- lrxClass -/,
  ⟨.lrx, 0x0, 14, 2, .sh, 0x2, .rx⟩ /- lrxCode -/,
  ⟨.lrx, 0x0, 16, 9, .sh, 0xf0, .rx⟩ /- lrxM -/,
  ⟨.lrx, 0x0, 25, 1, .sh, 0x1, .rx⟩ /- lrxAutoH -/,
  ⟨.lrx, 0x4, 0, 11, .ro, 0x0, .pkg⟩ /- lrxAnnH -/,
  ⟨.lrx, 0x4, 12, 2, .ro, 0x0, .pkg⟩ /- lrxAnnClass -/,
  ⟨.lrx, 0x4, 14, 2, .ro, 0x0, .pkg⟩ /- lrxAnnCode -/,
  ⟨.lrx, 0x4, 16, 9, .ro, 0x0, .pkg⟩ /- lrxAnnM -/,
  ⟨.lrx, 0x4, 25, 1, .ro, 0x0, .pkg⟩ /- lrxAnnStaged -/,
  ⟨.lrx, 0x4, 26, 1, .w1c, 0x0, .pkg⟩ /- lrxRetuneMissed -/,
  ⟨.lrx, 0x4, 27, 1, .w1c, 0x0, .pkg⟩ /- lrxAnnCancelSeen -/,
  ⟨.lrx, 0x8, 0, 32, .ro, 0x0, .pkg⟩ /- lrxAnnTargetLo -/,
  ⟨.lrx, 0xc, 0, 16, .ro, 0x0, .pkg⟩ /- lrxAnnTargetHi -/,
  ⟨.lrx, 0x10, 0, 16, .ro, 0x0, .pkg⟩ /- lrxRetunesDone -/,
  ⟨.lrx, 0x10, 16, 16, .ro, 0x0, .pkg⟩ /- lrxRetunesMissed -/,
  ⟨.lrx, 0x14, 0, 32, .ro, 0x0, .pkg⟩ /- lrxDmMismatch -/,
  ⟨.pool, 0x0, 0, 7, .rw, 0x40, .pkg⟩ /- poolHighMark -/,
  ⟨.pool, 0x0, 8, 7, .rw, 0x30, .pkg⟩ /- poolLowMark -/,
  ⟨.pool, 0x0, 16, 4, .rw, 0x8, .pkg⟩ /- poolShedStep -/,
  ⟨.pool, 0x0, 20, 4, .rw, 0x1, .pkg⟩ /- poolShedMinIter -/,
  ⟨.pool, 0x0, 24, 6, .rw, 0x18, .pkg⟩ /- poolIterMaxOt -/]

/-- Rows 192 to 223 of the field table, in the order of `Fld`'s constructors. -/
def fldRows6 : List FldRow := [
  ⟨.pool, 0x0, 30, 1, .rw, 0x1, .pkg⟩ /- poolOtEnable -/,
  ⟨.pool, 0x4, 0, 4, .rw, 0x2, .pkg⟩ /- poolEtMin -/,
  ⟨.pool, 0x4, 8, 1, .rw, 0x1, .pkg⟩ /- poolKatEn -/,
  ⟨.pool, 0x4, 16, 8, .rw, 0x10, .pkg⟩ /- poolKatPeriod -/,
  ⟨.pool2, 0x0, 0, 7, .ro, 0x0, .pkg⟩ /- poolEnginesInService -/,
  ⟨.pool2, 0x0, 7, 1, .ro, 0x0, .pkg⟩ /- poolShedding -/,
  ⟨.pool2, 0x0, 8, 4, .ro, 0x0, .pkg⟩ /- poolDomainsRun -/,
  ⟨.pool2, 0x4, 0, 16, .ro, 0x0, .pkg⟩ /- poolOtTokens -/,
  ⟨.pool2, 0x4, 16, 16, .ro, 0x0, .pkg⟩ /- poolOtGrant -/,
  ⟨.eng, 0x0, 0, 17, .ro, 0x0, .pkg⟩ /- engRetired -/,
  ⟨.eng, 0x0, 17, 1, .ro, 0x0, .pkg⟩ /- engSpareInUse -/,
  ⟨.eng, 0x0, 18, 1, .w1c, 0x0, .pkg⟩ /- engSpareExhausted -/,
  ⟨.selfchk, 0x0, 0, 16, .ro, 0x0, .pkg⟩ /- selfchkFail -/,
  ⟨.selfchk, 0x0, 16, 16, .ro, 0x0, .pkg⟩ /- selfchkKatSkipped -/,
  ⟨.dec, 0x0, 0, 6, .ro, 0x8, .pkg⟩ /- decCapGrant -/,
  ⟨.dec, 0x0, 6, 6, .ro, 0x8, .pkg⟩ /- decCapEffective -/,
  ⟨.dec, 0x0, 12, 7, .ro, 0x0, .pkg⟩ /- decUnfinished -/,
  ⟨.dec, 0x0, 19, 7, .ro, 0x0, .pkg⟩ /- decUnfinishedHwm -/,
  ⟨.dec, 0x4, 0, 1, .ro, 0x0, .pkg⟩ /- decChainRunning -/,
  ⟨.dec, 0x4, 1, 1, .ro, 0x0, .pkg⟩ /- decPhaseKnown -/,
  ⟨.dec, 0x4, 2, 5, .ro, 0x0, .pkg⟩ /- decPhase -/,
  ⟨.dec, 0x4, 7, 1, .w1c, 0x0, .pkg⟩ /- decPhaseConflict -/,
  ⟨.dec, 0x4, 16, 16, .ro, 0x0, .pkg⟩ /- decChainRestarts -/,
  ⟨.dec, 0x8, 0, 32, .ro, 0x0, .pkg⟩ /- decReleased -/,
  ⟨.dec, 0xc, 0, 32, .ro, 0x0, .pkg⟩ /- decIterSum -/,
  ⟨.dec, 0x10, 0, 32, .ro, 0x0, .pkg⟩ /- decOtIterations -/,
  ⟨.dec, 0x14, 0, 32, .ro, 0x0, .pkg⟩ /- decCapped -/,
  ⟨.dec, 0x18, 0, 32, .ro, 0x0, .pkg⟩ /- decShedBlocks -/,
  ⟨.dec, 0x1c, 0, 32, .ro, 0x0, .pkg⟩ /- decOuterCorr -/,
  ⟨.dec, 0x20, 0, 32, .ro, 0x0, .pkg⟩ /- decOuterUncorr -/,
  ⟨.dec, 0x24, 0, 1, .wo, 0x0, .pkg⟩ /- decClearAll -/,
  ⟨.frm, 0x0, 0, 2, .ro, 0x0, .pkg⟩ /- frmState -/]

/-- Rows 224 to 255 of the field table, in the order of `Fld`'s constructors. -/
def fldRows7 : List FldRow := [
  ⟨.frm, 0x0, 2, 1, .ro, 0x0, .pkg⟩ /- frmShapeLocked -/,
  ⟨.frm, 0x0, 3, 6, .ro, 0x0, .pkg⟩ /- frmShapePhase -/,
  ⟨.frm, 0x0, 9, 1, .w1c, 0x0, .pkg⟩ /- frmLofSticky -/,
  ⟨.frm, 0x0, 10, 1, .w1c, 0x0, .pkg⟩ /- frmDescMismatch -/,
  ⟨.frm, 0x0, 11, 1, .w1c, 0x0, .pkg⟩ /- frmMsgOverflow -/,
  ⟨.frm, 0x4, 0, 18, .ro, 0x0, .pkg⟩ /- frmSyncOffset -/,
  ⟨.frm, 0x8, 0, 16, .ro, 0x0, .pkg⟩ /- frmLofCount -/,
  ⟨.frm, 0x8, 16, 16, .ro, 0x0, .pkg⟩ /- frmFalseSync -/,
  ⟨.frm, 0xc, 0, 32, .ro, 0x0, .pkg⟩ /- frmOhCrcErrors -/,
  ⟨.frm, 0x10, 0, 8, .ro, 0x0, .pkg⟩ /- frmGroupIdSeen -/,
  ⟨.frm, 0x10, 8, 2, .ro, 0x0, .pkg⟩ /- frmMemberIdxSeen -/,
  ⟨.frm, 0x10, 10, 2, .ro, 0x0, .pkg⟩ /- frmMemberCntSeen -/,
  ⟨.frm, 0x14, 0, 8, .ro, 0x0, .pkg⟩ /- frmMsgRxData -/,
  ⟨.frm, 0x14, 8, 1, .ro, 0x0, .pkg⟩ /- frmMsgAvail -/,
  ⟨.frm, 0x18, 0, 8, .wo, 0x0, .pkg⟩ /- frmMsgTxData -/,
  ⟨.frm, 0x1c, 0, 7, .ro, 0x0, .pkg⟩ /- frmTxLevel -/,
  ⟨.frm, 0x20, 0, 1, .wo, 0x0, .pkg⟩ /- frmClearAll -/,
  ⟨.lg, 0x0, 0, 4, .sh, 0x0, .pkg⟩ /- lgMembers -/,
  ⟨.lg, 0x0, 8, 8, .sh, 0x0, .pkg⟩ /- lgTxGroupId -/,
  ⟨.lg, 0x0, 16, 8, .sh, 0x0, .lg⟩ /- lgRxGroupId -/,
  ⟨.lg, 0x4, 0, 16, .sh, 0x0, .lg⟩ /- lgSkewMaxSf -/,
  ⟨.lg, 0x4, 16, 1, .wo, 0x0, .pkg⟩ /- lgRefRestart -/,
  ⟨.lg, 0x8, 0, 4, .ro, 0x0, .pkg⟩ /- lgInService -/,
  ⟨.lg, 0x8, 4, 4, .w1c, 0x0, .pkg⟩ /- lgSkewDefect -/,
  ⟨.lg, 0x8, 8, 2, .ro, 0x0, .pkg⟩ /- lgRefCarrier -/,
  ⟨.lg, 0x8, 10, 1, .ro, 0x0, .pkg⟩ /- lgRefValid -/,
  ⟨.lg, 0xc, 0, 16, .ro, 0x0, .pkg⟩ /- lgMemberExits -/,
  ⟨.lg, 0xc, 16, 16, .ro, 0x0, .pkg⟩ /- lgMemberReturns -/,
  ⟨.lg, 0x20, 0, 1, .sh, 0x0, .lg⟩ /- lgFailAll -/,
  ⟨.lg, 0x20, 1, 2, .sh, 0x0, .pkg⟩ /- lgLb -/,
  ⟨.lg, 0x20, 3, 1, .sh, 0x0, .pkg⟩ /- lgLbCont -/,
  ⟨.lg2, 0x0, 0, 24, .ro, 0x0, .pkg⟩ /- lgSigma -/]

/-- Rows 256 to 287 of the field table, in the order of `Fld`'s constructors. -/
def fldRows8 : List FldRow := [
  ⟨.lg2, 0x0, 24, 1, .ro, 0x0, .pkg⟩ /- lgSigmaValid -/,
  ⟨.odu, 0x0, 0, 4, .sh, 0x0, .pkg⟩ /- oduType -/,
  ⟨.odu, 0x0, 4, 1, .sh, 0x0, .pkg⟩ /- oduEnable -/,
  ⟨.odu, 0x0, 5, 2, .sh, 0x0, .pkg⟩ /- oduClientKind -/,
  ⟨.odu, 0x0, 7, 6, .sh, 0x0, .pkg⟩ /- oduClientPort -/,
  ⟨.odu, 0x0, 13, 10, .sh, 0x3ff, .pkg⟩ /- oduParentCtx -/,
  ⟨.odu, 0x0, 23, 1, .sh, 0x0, .pkg⟩ /- oduParentDie -/,
  ⟨.odu, 0x4, 0, 9, .sh, 0x0, .pkg⟩ /- oduTsCount -/,
  ⟨.odu, 0x4, 9, 19, .sh, 0x0, .pkg⟩ /- oduFlexRate -/,
  ⟨.odu, 0x4, 28, 3, .sh, 0x0, .pkg⟩ /- oduLb -/,
  ⟨.odu, 0x4, 31, 1, .sh, 0x0, .pkg⟩ /- oduLbCont -/,
  ⟨.odu, 0x8, 0, 32, .sh, 0x0, .pkg⟩ /- oduLoTs0 -/,
  ⟨.odu, 0xc, 0, 32, .sh, 0x0, .pkg⟩ /- oduLoTs1 -/,
  ⟨.odu, 0x10, 0, 16, .sh, 0x0, .pkg⟩ /- oduLoTs2 -/,
  ⟨.odu, 0x14, 0, 12, .sh, 0x0, .pkg⟩ /- oduTcmMode -/,
  ⟨.odu, 0x14, 12, 2, .rw, 0x0, .pkg⟩ /- oduTimMode -/,
  ⟨.odu, 0x14, 14, 1, .rw, 0x1, .pkg⟩ /- oduTimAct -/,
  ⟨.odu, 0x14, 16, 8, .rw, 0x0, .pkg⟩ /- oduApsMon -/,
  ⟨.odu, 0x18, 0, 1, .sh, 0x0, .pkg⟩ /- oduInsEn -/,
  ⟨.odu, 0x18, 1, 1, .rw, 0x0, .pkg⟩ /- oduExtEn -/,
  ⟨.odu, 0x18, 2, 4, .rw, 0x0, .pkg⟩ /- oduExtDiv -/,
  ⟨.odu, 0x18, 6, 4, .rw, 0x3, .pkg⟩ /- oduApsPersist -/,
  ⟨.odu, 0x18, 10, 2, .sh, 0x0, .pkg⟩ /- oduRepForce -/,
  ⟨.odu, 0x1c, 0, 32, .rw, 0x0, .pkg⟩ /- oduApsTxVal -/,
  ⟨.odu, 0x20, 0, 3, .wo, 0x0, .pkg⟩ /- oduApsTxLevel -/,
  ⟨.odu, 0x24, 0, 1, .ro, 0x0, .pkg⟩ /- oduSsf -/,
  ⟨.odu, 0x24, 1, 1, .ro, 0x0, .pkg⟩ /- oduDAis -/,
  ⟨.odu, 0x24, 2, 1, .ro, 0x0, .pkg⟩ /- oduDLck -/,
  ⟨.odu, 0x24, 3, 1, .ro, 0x0, .pkg⟩ /- oduDOci -/,
  ⟨.odu, 0x24, 4, 1, .ro, 0x0, .pkg⟩ /- oduDBdi -/,
  ⟨.odu, 0x24, 5, 1, .ro, 0x0, .pkg⟩ /- oduDTim -/,
  ⟨.odu, 0x24, 6, 1, .ro, 0x0, .pkg⟩ /- oduDPlm -/]

/-- Rows 288 to 319 of the field table, in the order of `Fld`'s constructors. -/
def fldRows9 : List FldRow := [
  ⟨.odu, 0x24, 7, 1, .ro, 0x0, .pkg⟩ /- oduDMsim -/,
  ⟨.odu, 0x24, 8, 1, .ro, 0x0, .pkg⟩ /- oduDCsf -/,
  ⟨.odu, 0x24, 9, 6, .ro, 0x0, .pkg⟩ /- oduTcmFail -/,
  ⟨.odu, 0x24, 15, 1, .w1c, 0x0, .pkg⟩ /- oduApsChanged -/,
  ⟨.odu, 0x24, 16, 1, .ro, 0x0, .pkg⟩ /- oduTxRepActive -/,
  ⟨.odu, 0x24, 17, 1, .ro, 0x0, .pkg⟩ /- oduRxRepActive -/,
  ⟨.odu, 0x28, 0, 16, .ro, 0x0, .pkg⟩ /- oduInsRepeat -/,
  ⟨.odu, 0x28, 16, 16, .ro, 0x0, .pkg⟩ /- oduExtDrop -/,
  ⟨.odu, 0x2c, 0, 32, .ro, 0x0, .pkg⟩ /- oduBipErrors -/,
  ⟨.odu, 0x30, 0, 32, .ro, 0x0, .pkg⟩ /- oduBeiErrors -/,
  ⟨.odu, 0x34, 0, 16, .ro, 0x0, .pkg⟩ /- oduImpOverflow -/,
  ⟨.odu, 0x34, 16, 16, .ro, 0x0, .pkg⟩ /- oduImpUnderflow -/,
  ⟨.odu, 0x38, 0, 1, .wo, 0x0, .pkg⟩ /- oduClearAll -/,
  ⟨.odu2, 0x0, 0, 32, .ro, 0x0, .pkg⟩ /- oduApsRx -/,
  ⟨.lmap, 0x0, 0, 10, .sh, 0x3ff, .pkg⟩ /- lmapCtx -/,
  ⟨.lmap, 0x0, 10, 1, .sh, 0x0, .pkg⟩ /- lmapDie -/,
  ⟨.fmap, 0x0, 0, 10, .sh, 0x3ff, .pkg⟩ /- fmapCtx -/,
  ⟨.fmap, 0x0, 10, 1, .sh, 0x0, .pkg⟩ /- fmapDie -/,
  ⟨.slice, 0x0, 0, 1, .ro, 0x0, .pkg⟩ /- sliceFail -/,
  ⟨.slice, 0x0, 1, 1, .ro, 0x0, .pkg⟩ /- sliceDBdi -/,
  ⟨.slice, 0x0, 2, 1, .ro, 0x0, .pkg⟩ /- sliceDTim -/,
  ⟨.slice, 0x0, 3, 1, .ro, 0x0, .pkg⟩ /- sliceBdiTx -/,
  ⟨.slice, 0x4, 0, 1, .sh, 0x0, .pkg⟩ /- sliceInsEn -/,
  ⟨.slice, 0x4, 1, 1, .rw, 0x0, .pkg⟩ /- sliceExtEn -/,
  ⟨.slice, 0x4, 2, 4, .rw, 0x0, .pkg⟩ /- sliceExtDiv -/,
  ⟨.slice, 0x4, 6, 2, .rw, 0x0, .pkg⟩ /- sliceTimMode -/,
  ⟨.slice, 0x4, 8, 1, .rw, 0x1, .pkg⟩ /- sliceTimAct -/,
  ⟨.slice, 0x8, 0, 32, .ro, 0x0, .pkg⟩ /- sliceBipErrors -/,
  ⟨.slice, 0xc, 0, 16, .ro, 0x0, .pkg⟩ /- sliceInsRepeat -/,
  ⟨.slice, 0xc, 16, 16, .ro, 0x0, .pkg⟩ /- sliceExtDrop -/,
  ⟨.tti, 0x0, 0, 32, .rw, 0x0, .pkg⟩ /- ttiOduTx -/,
  ⟨.tti, 0x40, 0, 32, .rw, 0x0, .pkg⟩ /- ttiOduExp -/]

/-- Rows 320 to 351 of the field table, in the order of `Fld`'s constructors. -/
def fldRows10 : List FldRow := [
  ⟨.tti, 0x80, 0, 32, .ro, 0x0, .pkg⟩ /- ttiOduAcc -/,
  ⟨.tti2, 0x0, 0, 32, .rw, 0x0, .pkg⟩ /- ttiSliceTx -/,
  ⟨.tti2, 0x40, 0, 32, .rw, 0x0, .pkg⟩ /- ttiSliceExp -/,
  ⟨.tti2, 0x80, 0, 32, .ro, 0x0, .pkg⟩ /- ttiSliceAcc -/,
  ⟨.lane, 0x0, 0, 2, .sh, 0x2, .pkg⟩ /- laneRate -/,
  ⟨.lane, 0x0, 2, 1, .sh, 0x0, .pkg⟩ /- laneTxPolInv -/,
  ⟨.lane, 0x0, 3, 1, .sh, 0x0, .pkg⟩ /- laneRxPolInv -/,
  ⟨.lane, 0x0, 4, 1, .sh, 0x1, .pkg⟩ /- laneTrainEn -/,
  ⟨.lane, 0x4, 0, 1, .ro, 0x0, .pkg⟩ /- laneCdrLock -/,
  ⟨.lane, 0x4, 1, 1, .ro, 0x0, .pkg⟩ /- laneBlockLock -/,
  ⟨.lane, 0x4, 2, 3, .ro, 0x0, .pkg⟩ /- laneTrainState -/,
  ⟨.lane, 0x4, 8, 8, .ro, 0x0, .pkg⟩ /- laneLockLosses -/,
  ⟨.lane, 0x4, 16, 16, .ro, 0x0, .pkg⟩ /- laneTrainFailures -/,
  ⟨.lane, 0x8, 0, 3, .rw, 0x5, .pkg⟩ /- laneGenPat -/,
  ⟨.lane, 0x8, 3, 1, .rw, 0x0, .pkg⟩ /- laneGenEn -/,
  ⟨.lane, 0x8, 4, 3, .rw, 0x5, .pkg⟩ /- laneChkPat -/,
  ⟨.lane, 0x8, 7, 1, .rw, 0x0, .pkg⟩ /- laneChkEn -/,
  ⟨.lane, 0x8, 8, 1, .rw, 0x0, .pkg⟩ /- laneInvert -/,
  ⟨.lane, 0x8, 9, 1, .wo, 0x0, .pkg⟩ /- laneInjSingle -/,
  ⟨.lane, 0x8, 10, 1, .wo, 0x0, .pkg⟩ /- laneInjBurst -/,
  ⟨.lane, 0x8, 11, 10, .rw, 0x1, .pkg⟩ /- laneBurstLen -/,
  ⟨.lane, 0x8, 21, 1, .ro, 0x0, .pkg⟩ /- laneInjBusy -/,
  ⟨.lane, 0xc, 0, 1, .ro, 0x0, .pkg⟩ /- laneChkLock -/,
  ⟨.lane, 0xc, 1, 1, .w1c, 0x0, .pkg⟩ /- laneChkLost -/,
  ⟨.lane, 0x10, 0, 32, .ro, 0x0, .pkg⟩ /- lanePrbsErrLo -/,
  ⟨.lane, 0x14, 0, 16, .ro, 0x0, .pkg⟩ /- lanePrbsErrHi -/,
  ⟨.lane, 0x18, 0, 32, .ro, 0x0, .pkg⟩ /- lanePrbsBitsLo -/,
  ⟨.lane, 0x1c, 0, 16, .ro, 0x0, .pkg⟩ /- lanePrbsBitsHi -/,
  ⟨.port, 0x0, 0, 2, .sh, 0x0, .pkg⟩ /- portMode -/,
  ⟨.port, 0x0, 2, 2, .sh, 0x0, .pkg⟩ /- portWidth -/,
  ⟨.port, 0x0, 4, 6, .ro, 0x0, .pkg⟩ /- portFlexoBase -/,
  ⟨.port, 0x0, 10, 1, .ro, 0x0, .pkg⟩ /- portSquelch -/]

/-- Rows 352 to 383 of the field table, in the order of `Fld`'s constructors. -/
def fldRows11 : List FldRow := [
  ⟨.port2, 0x0, 0, 1, .ro, 0x0, .pkg⟩ /- portAlignLock -/,
  ⟨.port2, 0x4, 0, 32, .ro, 0x0, .pkg⟩ /- portCwCorrected -/,
  ⟨.port2, 0x8, 0, 32, .ro, 0x0, .pkg⟩ /- portCwUncorrectable -/,
  ⟨.xc, 0x0, 0, 6, .ro, 0x0, .pkg⟩ /- xcQuads -/,
  ⟨.xc, 0x0, 6, 12, .sh, 0x0, .pkg⟩ /- xcPartnerId -/,
  ⟨.xc, 0x0, 18, 4, .rw, 0x8, .pkg⟩ /- xcLostUs -/,
  ⟨.xc, 0x4, 0, 1, .ro, 0x0, .pkg⟩ /- xcLinkUp -/,
  ⟨.xc, 0x4, 1, 1, .ro, 0x0, .pkg⟩ /- xcPartnerLost -/,
  ⟨.xc, 0x4, 2, 3, .ro, 0x0, .pkg⟩ /- xcPartnerTstate -/,
  ⟨.xc, 0x4, 5, 4, .ro, 0x0, .pkg⟩ /- xcPartnerQl -/,
  ⟨.xc, 0x4, 9, 12, .ro, 0x0, .pkg⟩ /- xcPartnerIdSeen -/,
  ⟨.xc, 0x8, 0, 32, .ro, 0x0, .pkg⟩ /- xcToffLo -/,
  ⟨.xc, 0xc, 0, 16, .ro, 0x0, .pkg⟩ /- xcToffHi -/,
  ⟨.xc, 0x10, 0, 16, .ro, 0x0, .pkg⟩ /- xcBadCtrl -/,
  ⟨.xc, 0x10, 16, 16, .ro, 0x0, .pkg⟩ /- xcLinkDowns -/,
  ⟨.pair, 0x0, 0, 9, .sh, 0x0, .pkg⟩ /- pairCtx -/,
  ⟨.pair, 0x0, 9, 1, .sh, 0x0, .pkg⟩ /- pairEn -/,
  ⟨.pair, 0x0, 10, 1, .sh, 0x0, .pkg⟩ /- pairRole -/,
  ⟨.pair, 0x0, 11, 1, .sh, 0x0, .pkg⟩ /- pairOnLoss -/,
  ⟨.pair, 0x0, 12, 2, .rw, 0x0, .pkg⟩ /- pairSelForce -/,
  ⟨.pair, 0x0, 14, 1, .rw, 0x0, .pkg⟩ /- pairApsEn -/,
  ⟨.pair, 0x0, 15, 3, .rw, 0x0, .pkg⟩ /- pairApsLevel -/,
  ⟨.pair, 0x4, 0, 1, .ro, 0x0, .pkg⟩ /- pairRoleActive -/,
  ⟨.pair, 0x4, 1, 1, .ro, 0x0, .pkg⟩ /- pairSelLeg -/,
  ⟨.pair, 0x4, 2, 1, .ro, 0x0, .pkg⟩ /- pairAgreed -/,
  ⟨.pair, 0x4, 3, 1, .w1c, 0x0, .pkg⟩ /- pairTookOver -/,
  ⟨.pair, 0x4, 4, 12, .ro, 0x0, .pkg⟩ /- pairSwitches -/,
  ⟨.pair, 0x4, 16, 16, .ro, 0x0, .pkg⟩ /- pairSwHit -/,
  ⟨.cry, 0x0, 0, 6, .lk, 0x28, .pkg⟩ /- cryKeyLimitLog2 -/,
  ⟨.cry, 0x4, 0, 5, .ro, 0x10, .pkg⟩ /- cryPipesInService -/,
  ⟨.cry, 0x4, 5, 1, .ro, 0x0, .pkg⟩ /- crySpareInUse -/,
  ⟨.cry, 0x4, 6, 1, .w1c, 0x0, .pkg⟩ /- crySpareExhausted -/]

/-- Rows 384 to 415 of the field table, in the order of `Fld`'s constructors. -/
def fldRows12 : List FldRow := [
  ⟨.cry, 0x4, 7, 1, .ro, 0x0, .pkg⟩ /- cryKekLoaded -/,
  ⟨.cry, 0x4, 8, 1, .ro, 0x0, .pkg⟩ /- cryKwBusy -/,
  ⟨.cry, 0x4, 9, 17, .ro, 0x0, .pkg⟩ /- cryPipeRetired -/,
  ⟨.cry, 0x8, 0, 16, .ro, 0x0, .pkg⟩ /- cryDupMismatch -/,
  ⟨.cry, 0x8, 16, 16, .ro, 0x0, .pkg⟩ /- cryKwMismatch -/,
  ⟨.page, 0x0, 0, 7, .ro, 0x0, .pkg⟩ /- pageFunc -/,
  ⟨.page, 0x0, 7, 1, .ro, 0x0, .pkg⟩ /- pageFuncValid -/,
  ⟨.page2, 0x4, 0, 1, .ro, 0x0, .pkg⟩ /- pageCompat -/,
  ⟨.page2, 0x4, 1, 1, .w1c, 0x0, .pkg⟩ /- pageKeyWarn -/,
  ⟨.page2, 0x4, 2, 1, .ro, 0x0, .pkg⟩ /- pageKeyStaged -/,
  ⟨.page2, 0x4, 3, 1, .w1c, 0x0, .pkg⟩ /- pageKeyMissed -/,
  ⟨.page2, 0x18, 0, 32, .ro, 0x0, .pkg⟩ /- pageTxFramesLo -/,
  ⟨.page2, 0x1c, 0, 9, .ro, 0x0, .pkg⟩ /- pageTxFramesHi -/,
  ⟨.page2, 0x20, 0, 32, .ro, 0x0, .pkg⟩ /- pageLaCtrLo -/,
  ⟨.page2, 0x24, 0, 32, .ro, 0x0, .pkg⟩ /- pageLaCtrHi -/,
  ⟨.page3, 0x0, 0, 1, .ro, 0x0, .pkg⟩ /- pageSlotLoaded -/,
  ⟨.page3, 0x0, 1, 1, .ro, 0x0, .pkg⟩ /- pageSlotKeyIdx -/,
  ⟨.strm, 0x0, 0, 1, .ro, 0x0, .pkg⟩ /- strmTargetKind -/,
  ⟨.strm, 0x0, 1, 9, .ro, 0x0, .pkg⟩ /- strmTarget -/,
  ⟨.strm, 0x0, 10, 8, .ro, 0x0, .pkg⟩ /- strmPage -/,
  ⟨.strm, 0x0, 18, 1, .ro, 0x0, .pkg⟩ /- strmTxEn -/,
  ⟨.strm, 0x0, 19, 1, .ro, 0x0, .pkg⟩ /- strmRxEn -/,
  ⟨.strm, 0x0, 20, 2, .ro, 0x0, .pkg⟩ /- strmRepSel -/,
  ⟨.strm, 0x4, 0, 20, .ro, 0x0, .pkg⟩ /- strmNum -/,
  ⟨.strm, 0x8, 0, 32, .ro, 0x0, .pkg⟩ /- strmFarId -/,
  ⟨.strm, 0xc, 0, 2, .ro, 0x0, .pkg⟩ /- strmTxState -/,
  ⟨.strm, 0xc, 2, 2, .ro, 0x0, .pkg⟩ /- strmRxState -/,
  ⟨.strm, 0xc, 4, 1, .ro, 0x0, .pkg⟩ /- strmSeqLock -/,
  ⟨.strm, 0xc, 5, 1, .w1c, 0x0, .pkg⟩ /- strmDUntrusted -/,
  ⟨.strm, 0x10, 0, 32, .ro, 0x0, .pkg⟩ /- strmTxSeqLo -/,
  ⟨.strm, 0x14, 0, 32, .ro, 0x0, .pkg⟩ /- strmTxSeqHi -/,
  ⟨.strm, 0x18, 0, 16, .ro, 0x0, .pkg⟩ /- strmAuthFail -/]

/-- Rows 416 to 447 of the field table, in the order of `Fld`'s constructors. -/
def fldRows13 : List FldRow := [
  ⟨.strm, 0x18, 16, 16, .ro, 0x0, .pkg⟩ /- strmKeyIdxMiss -/,
  ⟨.strm, 0x1c, 0, 16, .ro, 0x0, .pkg⟩ /- strmUntrusted -/,
  ⟨.strm, 0x1c, 16, 16, .ro, 0x0, .pkg⟩ /- strmSeqUnlocked -/,
  ⟨.tim, 0x0, 0, 2, .rw, 0x0, .pkg⟩ /- timMode -/,
  ⟨.tim, 0x0, 2, 4, .rw, 0x0, .pkg⟩ /- timForceCand -/,
  ⟨.tim, 0x0, 6, 1, .rw, 0x1, .pkg⟩ /- timRevertive -/,
  ⟨.tim, 0x0, 7, 1, .rw, 0x1, .pkg⟩ /- timQlEn -/,
  ⟨.tim, 0x0, 8, 1, .rw, 0x0, .pkg⟩ /- timQlOption -/,
  ⟨.tim, 0x0, 9, 3, .rw, 0x2, .pkg⟩ /- timDpllBw -/,
  ⟨.tim, 0x0, 12, 3, .rw, 0x6, .pkg⟩ /- timAcqBw -/,
  ⟨.tim, 0x0, 15, 10, .rw, 0x12c, .pkg⟩ /- timWtrS -/,
  ⟨.tim, 0x0, 25, 1, .rw, 0x0, .pkg⟩ /- timPpsSel -/,
  ⟨.tim, 0x4, 0, 10, .rw, 0x12c, .pkg⟩ /- timHoldoffMs -/,
  ⟨.tim, 0x4, 10, 4, .rw, 0xb, .pkg⟩ /- timHoldoverQl -/,
  ⟨.tim, 0x4, 14, 4, .rw, 0xb, .pkg⟩ /- timFreerunQl -/,
  ⟨.tim, 0x4, 18, 12, .rw, 0x64, .pkg⟩ /- timStepSlew -/,
  ⟨.tim, 0x8, 0, 10, .rw, 0xf0, .pkg⟩ /- timWarnThr -/,
  ⟨.tim, 0x8, 10, 10, .rw, 0x12c, .pkg⟩ /- timDisqThr -/,
  ⟨.tim, 0x8, 20, 10, .rw, 0xc8, .pkg⟩ /- timRequalThr -/,
  ⟨.tim, 0xc, 0, 3, .ro, 0x0, .pkg⟩ /- timTstate -/,
  ⟨.tim, 0xc, 3, 4, .ro, 0xf, .pkg⟩ /- timSelCand -/,
  ⟨.tim, 0xc, 7, 1, .ro, 0x0, .pkg⟩ /- timSwitching -/,
  ⟨.tim, 0xc, 8, 1, .ro, 0x0, .pkg⟩ /- timStepBusy -/,
  ⟨.tim, 0xc, 9, 1, .ro, 0x0, .pkg⟩ /- timXoLost -/,
  ⟨.tim, 0xc, 10, 5, .ro, 0x0, .pkg⟩ /- timHistS -/,
  ⟨.tim, 0xc, 15, 4, .ro, 0xb, .pkg⟩ /- timOutQl -/,
  ⟨.tim, 0xc, 19, 8, .rw, 0xa, .pkg⟩ /- timRequalS -/,
  ⟨.tim, 0xc, 27, 1, .ro, 0x0, .pkg⟩ /- timPps0Valid -/,
  ⟨.tim, 0xc, 28, 1, .ro, 0x0, .pkg⟩ /- timPps1Valid -/,
  ⟨.tim, 0x10, 0, 12, .ro, 0x0, .pkg⟩ /- timSwitches -/,
  ⟨.tim, 0x10, 12, 8, .ro, 0x0, .pkg⟩ /- timHoldovers -/,
  ⟨.tim, 0x10, 20, 8, .ro, 0x0, .pkg⟩ /- timPpsJumps -/]

/-- Rows 448 to 479 of the field table, in the order of `Fld`'s constructors. -/
def fldRows14 : List FldRow := [
  ⟨.tim, 0x20, 0, 32, .wo, 0x0, .pkg⟩ /- timPstep -/,
  ⟨.tim, 0x24, 0, 32, .ro, 0x0, .pkg⟩ /- timPstepPending -/,
  ⟨.tim, 0x30, 0, 20, .ro, 0x0, .pkg⟩ /- timPpsTallyOff -/,
  ⟨.tim, 0x34, 0, 32, .ro, 0x0, .pkg⟩ /- timPpsTallySfLo -/,
  ⟨.tim, 0x38, 0, 16, .ro, 0x0, .pkg⟩ /- timPpsTallySfHi -/,
  ⟨.pps, 0x0, 0, 32, .rw, 0x0, .pkg⟩ /- ppsOffset -/,
  ⟨.pps, 0x4, 0, 3, .rw, 0x4, .pkg⟩ /- ppsWidth -/,
  ⟨.pps, 0x4, 3, 1, .rw, 0x0, .pkg⟩ /- ppsEn -/,
  ⟨.pps, 0x4, 4, 1, .rw, 0x1, .pkg⟩ /- ppsSquelchUnlocked -/,
  ⟨.pps, 0x4, 5, 1, .wo, 0x0, .pkg⟩ /- ppsRealign -/,
  ⟨.clk, 0x0, 0, 30, .rw, 0x9896800, .pkg⟩ /- clkFreqHz -/,
  ⟨.clk, 0x4, 0, 1, .rw, 0x0, .pkg⟩ /- clkEn -/,
  ⟨.clk, 0x4, 1, 2, .rw, 0x1, .pkg⟩ /- clkSquelch -/,
  ⟨.clk, 0x4, 3, 1, .wo, 0x0, .pkg⟩ /- clkRealign -/,
  ⟨.cand, 0x0, 0, 1, .rw, 0x0, .pkg⟩ /- candEn -/,
  ⟨.cand, 0x0, 1, 4, .rw, 0x0, .pkg⟩ /- candPrio -/,
  ⟨.cand, 0x0, 5, 4, .rw, 0xf, .pkg⟩ /- candHostQl -/,
  ⟨.cand, 0x0, 9, 1, .wo, 0x0, .pkg⟩ /- candWtrClear -/,
  ⟨.cand, 0x4, 0, 30, .rw, 0x989680, .pkg⟩ /- candRefFreqHz -/,
  ⟨.cand, 0x8, 0, 1, .ro, 0x0, .pkg⟩ /- candActive -/,
  ⟨.cand, 0x8, 1, 1, .ro, 0x0, .pkg⟩ /- candQualified -/,
  ⟨.cand, 0x8, 2, 1, .w1c, 0x0, .pkg⟩ /- candSoftWarn -/,
  ⟨.cand, 0x8, 3, 1, .ro, 0x0, .pkg⟩ /- candWtrRunning -/,
  ⟨.cand, 0x8, 4, 1, .ro, 0x0, .pkg⟩ /- candEligible -/,
  ⟨.cand, 0x8, 5, 4, .ro, 0xf, .pkg⟩ /- candRxQl -/,
  ⟨.cand, 0x8, 9, 1, .ro, 0x0, .pkg⟩ /- candQlTimeout -/,
  ⟨.cand, 0x8, 16, 16, .ro, 0x0, .pkg⟩ /- candFreqOff -/,
  ⟨.cand, 0xc, 0, 10, .ro, 0x0, .pkg⟩ /- candWtrLeftS -/,
  ⟨.cand, 0xc, 10, 8, .ro, 0x0, .pkg⟩ /- candRequalLeftS -/,
  ⟨.csel, 0x0, 0, 6, .rw, 0x0, .pkg⟩ /- cselLane -/,
  ⟨.csel, 0x0, 6, 1, .rw, 0x0, .pkg⟩ /- cselSelEn -/,
  ⟨.host, 0x0, 0, 1, .ro, 0x0, .pkg⟩ /- hostFwReady -/]

/-- Rows 480 to 511 of the field table, in the order of `Fld`'s constructors. -/
def fldRows15 : List FldRow := [
  ⟨.host, 0x0, 1, 1, .ro, 0x0, .pkg⟩ /- hostAdminReady -/,
  ⟨.host, 0x0, 2, 1, .w1c, 0x0, .pkg⟩ /- hostAdminErr -/,
  ⟨.host, 0x0, 3, 1, .ro, 0x1, .pkg⟩ /- hostBigRingSpace -/,
  ⟨.host, 0x0, 16, 15, .ro, 0x0, .pkg⟩ /- hostOpsInFlight -/,
  ⟨.host, 0x4, 0, 1, .rw, 0x0, .pkg⟩ /- hostAdminEn -/,
  ⟨.host, 0x4, 1, 4, .rw, 0x6, .pkg⟩ /- hostSqL -/,
  ⟨.host, 0x4, 5, 4, .rw, 0x6, .pkg⟩ /- hostCqL -/,
  ⟨.host, 0x4, 9, 4, .rw, 0x6, .pkg⟩ /- hostEqL -/,
  ⟨.host, 0x8, 0, 32, .rw, 0x0, .pkg⟩ /- hostSqLo -/,
  ⟨.host, 0xc, 0, 32, .rw, 0x0, .pkg⟩ /- hostSqHi -/,
  ⟨.host, 0x10, 0, 32, .rw, 0x0, .pkg⟩ /- hostCqLo -/,
  ⟨.host, 0x14, 0, 32, .rw, 0x0, .pkg⟩ /- hostCqHi -/,
  ⟨.host, 0x18, 0, 32, .rw, 0x0, .pkg⟩ /- hostEqLo -/,
  ⟨.host, 0x1c, 0, 32, .rw, 0x0, .pkg⟩ /- hostEqHi -/,
  ⟨.vf, 0x0, 0, 18, .ro, 0x0, .pkg⟩ /- vfWindowBase -/,
  ⟨.vf, 0x0, 18, 1, .ro, 0x0, .pkg⟩ /- vfWindowValid -/,
  ⟨.vf, 0x4, 0, 14, .ro, 0xf0, .pkg⟩ /- vfOpsMax -/,
  ⟨.vf, 0x4, 16, 14, .ro, 0x0, .pkg⟩ /- vfOpsInFlight -/,
  ⟨.pwr, 0x0, 0, 10, .rw, 0x12c, .pkg⟩ /- pwrBudgetW -/,
  ⟨.pwr, 0x0, 10, 6, .rw, 0x4, .pkg⟩ /- pwrGuardW -/,
  ⟨.pwr, 0x4, 0, 8, .rw, 0x5f, .pkg⟩ /- pwrTWarn -/,
  ⟨.pwr, 0x4, 8, 8, .rw, 0x64, .pkg⟩ /- pwrTThrottle -/,
  ⟨.pwr, 0x4, 16, 4, .rw, 0x3, .pkg⟩ /- pwrTHyst -/,
  ⟨.pwr, 0x4, 20, 6, .rw, 0x8, .pkg⟩ /- pwrStepSlew -/,
  ⟨.pwr, 0x4, 26, 1, .rw, 0x0, .pkg⟩ /- pwrDecParkEn -/,
  ⟨.pwr, 0x8, 0, 12, .rw, 0x521, .pkg⟩ /- pwrStepMw -/,
  ⟨.pwr, 0x8, 12, 12, .rw, 0x410, .pkg⟩ /- pwrOtUw -/,
  ⟨.pwr, 0x8, 24, 8, .rw, 0x1e, .pkg⟩ /- pwrSurveyDw -/,
  ⟨.pwr, 0xc, 0, 10, .ro, 0x0, .pkg⟩ /- pwrPMeasW -/,
  ⟨.pwr, 0xc, 10, 10, .ro, 0x0, .pkg⟩ /- pwrPGrantedW -/,
  ⟨.pwr, 0xc, 20, 1, .ro, 0x0, .pkg⟩ /- pwrFloorOver -/,
  ⟨.pwr, 0xc, 21, 1, .ro, 0x0, .pkg⟩ /- pwrHsBusy -/]

/-- Rows 512 to 543 of the field table, in the order of `Fld`'s constructors. -/
def fldRows16 : List FldRow := [
  ⟨.pwr, 0xc, 22, 1, .w1c, 0x0, .pkg⟩ /- pwrTelemStale -/,
  ⟨.pwr, 0x10, 0, 1, .wo, 0x0, .pkg⟩ /- pwrLampClearAll -/,
  ⟨.pwr, 0x10, 8, 8, .ro, 0x0, .pkg⟩ /- pwrLampUsed -/,
  ⟨.pwr, 0x10, 16, 16, .ro, 0x0, .pkg⟩ /- pwrLampOverflow -/,
  ⟨.pwr, 0x14, 0, 16, .ro, 0x0, .pkg⟩ /- pwrRefusals -/,
  ⟨.pwr, 0x14, 16, 16, .ro, 0x0, .pkg⟩ /- pwrAborts -/,
  ⟨.car, 0x0, 0, 6, .sh, 0x0, .pkg⟩ /- carNlFloor -/,
  ⟨.car, 0x0, 6, 6, .sh, 0x4, .pkg⟩ /- carCapFloor -/,
  ⟨.car, 0x0, 12, 6, .sh, 0x20, .pkg⟩ /- carStepMax -/,
  ⟨.car, 0x0, 18, 6, .sh, 0x8, .pkg⟩ /- carCapTarget -/,
  ⟨.car, 0x4, 0, 6, .ro, 0x0, .pkg⟩ /- carStepsGrant -/,
  ⟨.car, 0x4, 6, 6, .ro, 0x8, .pkg⟩ /- carCapGrant -/,
  ⟨.car, 0x4, 12, 7, .ro, 0x0, .pkg⟩ /- carSurveyDuty -/,
  ⟨.car, 0x4, 19, 2, .ro, 0x0, .pkg⟩ /- carThermLevel -/,
  ⟨.car, 0x8, 0, 7, .rw, 0x0, .pkg⟩ /- carSurveyReq -/,
  ⟨.car, 0xc, 0, 16, .ro, 0x0, .pkg⟩ /- carMargin -/,
  ⟨.pmill, 0x0, 0, 14, .rw, 0x3c4f, .pkg⟩ /- pmillOtMax -/,
  ⟨.pmill, 0x0, 14, 5, .rw, 0x8, .pkg⟩ /- pmillAssayKMin -/,
  ⟨.pmill, 0x4, 0, 14, .ro, 0x0, .pkg⟩ /- pmillOtGrant -/,
  ⟨.pmill, 0x4, 14, 5, .ro, 0x18, .pkg⟩ /- pmillAssayK -/,
  ⟨.pmill, 0x4, 19, 2, .ro, 0x0, .pkg⟩ /- pmillThermLevel -/,
  ⟨.pmill, 0x4, 21, 4, .ro, 0x0, .pkg⟩ /- pmillDecParked -/,
  ⟨.pdie, 0x0, 0, 12, .ro, 0x0, .pkg⟩ /- pdieTemp -/,
  ⟨.pdie, 0x0, 12, 12, .ro, 0x0, .pkg⟩ /- pdieTempPeak -/,
  ⟨.pdie, 0x4, 0, 16, .ro, 0x0, .pkg⟩ /- pdiePDie -/,
  ⟨.pdie, 0x4, 16, 1, .ro, 0x0, .pkg⟩ /- pdieStale -/,
  ⟨.lamp, 0x0, 0, 16, .ro, 0x0, .pkg⟩ /- lampBlock -/,
  ⟨.lamp, 0x0, 16, 8, .ro, 0x0, .pkg⟩ /- lampReason -/,
  ⟨.lamp, 0x0, 24, 3, .ro, 0x0, .pkg⟩ /- lampReqState -/,
  ⟨.lamp, 0x0, 31, 1, .ro, 0x0, .pkg⟩ /- lampValid -/,
  ⟨.lamp, 0x4, 0, 16, .ro, 0x0, .pkg⟩ /- lampCount -/,
  ⟨.lamp, 0x8, 0, 32, .ro, 0x0, .pkg⟩ /- lampFirstSf -/]

/-- Rows 544 to 575 of the field table, in the order of `Fld`'s constructors. -/
def fldRows17 : List FldRow := [
  ⟨.lamp, 0xc, 0, 32, .ro, 0x0, .pkg⟩ /- lampLastSf -/,
  ⟨.mem, 0x0, 0, 8, .rw, 0x4, .pkg⟩ /- memCeThresh -/,
  ⟨.mem, 0x4, 0, 5, .ro, 0x0, .pkg⟩ /- memCeUsed -/,
  ⟨.mem, 0x4, 5, 1, .ro, 0x0, .pkg⟩ /- memMarchBusy -/,
  ⟨.mem, 0x4, 6, 1, .ro, 0x0, .pkg⟩ /- memCanaryBusy -/,
  ⟨.mem, 0x4, 7, 5, .ro, 0x0, .pkg⟩ /- memCanaryQueue -/,
  ⟨.mem, 0x4, 12, 1, .w1c, 0x0, .pkg⟩ /- memRepairExhausted -/,
  ⟨.mem, 0x4, 13, 1, .w1c, 0x0, .pkg⟩ /- memRepairPendFull -/,
  ⟨.mem, 0x8, 0, 32, .ro, 0x0, .pkg⟩ /- memCeTotal -/,
  ⟨.mem, 0xc, 0, 16, .ro, 0x0, .pkg⟩ /- memUeTotal -/,
  ⟨.mem, 0xc, 16, 16, .ro, 0x0, .pkg⟩ /- memPartialRefused -/,
  ⟨.mem, 0x10, 0, 16, .ro, 0x0, .pkg⟩ /- memCeUnlogged -/,
  ⟨.mem, 0x10, 16, 16, .ro, 0x0, .pkg⟩ /- memCanaryDropped -/,
  ⟨.mem, 0x14, 0, 16, .ro, 0x0, .pkg⟩ /- memWriteLost -/,
  ⟨.mem, 0x14, 16, 16, .ro, 0x0, .pkg⟩ /- memSpBusyEvents -/,
  ⟨.mem, 0x18, 0, 16, .wo, 0x0, .pkg⟩ /- memCeFree -/,
  ⟨.mem, 0x18, 16, 1, .wo, 0x0, .pkg⟩ /- memCntClear -/,
  ⟨.ce, 0x0, 0, 8, .ro, 0x0, .pkg⟩ /- ceMemId -/,
  ⟨.ce, 0x0, 8, 1, .ro, 0x0, .pkg⟩ /- ceValid -/,
  ⟨.ce, 0x0, 9, 1, .ro, 0x0, .pkg⟩ /- ceMultiSyndrome -/,
  ⟨.ce, 0x0, 10, 2, .ro, 0x0, .pkg⟩ /- ceCanaryState -/,
  ⟨.ce, 0x0, 16, 16, .ro, 0x0, .pkg⟩ /- ceHitCount -/,
  ⟨.ce, 0x4, 0, 32, .ro, 0x0, .pkg⟩ /- ceAddress -/,
  ⟨.ce, 0x8, 0, 22, .ro, 0x0, .pkg⟩ /- ceSyndrome -/,
  ⟨.ce, 0xc, 0, 32, .ro, 0x0, .pkg⟩ /- ceFirstSf -/,
  ⟨.ce, 0x10, 0, 32, .ro, 0x0, .pkg⟩ /- ceLastSf -/,
  ⟨.mem2, 0x0, 0, 32, .ro, 0x0, .pkg⟩ /- memConflictCycles -/,
  ⟨.rep, 0x0, 0, 8, .ro, 0x0, .pkg⟩ /- repMemId -/,
  ⟨.rep, 0x0, 8, 1, .ro, 0x0, .pkg⟩ /- repValid -/,
  ⟨.rep, 0x0, 9, 1, .ro, 0x0, .pkg⟩ /- repSource -/,
  ⟨.rep, 0x0, 10, 1, .ro, 0x0, .pkg⟩ /- repApplied -/,
  ⟨.rep, 0x4, 0, 12, .ro, 0x0, .pkg⟩ /- repBank -/]

/-- Rows 576 to 607 of the field table, in the order of `Fld`'s constructors. -/
def fldRows18 : List FldRow := [
  ⟨.rep, 0x4, 12, 20, .ro, 0x0, .pkg⟩ /- repRow -/,
  ⟨.lespare, 0x0, 0, 1, .ro, 0x0, .pkg⟩ /- lespareInUse -/,
  ⟨.lespare, 0x0, 1, 1, .w1c, 0x0, .pkg⟩ /- lespareExhausted -/,
  ⟨.lespare, 0x0, 2, 7, .ro, 0x7f, .pkg⟩ /- lespareRetiredEngine -/,
  ⟨.lespare, 0x0, 16, 16, .ro, 0x0, .pkg⟩ /- lespareLockstepMismatch -/,
  ⟨.queue, 0x0, 0, 16, .ro, 0x0, .pkg⟩ /- queueOccupancy -/,
  ⟨.queue, 0x0, 16, 16, .ro, 0x0, .pkg⟩ /- queueHwm -/,
  ⟨.aux, 0x0, 0, 1, .rw, 0x0, .pkg⟩ /- auxRefEn -/,
  ⟨.aux, 0x0, 1, 1, .ro, 0x0, .pkg⟩ /- auxRefSettled -/,
  ⟨.aux, 0x0, 2, 1, .wo, 0x0, .pkg⟩ /- auxCal -/,
  ⟨.aux, 0x0, 3, 1, .ro, 0x0, .pkg⟩ /- auxCalBusy -/,
  ⟨.aux, 0x0, 4, 2, .rw, 0x0, .pkg⟩ /- auxRegMode -/,
  ⟨.aux, 0x0, 6, 1, .wo, 0x0, .pkg⟩ /- auxRegStart -/,
  ⟨.aux, 0x0, 7, 5, .rw, 0x8, .pkg⟩ /- auxRegCh -/,
  ⟨.aux, 0x0, 12, 10, .rw, 0x3e8, .pkg⟩ /- auxRegPeriod -/,
  ⟨.aux, 0x0, 22, 1, .rw, 0x0, .pkg⟩ /- auxQueueInj -/,
  ⟨.aux, 0x4, 0, 12, .ro, 0x0, .pkg⟩ /- auxQResult -/,
  ⟨.aux, 0x4, 12, 5, .ro, 0x0, .pkg⟩ /- auxQChannel -/,
  ⟨.aux, 0x4, 17, 1, .ro, 0x0, .pkg⟩ /- auxQInjected -/,
  ⟨.aux, 0x4, 18, 1, .ro, 0x0, .pkg⟩ /- auxQOverrange -/,
  ⟨.aux, 0x4, 19, 1, .ro, 0x0, .pkg⟩ /- auxQNotSettled -/,
  ⟨.aux, 0x4, 20, 1, .ro, 0x0, .pkg⟩ /- auxQSimultaneous -/,
  ⟨.aux, 0x4, 21, 1, .ro, 0x0, .pkg⟩ /- auxQValid -/,
  ⟨.aux, 0x8, 0, 20, .ro, 0x0, .pkg⟩ /- auxQOffset -/,
  ⟨.aux, 0x8, 20, 12, .ro, 0x0, .pkg⟩ /- auxQSfLow -/,
  ⟨.aux, 0xc, 0, 7, .ro, 0x0, .pkg⟩ /- auxQLevel -/,
  ⟨.aux, 0xc, 8, 8, .ro, 0x0, .pkg⟩ /- auxInjDropped -/,
  ⟨.aux, 0xc, 16, 16, .ro, 0x0, .pkg⟩ /- auxQDrop -/,
  ⟨.thr, 0x0, 0, 5, .rw, 0x0, .pkg⟩ /- thrQueue -/,
  ⟨.thr, 0x0, 5, 1, .rw, 0x0, .pkg⟩ /- thrEn -/,
  ⟨.thr, 0x0, 16, 16, .rw, 0x0, .pkg⟩ /- thrLevel -/,
  ⟨.tag, 0x0, 0, 1, .rw, 0x1, .pkg⟩ /- tagEn -/]

/-- Rows 608 to 639 of the field table, in the order of `Fld`'s constructors. -/
def fldRows19 : List FldRow := [
  ⟨.tag, 0x4, 0, 24, .rw, 0x1, .pkg⟩ /- tagSeed -/,
  ⟨.tag, 0x8, 0, 5, .ro, 0x18, .pkg⟩ /- tagKActive -/,
  ⟨.tag, 0x8, 16, 16, .ro, 0x0, .pkg⟩ /- tagMissed -/,
  ⟨.mon, 0x0, 0, 24, .ro, 0x0, .pkg⟩ /- monPrefecBer -/,
  ⟨.mon, 0x4, 0, 16, .ro, 0x0, .pkg⟩ /- monQDb -/,
  ⟨.mon, 0x4, 16, 16, .ro, 0x0, .pkg⟩ /- monSnrDb -/,
  ⟨.mon, 0x8, 0, 16, .ro, 0x0, .pkg⟩ /- monGsnrDb -/,
  ⟨.mon, 0x8, 16, 16, .ro, 0x0, .pkg⟩ /- monOsnrDb -/,
  ⟨.mon, 0xc, 0, 16, .ro, 0x0, .pkg⟩ /- monCd -/,
  ⟨.mon, 0xc, 16, 16, .ro, 0x0, .pkg⟩ /- monDgdPs -/,
  ⟨.mon, 0x10, 0, 10, .ro, 0x0, .pkg⟩ /- monPdl -/,
  ⟨.mon, 0x10, 16, 16, .ro, 0x0, .pkg⟩ /- monFreqOffset -/,
  ⟨.mon, 0x14, 0, 32, .ro, 0x0, .pkg⟩ /- monSf -/,
  ⟨.mon, 0x18, 0, 16, .rw, 0x76c, .pkg⟩ /- monTrxSnr -/,
  ⟨.mon, 0x1c, 0, 3, .rw, 0x3, .pkg⟩ /- monSopRate -/,
  ⟨.mon, 0x1c, 3, 15, .rw, 0x64, .pkg⟩ /- monSopThr -/,
  ⟨.mon, 0x20, 0, 32, .ro, 0x0, .pkg⟩ /- monSopRatePeak -/,
  ⟨.assay, 0x0, 0, 16, .rw, 0x0, .pkg⟩ /- assayEventId -/,
  ⟨.assay2, 0x0, 0, 1, .wo, 0x0, .pkg⟩ /- assayBatchGo -/,
  ⟨.assay2, 0x0, 1, 1, .ro, 0x0, .pkg⟩ /- assayBatchBusy -/,
  ⟨.assay2, 0x0, 2, 5, .rw, 0x10, .pkg⟩ /- assayBatchLen -/,
  ⟨.assay3, 0x0, 0, 32, .ro, 0x0, .pkg⟩ /- assayCountLo -/,
  ⟨.assay3, 0x4, 0, 16, .ro, 0x0, .pkg⟩ /- assayCountHi -/,
  ⟨.assay3, 0x4, 16, 16, .ro, 0x0, .pkg⟩ /- assayStamp -/,
  ⟨.chip, 0x0, 0, 4, .ro, 0x2, .pkg⟩ /- chipStepping -/,
  ⟨.chip, 0x0, 4, 4, .ro, 0x8, .pkg⟩ /- chipConfig -/,
  ⟨.chip, 0x0, 8, 1, .ro, 0x0, .pkg⟩ /- chipSpeed200 -/,
  ⟨.chip, 0x0, 12, 12, .ro, 0xfff, .pkg⟩ /- chipPkgId -/,
  ⟨.chip, 0x4, 0, 2, .ro, 0x3, .pkg⟩ /- chipBootsel -/,
  ⟨.chip, 0x4, 2, 1, .ro, 0x0, .pkg⟩ /- chipBootFallback -/,
  ⟨.chip, 0x4, 3, 1, .ro, 0x0, .pkg⟩ /- chipBootFailed -/,
  ⟨.chip, 0x4, 4, 4, .ro, 0x0, .pkg⟩ /- chipBootFailReason -/]

/-- Rows 640 to 671 of the field table, in the order of `Fld`'s constructors. -/
def fldRows20 : List FldRow := [
  ⟨.chip, 0x4, 8, 1, .ro, 0x0, .pkg⟩ /- chipMarchPreserve -/,
  ⟨.chip, 0x4, 9, 1, .wo, 0x0, .pkg⟩ /- chipSvnCommit -/,
  ⟨.chip, 0x4, 10, 4, .ro, 0x0, .pkg⟩ /- chipSecFailReason -/,
  ⟨.chip, 0x8, 0, 32, .ro, 0x0, .pkg⟩ /- chipSvnFused -/,
  ⟨.chip, 0xc, 0, 1, .w1c, 0x0, .pkg⟩ /- chipPor -/,
  ⟨.chip, 0xc, 1, 1, .w1c, 0x0, .pkg⟩ /- chipWake -/,
  ⟨.chip, 0xc, 2, 1, .w1c, 0x0, .pkg⟩ /- chipPkgReset -/,
  ⟨.chip, 0xc, 3, 1, .w1c, 0x0, .pkg⟩ /- chipTrip -/,
  ⟨.chip, 0xc, 4, 4, .ro, 0x0, .pkg⟩ /- chipTripDie -/,
  ⟨.chip, 0xc, 8, 1, .w1c, 0x0, .pkg⟩ /- chipRailFault -/,
  ⟨.fw, 0x0, 0, 1, .ro, 0x0, .pkg⟩ /- fwStaged -/,
  ⟨.fw, 0x0, 1, 1, .ro, 0x0, .pkg⟩ /- fwRunning -/,
  ⟨.fw, 0x0, 16, 16, .ro, 0x0, .pkg⟩ /- fwSvnRunning -/,
  ⟨.bin, 0x0, 0, 1, .ro, 0x0, .pkg⟩ /- binArrayReady -/,
  ⟨.bin, 0x0, 1, 1, .ro, 0x0, .pkg⟩ /- binRingCtxHome -/,
  ⟨.bin, 0x0, 2, 1, .ro, 0x0, .pkg⟩ /- binRefresh2x -/,
  ⟨.bin, 0x0, 8, 8, .ro, 0x10, .pkg⟩ /- binCapacityGib -/,
  ⟨.internal, 20, 0, 4, .ro, 0x0, .pkg⟩ /- lgRxMembers -/,
  ⟨.internal, 20, 0, 32, .sh, 0x440, .pkg⟩ /- symRate -/,
  ⟨.internal, 20, 0, 1, .ro, 0x0, .pkg⟩ /- inReset -/,
  ⟨.internal, 20, 0, 1, .ro, 0x0, .pkg⟩ /- plannedDown -/,
  ⟨.internal, 20, 0, 4, .ro, 0x0, .pkg⟩ /- incarnation -/,
  ⟨.internal, 16, 0, 48, .ro, 0x0, .pkg⟩ /- winzLaneSf -/,
  ⟨.internal, 16, 0, 8, .ro, 0x0, .pkg⟩ /- winzLaneErrs -/,
  ⟨.internal, 16, 0, 4, .ro, 0x0, .pkg⟩ /- winzSparesUsed -/,
  ⟨.internal, 20, 0, 32, .ro, 0x0, .pkg⟩ /- dieSeq -/,
  ⟨.internal, 16, 0, 2, .ro, 0x0, .pkg⟩ /- shiftAnswer -/,
  ⟨.internal, 16, 0, 1, .ro, 0x0, .pkg⟩ /- prepareHeld -/,
  ⟨.internal, 16, 0, 1, .ro, 0x0, .pkg⟩ /- reloadDue -/,
  ⟨.internal, 16, 0, 1, .ro, 0x0, .pkg⟩ /- cancelSent -/,
  ⟨.internal, 16, 0, 48, .ro, 0x0, .pkg⟩ /- farLiveSf -/,
  ⟨.internal, 16, 0, 68, .ro, 0x0, .pkg⟩ /- farLiveArr -/]

/-- Rows 672 to 703 of the field table, in the order of `Fld`'s constructors. -/
def fldRows21 : List FldRow := [
  ⟨.internal, 16, 0, 1, .ro, 0x0, .pkg⟩ /- farHasArr -/,
  ⟨.internal, 16, 0, 48, .ro, 0x0, .pkg⟩ /- farLastAnn -/,
  ⟨.internal, 16, 0, 1, .ro, 0x0, .pkg⟩ /- farAnnSeen -/,
  ⟨.internal, 21, 0, 1, .ro, 0x0, .pkg⟩ /- surfOsc -/,
  ⟨.internal, 21, 0, 48, .ro, 0x0, .pkg⟩ /- surfTicks -/,
  ⟨.internal, 21, 0, 48, .ro, 0x0, .pkg⟩ /- surfHeldSf -/,
  ⟨.internal, 21, 0, 1, .ro, 0x0, .pkg⟩ /- surfEverHeld -/,
  ⟨.internal, 16, 0, 1, .ro, 0x0, .pkg⟩ /- prepareSent -/,
  ⟨.internal, 1, 0, 1, .ro, 0x0, .pkg⟩ /- calActive -/,
  ⟨.internal, 1, 0, 48, .ro, 0x0, .pkg⟩ /- calStart -/,
  ⟨.internal, 21, 0, 7, .ro, 0x0, .pkg⟩ /- adcRetired -/,
  ⟨.internal, 1, 0, 1, .ro, 0x0, .pkg⟩ /- calDiscarded -/,
  ⟨.internal, 1, 0, 8, .ro, 0x0, .pkg⟩ /- calSkip -/,
  ⟨.internal, 1, 0, 1, .ro, 0x0, .pkg⟩ /- calPaused -/,
  ⟨.internal, 1, 0, 16, .ro, 0x0, .pkg⟩ /- ovrCount -/,
  ⟨.internal, 1, 0, 8, .ro, 0x0, .pkg⟩ /- ovrRun -/,
  ⟨.internal, 1, 0, 16, .ro, 0x0, .pkg⟩ /- tiaQuiet -/,
  ⟨.internal, 1, 0, 1, .ro, 0x0, .pkg⟩ /- tiaHold -/,
  ⟨.internal, 1, 0, 48, .ro, 0x0, .pkg⟩ /- tiaHoldUntil -/,
  ⟨.internal, 0, 0, 1, .ro, 0x0, .pkg⟩ /- fgCal -/,
  ⟨.internal, 0, 0, 1, .ro, 0x0, .pkg⟩ /- dacPause -/,
  ⟨.internal, 0, 0, 8, .ro, 0x0, .pkg⟩ /- dacSent -/,
  ⟨.internal, 0, 0, 1, .ro, 0x0, .pkg⟩ /- dacPart -/,
  ⟨.internal, 0, 0, 1, .ro, 0x0, .pkg⟩ /- dacUp -/,
  ⟨.internal, 20, 0, 1, .ro, 0x0, .pkg⟩ /- spiLow -/,
  ⟨.internal, 20, 0, 1, .ro, 0x0, .pkg⟩ /- txdisDrive -/,
  ⟨.internal, 8, 0, 1, .ro, 0x0, .pkg⟩ /- biasModePend -/,
  ⟨.internal, 8, 0, 1, .ro, 0x0, .pkg⟩ /- biasWait -/,
  ⟨.internal, 8, 0, 49, .ro, 0x0, .pkg⟩ /- biasChipAt -/,
  ⟨.internal, 8, 0, 20, .ro, 0x0, .pkg⟩ /- biasSum -/,
  ⟨.internal, 8, 0, 5, .ro, 0x0, .pkg⟩ /- biasGood -/,
  ⟨.internal, 8, 0, 5, .ro, 0x0, .pkg⟩ /- biasAsked -/]

/-- Rows 704 to 735 of the field table, in the order of `Fld`'s constructors. -/
def fldRows22 : List FldRow := [
  ⟨.internal, 8, 0, 12, .ro, 0x0, .pkg⟩ /- biasHost -/,
  ⟨.internal, 8, 0, 40, .ro, 0x0, .pkg⟩ /- trimSum -/,
  ⟨.internal, 8, 0, 24, .ro, 0x0, .pkg⟩ /- trimCount -/,
  ⟨.internal, 8, 0, 2, .ro, 0x0, .pkg⟩ /- biasChip -/,
  ⟨.internal, 8, 0, 1, .ro, 0x0, .pkg⟩ /- biasVoid -/,
  ⟨.internal, 8, 0, 9, .ro, 0x0, .pkg⟩ /- biasPeriods -/,
  ⟨.internal, 8, 0, 3, .ro, 0x0, .pkg⟩ /- biasLockRun -/,
  ⟨.internal, 8, 0, 13, .ro, 0x0, .pkg⟩ /- biasV -/,
  ⟨.internal, 8, 0, 32, .ro, 0x0, .pkg⟩ /- biasPart -/,
  ⟨.internal, 8, 0, 40, .ro, 0x0, .pkg⟩ /- biasCorr -/,
  ⟨.internal, 20, 0, 68, .ro, 0x0, .pkg⟩ /- acqStamp -/,
  ⟨.internal, 6, 0, 1, .ro, 0x0, .pkg⟩ /- acqWarm -/,
  ⟨.internal, 6, 0, 48, .ro, 0x0, .pkg⟩ /- warmUntil -/,
  ⟨.internal, 6, 0, 1, .ro, 0x0, .pkg⟩ /- acqRateChange -/,
  ⟨.internal, 2, 0, 16, .ro, 0x0, .pkg⟩ /- cdcValue -/,
  ⟨.internal, 6, 0, 1, .ro, 0x0, .pkg⟩ /- candOn -/,
  ⟨.internal, 6, 0, 2, .ro, 0x0, .pkg⟩ /- candK -/,
  ⟨.internal, 6, 0, 20, .ro, 0x0, .pkg⟩ /- candStart -/,
  ⟨.internal, 16, 0, 7, .ro, 0x0, .pkg⟩ /- katNext -/,
  ⟨.internal, 16, 0, 5, .ro, 0x10, .pkg⟩ /- engSpare -/,
  ⟨.internal, 16, 0, 5, .ro, 0x0, .pkg⟩ /- joinLeft -/,
  ⟨.internal, 16, 0, 18, .ro, 0x0, .pkg⟩ /- huntPos -/,
  ⟨.internal, 16, 0, 48, .ro, 0x0, .pkg⟩ /- huntSince -/,
  ⟨.internal, 16, 0, 18, .ro, 0x0, .pkg⟩ /- huntCand -/,
  ⟨.internal, 16, 0, 1, .ro, 0x0, .pkg⟩ /- shedding -/,
  ⟨.internal, 16, 0, 1, .ro, 0x0, .pkg⟩ /- decHold -/,
  ⟨.internal, 16, 0, 24, .ro, 0x1, .pkg⟩ /- tagGen -/,
  ⟨.internal, 16, 0, 1, .ro, 0x0, .pkg⟩ /- ohFirst -/,
  ⟨.internal, 16, 0, 4, .ro, 0x0, .pkg⟩ /- ohBad -/,
  ⟨.internal, 16, 0, 16, .ro, 0x0, .pkg⟩ /- ohSince -/,
  ⟨.internal, 16, 0, 1, .ro, 0x0, .pkg⟩ /- ohIdsOk -/,
  ⟨.internal, 16, 0, 2, .ro, 0x0, .pkg⟩ /- rtLastState -/]

/-- Rows 736 to 767 of the field table, in the order of `Fld`'s constructors. -/
def fldRows23 : List FldRow := [
  ⟨.internal, 16, 0, 2, .ro, 0x0, .pkg⟩ /- keyLastState -/,
  ⟨.internal, 16, 0, 72, .ro, 0x0, .pkg⟩ /- annKey -/,
  ⟨.internal, 16, 0, 2, .ro, 0x0, .pkg⟩ /- annRun -/,
  ⟨.internal, 16, 0, 2, .ro, 0x0, .pkg⟩ /- cancelRun -/,
  ⟨.internal, 16, 0, 72, .ro, 0x0, .pkg⟩ /- annStagedKey -/,
  ⟨.internal, 16, 0, 72, .ro, 0x0, .pkg⟩ /- annInvalidKey -/,
  ⟨.internal, 16, 0, 2, .ro, 0x0, .pkg⟩ /- keyAnnRun -/,
  ⟨.internal, 16, 0, 2, .ro, 0x0, .pkg⟩ /- keyCancelRun -/,
  ⟨.internal, 16, 0, 72, .ro, 0x0, .pkg⟩ /- keyAnnKey -/,
  ⟨.internal, 16, 0, 48, .ro, 0x0, .pkg⟩ /- keyStagedAt -/,
  ⟨.internal, 7, 0, 48, .ro, 0x0, .pkg⟩ /- pageKeyTarget -/,
  ⟨.internal, 7, 0, 2, .ro, 0x0, .pkg⟩ /- pageKeyCarrier -/,
  ⟨.internal, 16, 0, 6, .ro, 0x0, .pkg⟩ /- sweepCand -/,
  ⟨.internal, 16, 0, 6, .ro, 0x0, .pkg⟩ /- huntLf -/,
  ⟨.internal, 16, 0, 22, .ro, 0x0, .pkg⟩ /- rxOtucPtr -/,
  ⟨.internal, 16, 0, 8, .ro, 0x0, .pkg⟩ /- rxOtucMfas -/,
  ⟨.internal, 16, 0, 1, .ro, 0x0, .pkg⟩ /- mymosKeyIdx -/,
  ⟨.internal, 16, 0, 2, .ro, 0x0, .pkg⟩ /- annTxState -/,
  ⟨.internal, 16, 0, 1, .ro, 0x0, .pkg⟩ /- annTxRetune -/,
  ⟨.internal, 16, 0, 1, .ro, 0x0, .pkg⟩ /- annTxKey -/,
  ⟨.internal, 16, 0, 48, .ro, 0x0, .pkg⟩ /- annTxTarget -/,
  ⟨.internal, 16, 0, 24, .ro, 0x0, .pkg⟩ /- annTxVals -/,
  ⟨.internal, 16, 0, 9, .ro, 0x0, .pkg⟩ /- msgSent -/,
  ⟨.internal, 20, 0, 7, .ro, 0x0, .pkg⟩ /- lgRun -/,
  ⟨.internal, 20, 0, 1, .ro, 0x0, .pkg⟩ /- lgWas -/,
  ⟨.internal, 20, 0, 48, .ro, 0x0, .pkg⟩ /- lgLastFar -/,
  ⟨.internal, 20, 0, 70, .ro, 0x0, .pkg⟩ /- lgSkew -/,
  ⟨.internal, 20, 0, 48, .ro, 0x0, .pkg⟩ /- lgResume -/,
  ⟨.internal, 20, 0, 1, .ro, 0x0, .pkg⟩ /- lgRestart -/,
  ⟨.internal, 20, 0, 48, .ro, 0x0, .pkg⟩ /- lgIdleSince -/,
  ⟨.internal, 20, 0, 48, .ro, 0x0, .pkg⟩ /- lgReleased -/,
  ⟨.internal, 20, 0, 48, .ro, 0x0, .pkg⟩ /- lgFarRelease -/]

/-- Rows 768 to 799 of the field table, in the order of `Fld`'s constructors. -/
def fldRows24 : List FldRow := [
  ⟨.internal, 20, 0, 68, .ro, 0x0, .pkg⟩ /- lgMuteUntil -/,
  ⟨.internal, 20, 0, 7, .ro, 0x0, .pkg⟩ /- numVfs -/,
  ⟨.internal, 19, 0, 10, .ro, 0x3ff, .pkg⟩ /- rxMapCtx -/,
  ⟨.internal, 19, 0, 1, .ro, 0x0, .pkg⟩ /- rxMapDie -/,
  ⟨.internal, 19, 0, 11, .ro, 0x3ff, .pkg⟩ /- fmapUse -/,
  ⟨.internal, 6, 0, 3, .ro, 0x0, .pkg⟩ /- sliceStatRun -/,
  ⟨.internal, 6, 0, 1, .ro, 0x0, .pkg⟩ /- sliceBdiLast -/,
  ⟨.internal, 6, 0, 2, .ro, 0x0, .pkg⟩ /- sliceBdiRun -/,
  ⟨.internal, 6, 0, 3, .ro, 0x0, .pkg⟩ /- oduStatLast -/,
  ⟨.internal, 6, 0, 3, .ro, 0x0, .pkg⟩ /- oduStatRun -/,
  ⟨.internal, 6, 0, 1, .ro, 0x0, .pkg⟩ /- oduBdiLast -/,
  ⟨.internal, 6, 0, 3, .ro, 0x0, .pkg⟩ /- oduBdiRun -/,
  ⟨.internal, 6, 0, 3, .ro, 0x0, .pkg⟩ /- tcmStatLast -/,
  ⟨.internal, 6, 0, 3, .ro, 0x0, .pkg⟩ /- tcmStatRun -/,
  ⟨.internal, 6, 0, 1, .ro, 0x0, .pkg⟩ /- tcmBdiLast -/,
  ⟨.internal, 6, 0, 3, .ro, 0x0, .pkg⟩ /- tcmBdiRun -/,
  ⟨.internal, 6, 0, 4, .ro, 0x0, .pkg⟩ /- tcmBad -/,
  ⟨.internal, 6, 0, 1, .ro, 0x0, .pkg⟩ /- oduBdiTx -/,
  ⟨.internal, 6, 0, 2, .ro, 0x0, .pkg⟩ /- oduBdiTxRun -/,
  ⟨.internal, 6, 0, 11, .ro, 0x0, .pkg⟩ /- msimHold -/,
  ⟨.internal, 20, 0, 1, .ro, 0x0, .pkg⟩ /- lgMsim -/,
  ⟨.internal, 20, 0, 11, .ro, 0x0, .pkg⟩ /- lgMsimHold -/,
  ⟨.internal, 6, 0, 32, .ro, 0x0, .pkg⟩ /- apsCand -/,
  ⟨.internal, 6, 0, 5, .ro, 0x0, .pkg⟩ /- apsRun -/,
  ⟨.internal, 6, 0, 32, .ro, 0x0, .pkg⟩ /- apsTxVal -/,
  ⟨.internal, 6, 0, 1, .ro, 0x0, .pkg⟩ /- apsTxOn -/,
  ⟨.internal, 6, 0, 9, .ro, 0x0, .pkg⟩ /- extSkip -/,
  ⟨.internal, 6, 0, 1, .ro, 0x0, .pkg⟩ /- extGap -/,
  ⟨.internal, 6, 0, 1, .ro, 0x0, .pkg⟩ /- insTaken -/,
  ⟨.internal, 6, 0, 1, .ro, 0x0, .pkg⟩ /- insHold -/,
  ⟨.internal, 6, 0, 13, .ro, 0x0, .pkg⟩ /- impLevel -/,
  ⟨.internal, 6, 0, 13, .ro, 0x0, .pkg⟩ /- impIdles -/]

/-- Rows 800 to 831 of the field table, in the order of `Fld`'s constructors. -/
def fldRows25 : List FldRow := [
  ⟨.internal, 6, 0, 1, .ro, 0x0, .pkg⟩ /- impDrop -/,
  ⟨.internal, 6, 0, 3, .ro, 0x0, .pkg⟩ /- oduRank -/,
  ⟨.internal, 6, 0, 2, .ro, 0x0, .pkg⟩ /- oduSig -/,
  ⟨.internal, 6, 0, 1, .ro, 0x0, .pkg⟩ /- oduImpLost -/,
  ⟨.internal, 6, 0, 68, .ro, 0x0, .pkg⟩ /- xcSofAt -/,
  ⟨.internal, 6, 0, 1, .ro, 0x0, .pkg⟩ /- xcSofSeen -/,
  ⟨.internal, 6, 0, 1, .ro, 0x0, .pkg⟩ /- ttiSeen -/,
  ⟨.internal, 7, 0, 41, .ro, 0x0, .pkg⟩ /- pageTxCount -/,
  ⟨.internal, 7, 0, 1, .ro, 0x0, .pkg⟩ /- pageOut -/,
  ⟨.internal, 7, 0, 1, .ro, 0x0, .pkg⟩ /- zeroPend -/,
  ⟨.internal, 7, 0, 1, .ro, 0x0, .pkg⟩ /- strmBound -/,
  ⟨.internal, 7, 0, 48, .ro, 0x0, .pkg⟩ /- strmStartAt -/,
  ⟨.internal, 7, 0, 1, .ro, 0x0, .pkg⟩ /- strmStartOn -/,
  ⟨.internal, 7, 0, 64, .ro, 0x0, .pkg⟩ /- strmFloor -/,
  ⟨.internal, 7, 0, 48, .ro, 0x0, .pkg⟩ /- strmStopAt -/,
  ⟨.internal, 7, 0, 1, .ro, 0x0, .pkg⟩ /- strmStopOn -/,
  ⟨.internal, 7, 0, 65, .ro, 0x0, .pkg⟩ /- strmNext -/,
  ⟨.internal, 7, 0, 1, .ro, 0x0, .pkg⟩ /- strmSent -/,
  ⟨.internal, 7, 0, 64, .ro, 0x0, .pkg⟩ /- strmSeq -/,
  ⟨.internal, 7, 0, 64, .ro, 0x0, .pkg⟩ /- rxSeq -/,
  ⟨.internal, 7, 0, 64, .ro, 0x0, .pkg⟩ /- rxGather -/,
  ⟨.internal, 7, 0, 4, .ro, 0x0, .pkg⟩ /- rxGatherN -/,
  ⟨.internal, 7, 0, 64, .ro, 0x0, .pkg⟩ /- rxBase -/,
  ⟨.internal, 7, 0, 1, .ro, 0x0, .pkg⟩ /- rxBaseOk -/,
  ⟨.internal, 7, 0, 2, .ro, 0x0, .pkg⟩ /- rxMiss -/,
  ⟨.internal, 7, 0, 5, .ro, 0x10, .pkg⟩ /- pipeSpare -/,
  ⟨.internal, 6, 0, 16, .ro, 0x0, .pkg⟩ /- pairSeq -/,
  ⟨.internal, 6, 0, 16, .ro, 0x0, .pkg⟩ /- pairRxSeq -/,
  ⟨.internal, 6, 0, 1, .ro, 0x0, .pkg⟩ /- pairAgRole -/,
  ⟨.internal, 6, 0, 1, .ro, 0x0, .pkg⟩ /- pairAgLoss -/,
  ⟨.internal, 6, 0, 1, .ro, 0x0, .pkg⟩ /- pairTaken -/,
  ⟨.internal, 6, 0, 1, .ro, 0x0, .pkg⟩ /- xcStatusOk -/]

/-- Rows 832 to 863 of the field table, in the order of `Fld`'s constructors. -/
def fldRows26 : List FldRow := [
  ⟨.internal, 6, 0, 68, .ro, 0x0, .pkg⟩ /- xcOutAt -/,
  ⟨.internal, 17, 0, 8, .ro, 0x0, .pkg⟩ /- lanePos -/,
  ⟨.internal, 17, 0, 1, .ro, 0x0, .pkg⟩ /- laneDeskewed -/,
  ⟨.internal, 18, 0, 8, .ro, 0x0, .pkg⟩ /- laneCoef -/,
  ⟨.internal, 18, 0, 2, .ro, 0x0, .pkg⟩ /- laneCoefSts -/,
  ⟨.internal, 17, 0, 10, .ro, 0x0, .pkg⟩ /- injLeft -/,
  ⟨.internal, 17, 0, 48, .ro, 0x0, .pkg⟩ /- prbsErrs -/,
  ⟨.internal, 17, 0, 48, .ro, 0x0, .pkg⟩ /- prbsBits -/,
  ⟨.internal, 11, 0, 1, .ro, 0x0, .pkg⟩ /- candWtrDue -/,
  ⟨.internal, 11, 0, 1, .ro, 0x0, .pkg⟩ /- candWasEn -/,
  ⟨.internal, 11, 0, 1, .ro, 0x0, .pkg⟩ /- candBase -/,
  ⟨.internal, 11, 0, 12, .ro, 0x0, .pkg⟩ /- candRun -/,
  ⟨.internal, 11, 0, 1, .ro, 0x0, .pkg⟩ /- candWarned -/,
  ⟨.internal, 11, 0, 4, .ro, 0x0, .pkg⟩ /- candQlLast -/,
  ⟨.internal, 11, 0, 2, .ro, 0x0, .pkg⟩ /- candQlRun -/,
  ⟨.internal, 11, 0, 1, .ro, 0x0, .pkg⟩ /- timHold -/,
  ⟨.internal, 11, 0, 1, .ro, 0x0, .pkg⟩ /- timFollow -/,
  ⟨.internal, 11, 0, 4, .ro, 0xf, .pkg⟩ /- timOld -/,
  ⟨.internal, 11, 0, 1, .ro, 0x0, .pkg⟩ /- timSecVoid -/,
  ⟨.internal, 11, 0, 2, .ro, 0x0, .pkg⟩ /- ppsRunIn -/,
  ⟨.internal, 11, 0, 2, .ro, 0x0, .pkg⟩ /- ppsAgree -/,
  ⟨.internal, 11, 0, 1, .ro, 0x1, .pkg⟩ /- ppsMoved -/,
  ⟨.internal, 11, 0, 68, .ro, 0x0, .pkg⟩ /- ppsLast -/,
  ⟨.internal, 11, 0, 1, .ro, 0x0, .pkg⟩ /- ppsEver -/,
  ⟨.internal, 11, 0, 32, .ro, 0x0, .pkg⟩ /- ppsUse -/,
  ⟨.internal, 11, 0, 3, .ro, 0x0, .pkg⟩ /- ppsPulse -/,
  ⟨.internal, 11, 0, 30, .ro, 0x9896800, .pkg⟩ /- clkUse -/,
  ⟨.internal, 11, 0, 1, .ro, 0x0, .pkg⟩ /- clkRealigning -/,
  ⟨.internal, 11, 0, 68, .ro, 0x0, .pkg⟩ /- ppsTallyLive -/,
  ⟨.internal, 20, 0, 1, .ro, 0x0, .pkg⟩ /- pcieUp -/,
  ⟨.internal, 20, 0, 1, .ro, 0x0, .pkg⟩ /- bootStarted -/,
  ⟨.internal, 20, 0, 1, .ro, 0x0, .pkg⟩ /- hostRun -/]

/-- Rows 864 to 895 of the field table, in the order of `Fld`'s constructors. -/
def fldRows27 : List FldRow := [
  ⟨.internal, 20, 0, 1, .ro, 0x0, .pkg⟩ /- hostSleep -/,
  ⟨.internal, 20, 0, 1, .ro, 0x0, .pkg⟩ /- parkAsk -/,
  ⟨.internal, 20, 0, 5, .ro, 0x0, .pkg⟩ /- nlcLow -/,
  ⟨.internal, 20, 0, 1, .ro, 0x0, .pkg⟩ /- nlcWant -/,
  ⟨.internal, 20, 0, 3, .ro, 0x0, .pkg⟩ /- supBad -/,
  ⟨.internal, 20, 0, 1, .ro, 0x0, .pkg⟩ /- supGood -/,
  ⟨.internal, 20, 0, 16, .ro, 0x0, .pkg⟩ /- supLast -/,
  ⟨.internal, 20, 0, 3, .ro, 0x0, .pkg⟩ /- binMiss -/,
  ⟨.internal, 20, 0, 1, .ro, 0x0, .pkg⟩ /- binSeen -/,
  ⟨.internal, 20, 0, 2, .ro, 0x0, .pkg⟩ /- thermLevel -/,
  ⟨.internal, 20, 0, 1, .ro, 0x0, .pkg⟩ /- thermFast -/,
  ⟨.internal, 20, 0, 1, .ro, 0x0, .pkg⟩ /- thermLimit -/,
  ⟨.internal, 20, 0, 64, .ro, 0x0, .pkg⟩ /- pwrOther -/,
  ⟨.internal, 20, 0, 1, .ro, 0x0, .pkg⟩ /- tripped -/,
  ⟨.internal, 21, 0, 1, .ro, 0x0, .pkg⟩ /- railBad -/,
  ⟨.internal, 21, 0, 2, .ro, 0x0, .pkg⟩ /- pkgOff -/,
  ⟨.internal, 21, 0, 1, .ro, 0x1, .pkg⟩ /- railEn -/,
  ⟨.internal, 21, 0, 1, .ro, 0x0, .pkg⟩ /- wakeLatch -/,
  ⟨.internal, 21, 0, 12, .ro, 0x440, .pkg⟩ /- surfRate -/,
  ⟨.internal, 21, 0, 1, .ro, 0x0, .pkg⟩ /- tripRec -/,
  ⟨.internal, 21, 0, 48, .ro, 0x0, .pkg⟩ /- stopSf -/,
  ⟨.internal, 21, 0, 48, .ro, 0x0, .pkg⟩ /- resumeSf -/,
  ⟨.internal, 20, 0, 2, .ro, 0x0, .pkg⟩ /- lkLocked -/,
  ⟨.internal, 20, 0, 1, .ro, 0x0, .pkg⟩ /- bootReady -/,
  ⟨.internal, 20, 0, 32, .ro, 0x0, .pkg⟩ /- svnRunning -/,
  ⟨.internal, 19, 0, 32, .ro, 0x0, .pkg⟩ /- fwBankSvn -/,
  ⟨.internal, 19, 0, 1, .ro, 0x0, .pkg⟩ /- fwSwapping -/,
  ⟨.internal, 19, 0, 1, .ro, 0x0, .pkg⟩ /- leSpareUsed -/,
  ⟨.internal, 16, 0, 1, .ro, 0x0, .pkg⟩ /- memTested -/,
  ⟨.internal, 16, 0, 1, .ro, 0x0, .pkg⟩ /- ceTableFull -/,
  ⟨.internal, 22, 0, 2, .ro, 0x0, .pkg⟩ /- auxLate -/,
  ⟨.internal, 16, 0, 1, .ro, 0x0, .pkg⟩ /- tagSeedPend -/]

/-- Rows 896 to 927 of the field table, in the order of `Fld`'s constructors. -/
def fldRows28 : List FldRow := [
  ⟨.internal, 19, 0, 32, .ro, 0x0, .pkg⟩ /- fwSvnLive -/,
  ⟨.internal, 21, 0, 2, .ro, 0x0, .pkg⟩ /- i2cAddr -/,
  ⟨.internal, 6, 0, 5, .ro, 0x0, .pkg⟩ /- losLow -/,
  ⟨.internal, 6, 0, 5, .ro, 0x0, .pkg⟩ /- losHigh -/,
  ⟨.internal, 6, 0, 9, .ro, 0x0, .pkg⟩ /- sigRun -/,
  ⟨.internal, 5, 0, 10, .ro, 0x0, .pkg⟩ /- errLowRun -/,
  ⟨.internal, 5, 0, 5, .ro, 0x0, .pkg⟩ /- errHighRun -/,
  ⟨.internal, 5, 0, 3, .ro, 0x0, .pkg⟩ /- trainRun -/,
  ⟨.internal, 5, 0, 20, .ro, 0x0, .pkg⟩ /- trainAt -/,
  ⟨.internal, 5, 0, 4, .ro, 0x0, .pkg⟩ /- trainMiss -/,
  ⟨.internal, 6, 0, 7, .ro, 0x0, .pkg⟩ /- cleanRun -/,
  ⟨.internal, 6, 0, 1, .ro, 0x0, .pkg⟩ /- outlierSeen -/,
  ⟨.internal, 6, 0, 1, .ro, 0x0, .pkg⟩ /- acqRestartPend -/,
  ⟨.internal, 5, 0, 1, .ro, 0x0, .pkg⟩ /- eqFrozen -/,
  ⟨.internal, 2, 0, 48, .ro, 0x0, .pkg⟩ /- cdUpdSf -/,
  ⟨.internal, 2, 0, 16, .ro, 0x0, .pkg⟩ /- cdcShare -/,
  ⟨.internal, 3, 0, 1, .ro, 0x1, .pkg⟩ /- xiUp -/,
  ⟨.internal, 3, 0, 16, .ro, 0x0, .pkg⟩ /- xiSnr -/,
  ⟨.internal, 6, 0, 16, .ro, 0x0, .pkg⟩ /- crEst -/,
  ⟨.internal, 6, 0, 17, .ro, 0x0, .pkg⟩ /- crStep -/,
  ⟨.internal, 6, 0, 32, .ro, 0x0, .pkg⟩ /- noiseEst -/,
  ⟨.internal, 6, 0, 64, .ro, 0x0, .pkg⟩ /- noiseSum -/,
  ⟨.internal, 6, 0, 20, .ro, 0x0, .pkg⟩ /- noiseCnt -/,
  ⟨.internal, 6, 0, 54, .ro, 0x0, .pkg⟩ /- noiseLf -/,
  ⟨.internal, 16, 0, 2, .ro, 0x0, .pkg⟩ /- chainPos -/,
  ⟨.internal, 16, 0, 1, .ro, 0x0, .pkg⟩ /- chainJoin -/,
  ⟨.internal, 16, 0, 7, .ro, 0x40, .pkg⟩ /- highAct -/,
  ⟨.internal, 16, 0, 7, .ro, 0x30, .pkg⟩ /- lowAct -/,
  ⟨.internal, 16, 0, 4, .ro, 0x8, .pkg⟩ /- shedStepAct -/,
  ⟨.internal, 16, 0, 4, .ro, 0x1, .pkg⟩ /- shedMinAct -/,
  ⟨.internal, 16, 0, 6, .ro, 0x18, .pkg⟩ /- iterMaxAct -/,
  ⟨.internal, 16, 0, 1, .ro, 0x1, .pkg⟩ /- otEnableAct -/]

/-- Rows 928 to 959 of the field table, in the order of `Fld`'s constructors. -/
def fldRows29 : List FldRow := [
  ⟨.internal, 16, 0, 4, .ro, 0x2, .pkg⟩ /- etMinAct -/,
  ⟨.internal, 16, 0, 1, .ro, 0x1, .pkg⟩ /- katEnAct -/,
  ⟨.internal, 16, 0, 8, .ro, 0x10, .pkg⟩ /- katPeriodAct -/,
  ⟨.internal, 16, 0, 48, .ro, 0x0, .pkg⟩ /- katServed -/,
  ⟨.internal, 16, 0, 1, .ro, 0x0, .pkg⟩ /- chainWait -/,
  ⟨.internal, 16, 0, 64, .ro, 0x0, .pkg⟩ /- berErrs -/,
  ⟨.internal, 16, 0, 48, .ro, 0x0, .pkg⟩ /- berBits -/,
  ⟨.internal, 20, 0, 31, .ro, 0x1, .pkg⟩ /- prbs31 -/,
  ⟨.internal, 16, 0, 8, .ro, 0x0, .pkg⟩ /- sliceMfas -/,
  ⟨.internal, 20, 0, 10, .ro, 0x12c, .pkg⟩ /- budgetAct -/,
  ⟨.internal, 20, 0, 6, .ro, 0x4, .pkg⟩ /- guardAct -/,
  ⟨.internal, 20, 0, 8, .ro, 0x5f, .pkg⟩ /- tWarnAct -/,
  ⟨.internal, 20, 0, 8, .ro, 0x64, .pkg⟩ /- tThrottleAct -/,
  ⟨.internal, 20, 0, 4, .ro, 0x3, .pkg⟩ /- tHystAct -/,
  ⟨.internal, 20, 0, 6, .ro, 0x8, .pkg⟩ /- stepSlewAct -/,
  ⟨.internal, 20, 0, 1, .ro, 0x0, .pkg⟩ /- decParkAct -/,
  ⟨.internal, 20, 0, 12, .ro, 0x521, .pkg⟩ /- stepMwAct -/,
  ⟨.internal, 20, 0, 12, .ro, 0x410, .pkg⟩ /- otUwAct -/,
  ⟨.internal, 20, 0, 8, .ro, 0x1e, .pkg⟩ /- surveyDwAct -/,
  ⟨.internal, 20, 0, 48, .ro, 0x0, .pkg⟩ /- grantSf -/,
  ⟨.internal, 20, 0, 48, .ro, 0x0, .pkg⟩ /- thermFastSf -/,
  ⟨.internal, 16, 0, 3, .ro, 0x0, .pkg⟩ /- sweepRun -/,
  ⟨.internal, 6, 0, 4, .ro, 0x0, .pkg⟩ /- smBei -/,
  ⟨.internal, 6, 0, 4, .ro, 0x0, .pkg⟩ /- odBei -/,
  ⟨.internal, 6, 0, 1, .ro, 0x0, .pkg⟩ /- tcmBdiTx -/,
  ⟨.internal, 6, 0, 2, .ro, 0x0, .pkg⟩ /- tcmBdiTxRun -/,
  ⟨.internal, 6, 0, 3, .ro, 0x0, .pkg⟩ /- oduClientSig -/,
  ⟨.internal, 6, 0, 14, .ro, 0x0, .pkg⟩ /- gmpTxCm -/,
  ⟨.internal, 6, 0, 18, .ro, 0x0, .pkg⟩ /- gmpTxCnd -/,
  ⟨.internal, 6, 0, 14, .ro, 0x0, .pkg⟩ /- gmpRxCm -/,
  ⟨.internal, 6, 0, 18, .ro, 0x0, .pkg⟩ /- gmpRxCnd -/,
  ⟨.internal, 6, 0, 24, .ro, 0x0, .pkg⟩ /- gmpRxBytes -/]

/-- Rows 960 to 977 of the field table, in the order of `Fld`'s constructors. -/
def fldRows30 : List FldRow := [
  ⟨.internal, 19, 0, 10, .ro, 0x3ff, .pkg⟩ /- txMapCtx -/,
  ⟨.internal, 19, 0, 1, .ro, 0x0, .pkg⟩ /- txMapDie -/,
  ⟨.internal, 19, 0, 1, .ro, 0x0, .pkg⟩ /- rxMapWait -/,
  ⟨.internal, 6, 0, 1, .ro, 0x0, .pkg⟩ /- pairAgFarLoss -/,
  ⟨.internal, 11, 0, 3, .ro, 0x2, .pkg⟩ /- timBwUse -/,
  ⟨.internal, 11, 0, 1, .ro, 0x0, .pkg⟩ /- timReturn -/,
  ⟨.internal, 6, 0, 4, .ro, 0xf, .pkg⟩ /- sliceQlTx -/,
  ⟨.internal, 20, 0, 18, .ro, 0x0, .pkg⟩ /- fetchRing -/,
  ⟨.internal, 20, 0, 3, .ro, 0x0, .pkg⟩ /- fetchCount -/,
  ⟨.internal, 20, 0, 1, .ro, 0x0, .pkg⟩ /- snapTaken -/,
  ⟨.internal, 20, 0, 64, .ro, 0x0, .pkg⟩ /- sopTaken -/,
  ⟨.internal, 21, 0, 384, .ro, 0x0, .pkg⟩ /- fuseKeyHash -/,
  ⟨.internal, 21, 0, 1, .ro, 0x0, .pkg⟩ /- fuseKeyRevoked -/,
  ⟨.internal, 20, 0, 12, .ro, 0x0, .pkg⟩ /- tempCode -/,
  ⟨.internal, 20, 0, 1, .ro, 0x0, .pkg⟩ /- tempGood -/,
  ⟨.internal, 20, 0, 32, .ro, 0x0, .pkg⟩ /- supSum -/,
  ⟨.internal, 20, 0, 16, .ro, 0x0, .pkg⟩ /- supCount -/,
  ⟨.internal, 20, 0, 1, .ro, 0x0, .pkg⟩ /- supTagged -/]

/-- The field table, in pieces of 32 rows. -/
def fldRows : List (List FldRow) := [
  fldRows0, fldRows1, fldRows2, fldRows3, fldRows4, fldRows5, fldRows6, fldRows7, fldRows8, fldRows9, fldRows10, fldRows11, fldRows12, fldRows13, fldRows14, fldRows15, fldRows16, fldRows17, fldRows18, fldRows19, fldRows20, fldRows21, fldRows22, fldRows23, fldRows24, fldRows25, fldRows26, fldRows27, fldRows28, fldRows29, fldRows30]

/-- The row with the given number (a row past the table has no bits). -/
def fldRowAt (k : Nat) : FldRow :=
  ((fldRows.getD (k / 32) []).getD (k % 32)) ⟨.internal, 0, 0, 0, .ro, 0, .pkg⟩

/-- A field's row. An internal scalar has no place: its offset says what loses it (`Loss`). -/
def Fld.row (f : Fld) : FldRow := fldRowAt f.ctorIdx


/-- The fields of a block, in table order. -/
def Blk.fields : Blk → List Fld
  | .winz => [.winzLinkUp, .winzDegraded, .winzSpareExhausted, .winzPeerIncarnation, .winzLocalIncarnation, .winzCreditsAvail, .winzCreditsMax, .winzCrcErrors, .winzAbortedRequests, .winzStaleReplies, .winzTxUnderrun, .winzClearAll]
  | .tally => [.tallySnapOff, .tallySnapSfLo, .tallySnapSfHi, .tallyWakeAdvanceLo, .tallyWakeErrSf, .tallySurfClkLost, .tallyOriginLost, .tallySurfPpm, .tallySetSfLo, .tallySetSfHi, .tallyWakeAdvanceHi]
  | .shift => [.shiftLastStatus, .shiftPending, .shiftSeq]
  | .acc => [.accPartialWrites, .accDeadAccesses, .accClearAll]
  | .view => [.viewViewOffshift, .viewFrozen, .viewStale, .viewHeldWrites]
  | .dom => [.domState, .domBusy]
  | .far => [.farValid, .farRxSwapPredicted, .farRxSwapJumped, .farSfLo, .farSfHi, .farArrSfLo, .farArrSfHi, .farArrOffset]
  | .adc => [.adcCalFreeze, .adcTiaReqEn, .adcTiaUpEn, .adcCalSkipLimit, .adcOvrThresh, .adcTiaHoldoff, .adcTiaUpLevel, .adcTiaUpSf]
  | .adc2 => [.adcOvrSticky, .adcCalHalted, .adcCalStarved, .adcSpareRetired, .adcTiaAtMin, .adcCalUnit, .adcOvrSfCount, .adcOvrSfTotal, .adcCalDiscards, .adcCalRotations, .adcTiaRequests, .adcTiaGainShadow]
  | .lanecorr => [.lanecorrDelay, .lanecorrGain]
  | .dac => [.dacTxEnable, .dacSwing, .dacOeTxdisForce, .dacFaultAutodis]
  | .dac2 => [.dacTxDelay, .dacPre2, .dacPre1, .dacMain, .dacPost1, .dacPost2, .dacClipSf]
  | .site => [.sitePresent, .siteFault, .siteFaultSticky, .siteTxdisState, .sitePresentChanged, .siteTxdisCause, .sitePtrimRail]
  | .spi => [.spiSclkDiv, .spiCmdWr, .spiCmdRd]
  | .tia => [.tiaAddrBase, .tiaMin, .tiaMax, .tiaStep]
  | .ptrim => [.ptrimEn, .ptrimDead, .ptrimTarget, .ptrimAddr, .ptrimShadow]
  | .bias => [.biasCode, .biasRail]
  | .loop => [.loopMode, .loopPushpull, .loopQuadPol, .loopDitherAmp, .loopChipSf, .loopSamplesPerChip, .loopAvgPeriods, .loopGainIq, .loopGainP, .loopLockThresh, .loopState, .loopBiasDiscard]
  | .rx => [.rxEnable, .rxSubcarriers, .rxEqMode, .rxRolloff, .rxCarrierFreq]
  | .cdc => [.cdcCdSet, .cdcCdMode, .cdcCdSpan, .cdcFft, .cdcCdEst, .cdcFftActive]
  | .nlc => [.nlcSpanCount, .nlcSpanLen, .nlcAtten, .nlcXiAuto, .nlcGamma, .nlcLaunchPwr, .nlcXi, .nlcFilt, .nlcStepsGranted, .nlcStepsActive, .nlcActive, .nlcXiCurrent]
  | .eq => [.eqTaps, .eqMu, .eqFreeze]
  | .cr => [.crPilotWin, .crDdWin, .crSlipDetEn, .crFreqHint, .crFreqHintEn, .crLlrStep, .crFreqOffset]
  | .acq => [.acqRestart, .acqLosThresh, .acqWarmWindow, .acqState, .acqLos, .acqLockLost, .acqLastFailState, .acqFailures]
  | .slip => [.slipSlipsX, .slipSlipsY, .slipPilotOutliers]
  | .slip2 => [.slipCorrQueue, .slipRedecoded, .slipLate, .slipClearAll]
  | .tx => [.txSubcarriers, .txRolloff, .txPilotAmp, .txRms]
  | .ltx => [.ltxEntH, .ltxClass, .ltxCode, .ltxM, .ltxAutoH, .ltxHActive, .ltxAnnouncing, .ltxRetuneCancelled, .ltxFill]
  | .lrx => [.lrxEntH, .lrxClass, .lrxCode, .lrxM, .lrxAutoH, .lrxAnnH, .lrxAnnClass, .lrxAnnCode, .lrxAnnM, .lrxAnnStaged, .lrxRetuneMissed, .lrxAnnCancelSeen, .lrxAnnTargetLo, .lrxAnnTargetHi, .lrxRetunesDone, .lrxRetunesMissed, .lrxDmMismatch]
  | .pool => [.poolHighMark, .poolLowMark, .poolShedStep, .poolShedMinIter, .poolIterMaxOt, .poolOtEnable, .poolEtMin, .poolKatEn, .poolKatPeriod]
  | .pool2 => [.poolEnginesInService, .poolShedding, .poolDomainsRun, .poolOtTokens, .poolOtGrant]
  | .eng => [.engRetired, .engSpareInUse, .engSpareExhausted]
  | .selfchk => [.selfchkFail, .selfchkKatSkipped]
  | .dec => [.decCapGrant, .decCapEffective, .decUnfinished, .decUnfinishedHwm, .decChainRunning, .decPhaseKnown, .decPhase, .decPhaseConflict, .decChainRestarts, .decReleased, .decIterSum, .decOtIterations, .decCapped, .decShedBlocks, .decOuterCorr, .decOuterUncorr, .decClearAll]
  | .frm => [.frmState, .frmShapeLocked, .frmShapePhase, .frmLofSticky, .frmDescMismatch, .frmMsgOverflow, .frmSyncOffset, .frmLofCount, .frmFalseSync, .frmOhCrcErrors, .frmGroupIdSeen, .frmMemberIdxSeen, .frmMemberCntSeen, .frmMsgRxData, .frmMsgAvail, .frmMsgTxData, .frmTxLevel, .frmClearAll]
  | .lg => [.lgMembers, .lgTxGroupId, .lgRxGroupId, .lgSkewMaxSf, .lgRefRestart, .lgInService, .lgSkewDefect, .lgRefCarrier, .lgRefValid, .lgMemberExits, .lgMemberReturns, .lgFailAll, .lgLb, .lgLbCont]
  | .lg2 => [.lgSigma, .lgSigmaValid]
  | .odu => [.oduType, .oduEnable, .oduClientKind, .oduClientPort, .oduParentCtx, .oduParentDie, .oduTsCount, .oduFlexRate, .oduLb, .oduLbCont, .oduLoTs0, .oduLoTs1, .oduLoTs2, .oduTcmMode, .oduTimMode, .oduTimAct, .oduApsMon, .oduInsEn, .oduExtEn, .oduExtDiv, .oduApsPersist, .oduRepForce, .oduApsTxVal, .oduApsTxLevel, .oduSsf, .oduDAis, .oduDLck, .oduDOci, .oduDBdi, .oduDTim, .oduDPlm, .oduDMsim, .oduDCsf, .oduTcmFail, .oduApsChanged, .oduTxRepActive, .oduRxRepActive, .oduInsRepeat, .oduExtDrop, .oduBipErrors, .oduBeiErrors, .oduImpOverflow, .oduImpUnderflow, .oduClearAll]
  | .odu2 => [.oduApsRx]
  | .lmap => [.lmapCtx, .lmapDie]
  | .fmap => [.fmapCtx, .fmapDie]
  | .slice => [.sliceFail, .sliceDBdi, .sliceDTim, .sliceBdiTx, .sliceInsEn, .sliceExtEn, .sliceExtDiv, .sliceTimMode, .sliceTimAct, .sliceBipErrors, .sliceInsRepeat, .sliceExtDrop]
  | .tti => [.ttiOduTx, .ttiOduExp, .ttiOduAcc]
  | .tti2 => [.ttiSliceTx, .ttiSliceExp, .ttiSliceAcc]
  | .lane => [.laneRate, .laneTxPolInv, .laneRxPolInv, .laneTrainEn, .laneCdrLock, .laneBlockLock, .laneTrainState, .laneLockLosses, .laneTrainFailures, .laneGenPat, .laneGenEn, .laneChkPat, .laneChkEn, .laneInvert, .laneInjSingle, .laneInjBurst, .laneBurstLen, .laneInjBusy, .laneChkLock, .laneChkLost, .lanePrbsErrLo, .lanePrbsErrHi, .lanePrbsBitsLo, .lanePrbsBitsHi]
  | .port => [.portMode, .portWidth, .portFlexoBase, .portSquelch]
  | .port2 => [.portAlignLock, .portCwCorrected, .portCwUncorrectable]
  | .xc => [.xcQuads, .xcPartnerId, .xcLostUs, .xcLinkUp, .xcPartnerLost, .xcPartnerTstate, .xcPartnerQl, .xcPartnerIdSeen, .xcToffLo, .xcToffHi, .xcBadCtrl, .xcLinkDowns]
  | .pair => [.pairCtx, .pairEn, .pairRole, .pairOnLoss, .pairSelForce, .pairApsEn, .pairApsLevel, .pairRoleActive, .pairSelLeg, .pairAgreed, .pairTookOver, .pairSwitches, .pairSwHit]
  | .cry => [.cryKeyLimitLog2, .cryPipesInService, .crySpareInUse, .crySpareExhausted, .cryKekLoaded, .cryKwBusy, .cryPipeRetired, .cryDupMismatch, .cryKwMismatch]
  | .page => [.pageFunc, .pageFuncValid]
  | .page2 => [.pageCompat, .pageKeyWarn, .pageKeyStaged, .pageKeyMissed, .pageTxFramesLo, .pageTxFramesHi, .pageLaCtrLo, .pageLaCtrHi]
  | .page3 => [.pageSlotLoaded, .pageSlotKeyIdx]
  | .strm => [.strmTargetKind, .strmTarget, .strmPage, .strmTxEn, .strmRxEn, .strmRepSel, .strmNum, .strmFarId, .strmTxState, .strmRxState, .strmSeqLock, .strmDUntrusted, .strmTxSeqLo, .strmTxSeqHi, .strmAuthFail, .strmKeyIdxMiss, .strmUntrusted, .strmSeqUnlocked]
  | .tim => [.timMode, .timForceCand, .timRevertive, .timQlEn, .timQlOption, .timDpllBw, .timAcqBw, .timWtrS, .timPpsSel, .timHoldoffMs, .timHoldoverQl, .timFreerunQl, .timStepSlew, .timWarnThr, .timDisqThr, .timRequalThr, .timTstate, .timSelCand, .timSwitching, .timStepBusy, .timXoLost, .timHistS, .timOutQl, .timRequalS, .timPps0Valid, .timPps1Valid, .timSwitches, .timHoldovers, .timPpsJumps, .timPstep, .timPstepPending, .timPpsTallyOff, .timPpsTallySfLo, .timPpsTallySfHi]
  | .pps => [.ppsOffset, .ppsWidth, .ppsEn, .ppsSquelchUnlocked, .ppsRealign]
  | .clk => [.clkFreqHz, .clkEn, .clkSquelch, .clkRealign]
  | .cand => [.candEn, .candPrio, .candHostQl, .candWtrClear, .candRefFreqHz, .candActive, .candQualified, .candSoftWarn, .candWtrRunning, .candEligible, .candRxQl, .candQlTimeout, .candFreqOff, .candWtrLeftS, .candRequalLeftS]
  | .csel => [.cselLane, .cselSelEn]
  | .host => [.hostFwReady, .hostAdminReady, .hostAdminErr, .hostBigRingSpace, .hostOpsInFlight, .hostAdminEn, .hostSqL, .hostCqL, .hostEqL, .hostSqLo, .hostSqHi, .hostCqLo, .hostCqHi, .hostEqLo, .hostEqHi]
  | .vf => [.vfWindowBase, .vfWindowValid, .vfOpsMax, .vfOpsInFlight]
  | .pwr => [.pwrBudgetW, .pwrGuardW, .pwrTWarn, .pwrTThrottle, .pwrTHyst, .pwrStepSlew, .pwrDecParkEn, .pwrStepMw, .pwrOtUw, .pwrSurveyDw, .pwrPMeasW, .pwrPGrantedW, .pwrFloorOver, .pwrHsBusy, .pwrTelemStale, .pwrLampClearAll, .pwrLampUsed, .pwrLampOverflow, .pwrRefusals, .pwrAborts]
  | .car => [.carNlFloor, .carCapFloor, .carStepMax, .carCapTarget, .carStepsGrant, .carCapGrant, .carSurveyDuty, .carThermLevel, .carSurveyReq, .carMargin]
  | .pmill => [.pmillOtMax, .pmillAssayKMin, .pmillOtGrant, .pmillAssayK, .pmillThermLevel, .pmillDecParked]
  | .pdie => [.pdieTemp, .pdieTempPeak, .pdiePDie, .pdieStale]
  | .lamp => [.lampBlock, .lampReason, .lampReqState, .lampValid, .lampCount, .lampFirstSf, .lampLastSf]
  | .mem => [.memCeThresh, .memCeUsed, .memMarchBusy, .memCanaryBusy, .memCanaryQueue, .memRepairExhausted, .memRepairPendFull, .memCeTotal, .memUeTotal, .memPartialRefused, .memCeUnlogged, .memCanaryDropped, .memWriteLost, .memSpBusyEvents, .memCeFree, .memCntClear]
  | .ce => [.ceMemId, .ceValid, .ceMultiSyndrome, .ceCanaryState, .ceHitCount, .ceAddress, .ceSyndrome, .ceFirstSf, .ceLastSf]
  | .mem2 => [.memConflictCycles]
  | .rep => [.repMemId, .repValid, .repSource, .repApplied, .repBank, .repRow]
  | .lespare => [.lespareInUse, .lespareExhausted, .lespareRetiredEngine, .lespareLockstepMismatch]
  | .queue => [.queueOccupancy, .queueHwm]
  | .aux => [.auxRefEn, .auxRefSettled, .auxCal, .auxCalBusy, .auxRegMode, .auxRegStart, .auxRegCh, .auxRegPeriod, .auxQueueInj, .auxQResult, .auxQChannel, .auxQInjected, .auxQOverrange, .auxQNotSettled, .auxQSimultaneous, .auxQValid, .auxQOffset, .auxQSfLow, .auxQLevel, .auxInjDropped, .auxQDrop]
  | .thr => [.thrQueue, .thrEn, .thrLevel]
  | .tag => [.tagEn, .tagSeed, .tagKActive, .tagMissed]
  | .mon => [.monPrefecBer, .monQDb, .monSnrDb, .monGsnrDb, .monOsnrDb, .monCd, .monDgdPs, .monPdl, .monFreqOffset, .monSf, .monTrxSnr, .monSopRate, .monSopThr, .monSopRatePeak]
  | .assay => [.assayEventId]
  | .assay2 => [.assayBatchGo, .assayBatchBusy, .assayBatchLen]
  | .assay3 => [.assayCountLo, .assayCountHi, .assayStamp]
  | .chip => [.chipStepping, .chipConfig, .chipSpeed200, .chipPkgId, .chipBootsel, .chipBootFallback, .chipBootFailed, .chipBootFailReason, .chipMarchPreserve, .chipSvnCommit, .chipSecFailReason, .chipSvnFused, .chipPor, .chipWake, .chipPkgReset, .chipTrip, .chipTripDie, .chipRailFault]
  | .fw => [.fwStaged, .fwRunning, .fwSvnRunning]
  | .bin => [.binArrayReady, .binRingCtxHome, .binRefresh2x, .binCapacityGib]
  | .internal => []

/-- Blocks 0 to 15. -/
def blkPart0 : List Blk :=
  [.winz, .tally, .shift, .acc, .view, .dom, .far, .adc, .adc2, .lanecorr, .dac, .dac2, .site, .spi, .tia, .ptrim]

/-- Blocks 16 to 31. -/
def blkPart1 : List Blk :=
  [.bias, .loop, .rx, .cdc, .nlc, .eq, .cr, .acq, .slip, .slip2, .tx, .ltx, .lrx, .pool, .pool2, .eng]

/-- Blocks 32 to 47. -/
def blkPart2 : List Blk :=
  [.selfchk, .dec, .frm, .lg, .lg2, .odu, .odu2, .lmap, .fmap, .slice, .tti, .tti2, .lane, .port, .port2, .xc]

/-- Blocks 48 to 63. -/
def blkPart3 : List Blk :=
  [.pair, .cry, .page, .page2, .page3, .strm, .tim, .pps, .clk, .cand, .csel, .host, .vf, .pwr, .car, .pmill]

/-- Blocks 64 to 79. -/
def blkPart4 : List Blk :=
  [.pdie, .lamp, .mem, .ce, .mem2, .rep, .lespare, .queue, .aux, .thr, .tag, .mon, .assay, .assay2, .assay3, .chip]

/-- Blocks 80 to 81. -/
def blkPart5 : List Blk :=
  [.fw, .bin]

/-- Every block with a place. -/
def Blk.all : List Blk := List.flatten [blkPart0, blkPart1, blkPart2, blkPart3, blkPart4, blkPart5]

/-- The reset value of instance `i` of the field with number `k`: the table's, but for LGRP_CFG.members, which is
1 << g (R316), and its receive copy. -/
def resetOfIdx (k i : Nat) : Nat :=
  if k = Fld.lgMembers.ctorIdx ∨ k = Fld.lgRxMembers.ctorIdx then 2 ^ (i % 4) else (fldRowAt k).reset

/-- The reset value of instance `i` of a field. -/
def Fld.resetAt (f : Fld) (i : Nat) : Nat := resetOfIdx f.ctorIdx i

end Sys2Proof.Machine
end

