-- ==== Sys2Proof/Machine/State.lean ====
section
/-! DEFINITION. The machine's state as plain data, the two ways a step may stop, and the state right after power-on. -/

namespace Sys2Proof.Machine

/-- Why a step stops with a fault. No meaning of this model raises one: the manual gives the block no fault that stops it.
Safe: an outcome that never occurs. -/
inductive Fault
  | none
  deriving DecidableEq, Repr

/-- Why a step is refused: the command has no meaning in this model yet. Safe: nothing is claimed of the machine. -/
inductive Refusal
  | notModelled (mnemonic : String)
  deriving DecidableEq, Repr

/-- Register values by key (`Fld.key`); an unlisted key reads as its reset value. -/
abbrev Store := List (Nat × Nat)

/-- Bytes by address. -/
abbrev Mem := List Host.Cell

/-- A pending event entry (R500, R501): `func` is the function it names, `dest` the function whose Event ring it goes to
(R479). -/
structure Event where
  reason : Nat
  block : Nat
  func : Option Nat
  dest : Nat
  arg0 : Nat
  arg1 : Nat
  stamp : Nat
  far : Option Nat
  repeats : Nat
  deriving DecidableEq, Repr

/-- A ring context (R477, R490). Indices count modulo 2 × 2^L (R482). `fresh` counts the entries written and not yet
signalled (R503, R504), `freshNow` says that one of them asked for an interrupt at once. -/
structure Ring where
  owner : Nat
  cls : Nat
  lg : Nat
  base : Nat
  cq : Nat
  vec : Nat
  irqEn : Bool
  modCount : Nat
  modTime : Nat
  page : Nat
  pageDie : Nat
  partIdx : Nat
  hostIdx : Nat
  source : Option (Nat × Nat × Nat)
  armed : Bool
  fresh : Nat
  freshNow : Bool
  closing : Bool
  deriving DecidableEq, Repr

/-- A descriptor in flight (R507) with its opcode. -/
structure Op where
  opcode : Nat
  desc : Desc
  deriving DecidableEq, Repr

/-- A completion waiting for room on its Completion ring `cq` (R497); `aimed` is the die that its request went to, for the
requests that a reset of the die waits for (R39). -/
structure Compl where
  fn : Nat
  ring : Nat
  cq : Nat
  opcode : Nat
  tag : Nat
  status : Nat
  result : Nat
  irqNow : Bool
  aimed : Option Die
  deriving DecidableEq, Repr

/-- A register write held while its die is frozen (R60); `pkg` marks a write to the package window, which M0 stores
(R657). -/
structure HeldWrite where
  die : Die
  pkg : Bool
  off : Nat
  val : Nat
  deriving DecidableEq, Repr

/-- The commit in progress (R64 to R70): its operation, the target SF, each carrier's receive target (0 for none named),
the dies that take part with their incarnations at PREPARE, the answers received, whether the go-ahead was sent and which
dies hold it, and the swaps still to come. `lost` holds the dies that lost their path after they had accepted (R79),
`predict` the carriers whose far tally was invalid at the go-ahead or since (R73), `jumped` those whose far tally jumped past
their target (R75); `newRate` says that the symbol rate has changed with it (R74). -/
structure Commit where
  op : Op
  target : Nat
  rx : List Nat
  dies : List (Die × Nat)
  replies : List (Die × Bool)
  goSent : Bool
  go : List Die
  txLeft : List Die
  rxLeft : List Nat
  grpLeft : List Nat
  lost : List Die := []
  predict : List Nat := []
  jumped : List Nat := []
  newRate : Bool := false
  deriving DecidableEq, Repr

/-- A request outstanding on the winze links (R35): the descriptor it serves by ring and slot, its target, and the
incarnation of the target that it carries. -/
structure Request where
  ring : Nat
  slot : Nat
  die : Die
  dom : Nat
  inc : Nat
  deriving DecidableEq, Repr

/-- A canary test of a unit (R569 to R573): its kind and index, the memory and address for a memory word, and whether it
has started. For another unit `mem` is 1 where no spare has taken its place. -/
structure Canary where
  die : Die
  kind : Nat
  idx : Nat
  mem : Nat
  addr : Nat
  running : Bool
  deriving DecidableEq, Repr

/-- What an SPI transaction of an attach site does (R129): a TIA gain write of a lane, raised or lowered, a power-trim write,
raised or lowered, a host transaction. -/
inductive SpiKind
  | tia (lane : Nat) (up : Bool)
  | trim (up : Bool)
  | host (d : Desc)
  deriving DecidableEq, Repr

/-- An SPI transaction of a Face die's site; once it runs, the bytes it sends on OE_MOSI (R128). -/
structure SpiReq where
  die : Die
  kind : SpiKind
  bytes : List Nat := []
  deriving DecidableEq, Repr

/-- A slip record on its way to, or held by, the LLR queue of a carrier (R179): polarisation, subcarrier, rotation, the far
SF and the symbols from `start` up to the confirming pilot `stop`. -/
structure SlipRec where
  n : Nat
  pol : Nat
  sub : Nat
  k : Nat
  sf : Nat
  start : Nat
  stop : Nat
  deriving DecidableEq, Repr

/-- Where a position stands in the pool (R262 to R268): waiting for an engine, in one, or finished. -/
inductive PosPhase
  | waiting
  | decoding (engine : Nat)
  | finished
  deriving DecidableEq, Repr

/-- A complete position in the LLR queue of a carrier (R240, R262): its far SF and index, the tally position at which it
became complete, its LLR words by symbol, and how its decoding stands. The fields from `first` to `fin` feed its tag record
(R609). `cls`, `code`, `m` and `h` are the rate of its SF, and `last` says that its chain ends with it (R250). `anchor` counts the
positions before it in its chain, held at 2 (R248, R251); `post` and `par` hold the decoder's values of its variables and inner
parity bits, negative for a 1, and `msgs` the last messages of each check along its edges (R246, R263), all empty before its first
iteration; `waits` says that it has converged and waits for the two after it (R264); `unsat` and `early` are the checks unsatisfied
and the decisions after the first iteration (R271, R272). -/
structure Pos where
  n : Nat
  sf : Nat
  j : Nat
  done : Nat
  llrs : List (List (BitVec 4))
  phase : PosPhase
  iters : Nat
  overtime : Nat
  converged : Bool
  redecoding : Bool
  redecoded : Bool
  late : Bool
  joined : Bool
  first : Nat
  tagged : Bool
  engine : Nat
  cap : Nat
  start : Nat
  fin : Nat
  cls : Nat := 0
  code : Nat := 0
  m : Nat := 0
  h : Nat := 0
  last : Bool := false
  anchor : Nat := 2
  post : List Int := []
  par : List Int := []
  msgs : List (List Int) := []
  waits : Bool := false
  unsat : Nat := 0
  early : List Nat := []
  deriving DecidableEq, Repr

/-- One active step of nonlinear compensation (R160 to R162): the fibre it covers as `num` spans or one part in `den` of a span, the
dispersion its linear section compensates, in 0.005 ns/nm / 65,536, and the magnitude of its rotation at mean power, in
2^-32 rad. -/
structure NlcStep where
  num : Nat
  den : Nat
  lin : Int
  phi : Nat
  deriving DecidableEq, Repr

/-- The active steps of a carrier from the receiver end, and the bandwidth of the power filter in Rs / 64 (R160, R162). -/
structure NlcPlan where
  steps : List NlcStep
  filt : Nat
  deriving DecidableEq, Repr

/-- What a carrier's transmitter holds between line frames (R209, R246, R255, R285, R287): the SF it codes and the line frame sent
last, how many positions of the SF are coded, the scrambler, the content bits handed over and not yet sent, the content bits sent of
the OTUCn-M frame in progress with its place in the multiframe of 20 and its MFAS, the amplitudes left of the shaping blocks in
progress, the non-parity variables of the two positions before with their index in the SF (newest first), the last outer block, the
payload bits consumed in the segment in progress, and the coded dimensions (sign bit, amplitude) not yet sent. `whole` says that
every line frame of the SF so far was sent unfilled, `paused` that the DACs have paused since such an SF. -/
structure TxLine where
  sf : Nat := 0
  lf : Nat := 0
  next : Nat := 0
  scr : Nat := 0
  content : List Nat := []
  frameAt : Nat := 0
  omfi : Nat := 0
  mfas : Nat := 0
  ampX : List Nat := []
  ampY : List Nat := []
  prev : List (Nat × List Nat) := []
  outer : List (List Nat) := []
  seg : List Nat := []
  queue : List (Nat × Nat) := []
  whole : Bool := false
  paused : Bool := false
  deriving DecidableEq, Repr

/-- A line frame as it left a carrier (R20, R45, R207, R214 to R219): its SF and index, whether it was filled, its symbols as the
four dimensions X.I, X.Q, Y.I, Y.Q, the scale to the DAC code in 1/65,536, the subcarriers' centres and the occupied bandwidth in kHz,
and the half band in kHz beyond which the spectrum is dropped (0 for none). -/
structure LineFrame where
  sf : Nat
  lf : Nat
  filled : Bool
  syms : List (List Int)
  scale : Nat
  centres : List Int
  width : Nat
  cut : Nat
  deriving DecidableEq, Repr

/-- A block of the outer code at the receiver (R255, R259): its rows as decided, and how many of its payload cells carry bits. -/
structure OuterBlk where
  rows : List (List Nat)
  used : Nat
  deriving DecidableEq, Repr

/-- A segment whose positions are all released (R255, R257): its payload bit count and its outer check bits in slot order. -/
structure OuterSeg where
  used : Nat
  checks : List Nat
  deriving DecidableEq, Repr

/-- A test of the FEC phase (R252): a position's SF and index, its decoded swing bit, its slot's sign and its decoded last
parity bit. -/
structure PhaseTest where
  sf : Nat
  j : Nat
  swing : Nat
  slot : Nat
  par : Nat
  deriving DecidableEq, Repr

/-- What a carrier's dematcher and outer decoder hold between positions (R213, R252, R255 to R259): the amplitudes of the shaping
blocks in progress with their class and h and the payload sign bits since they began, whether they began in sight, the payload
bits in line order not yet in a block, the outer check bits of the segment in progress (none while it did not begin in sight), the
whole segments whose bits are still coming, the blocks in the decoder's window (oldest first), the block released last, the
payload bits it released last, and the phase tests of the window. -/
structure RxLine where
  ampX : List Nat := []
  ampY : List Nat := []
  blkCls : Nat := 0
  blkH : Nat := 512
  signs : List Nat := []
  inBlock : Bool := false
  bits : List Nat := []
  seg : Option (List Nat) := none
  segs : List OuterSeg := []
  blocks : List OuterBlk := []
  before : Option OuterBlk := none
  out : List Nat := []
  tests : List PhaseTest := []
  deriving DecidableEq, Repr

/-- A telemetry record of a source, waiting for room on the ring bound to it (R590, R592). -/
structure Telem where
  source : Nat
  die : Nat
  recType : Nat
  gap : Bool
  stamp : Nat
  payload : List Byte
  deriving DecidableEq, Repr

/-- Trail traces being received for a layer (R329): its key, the bytes of the multiframe in progress, the last whole one
and how many in a row were equal to it. -/
structure TtiRec where
  key : Nat
  cur : List Byte
  last : List Byte
  run : Nat
  deriving DecidableEq, Repr

/-- Payload structure identifiers being received for a layer (R329): the last whole one and how many in a row were equal
to it. -/
structure PsiRec where
  key : Nat
  last : Psi
  run : Nat
  deriving DecidableEq, Repr

/-- A lookaside operation that runs (R426 to R428): its descriptor, the key it started with, its slot and its IV. -/
structure LaOp where
  op : Op
  page : Nat
  slot : Nat
  key : Nat
  iv : Nat
  dead : Bool
  deriving DecidableEq, Repr

/-- What became of a received frame (R419 to R422): passed on decrypted, passed on clear, or replaced by ODU-AIS. -/
inductive Fate
  | plain | clear | ais
  deriving DecidableEq, Repr

/-- A transmit frame as it leaves the encryptor (R395, R396, R423): its replacement signal if it is replaced (1 AIS, 2 LCK,
3 OCI), its COH bytes, and its payload. -/
structure CipherFrame where
  replaced : Nat
  seqb : Nat
  cst : Nat
  tag : Nat
  data : List Byte
  deriving DecidableEq, Repr

/-- A running TABLE_LOAD (R493): its operation, its die and the words discarded. -/
structure Load where
  op : Op
  die : Die
  discarded : Nat
  deriving DecidableEq, Repr

/-- A power request in the shift boss's queue (R517, R518): the host's operation, or none for the shift boss's own
(R530, R531); the state asked for, the domains named, force, whether it is at package scope, and the boundary of
at_tally. -/
structure PwrReq where
  op : Option Op
  target : Nat
  doms : List (Die × Nat)
  force : Bool
  pkg : Bool
  boundary : Option Nat
  deriving DecidableEq, Repr

/-- What a domain has answered to REQUEST (R519). -/
inductive PwrAns
  | none | delay | grant
  | refuse (reason : Nat)
  deriving DecidableEq, Repr

/-- An affected domain of the request that runs: its answer, and whether the shift boss has received it. -/
structure PwrDom where
  die : Die
  dom : Nat
  ans : PwrAns
  seen : Bool
  deriving DecidableEq, Repr

/-- The power request that runs (R519 to R525): the SF of REQUEST, the affected domains in the order in which they enter,
and the boundary of ENTER once it is sent. -/
structure PwrRun where
  req : PwrReq
  since : Nat
  doms : List PwrDom
  enter : Option Nat
  deriving DecidableEq, Repr

/-- Grants of the shift boss (R528): steps, cap and survey duty by carrier, overtime and k by Mill die. -/
structure Grants where
  steps : List Nat
  cap : List Nat
  survey : List Nat
  ot : List Nat
  k : List Nat
  deriving DecidableEq, Repr

/-- A march that runs (R562 to R567): its memory, its mode, whether it repairs, and the operation that asked for it. -/
structure March where
  die : Die
  mem : Nat
  preserve : Bool
  repair : Bool
  op : Op
  deriving DecidableEq, Repr

/-- A reset that runs (R635 to R637): of a domain, or of the die where `dom` is 63. -/
structure ResetRun where
  op : Op
  die : Die
  dom : Nat
  destructive : Bool
  deriving DecidableEq, Repr

/-- An auxiliary result (R586): the die, the code, the channel, the four tags and the tally position of its sample. -/
structure AuxEntry where
  die : Die
  code : Nat
  ch : Nat
  injected : Bool
  overrange : Bool
  unsettled : Bool
  simul : Bool
  stamp : Nat
  deriving DecidableEq, Repr

/-- An auxiliary conversion, waiting or in progress (R583, R584, R588): requester 0 shift boss, 1 X loop, 2 Y loop, 3 regular;
5 stands for a calibration that waits. -/
structure AuxConv where
  die : Die
  who : Nat
  ch : Nat
  unsettled : Bool
  stamp : Nat
  deriving DecidableEq, Repr

/-- A PM second of a layer (R597 to R601), open until it has a `stop`: its window in far SFs where `far`, else in package SFs, and
the package SF of its first boundary; its counts, near end and far end, with the bytes 40 to 53 of its record; the defects it holds;
whether the interval of R87 touches it; whether it is judged, and the unavailability of each end. -/
structure PmSec where
  source : Nat
  die : Nat
  layer : Nat
  far : Bool
  start : Nat
  stop : Option Nat
  edge : Nat
  blocks : Nat
  near : Nat
  farErr : Nat
  bip : Nat
  extra : Nat
  bitErrs : Nat
  defect : Bool
  farDefect : Bool
  forced : Bool
  judged : Bool
  uas : Bool
  fuas : Bool
  deriving DecidableEq, Repr

/-- A survey that runs on a carrier (R611): its operation, the active SFs accumulated, and whether bins were reached. -/
structure Survey where
  n : Nat
  op : Op
  count : Nat
  deriving DecidableEq, Repr

/-- A capture that runs on a Face die (R614 to R617): its operation, whether it was triggered, the phase of its first
sample and its position, the sets and bytes taken, the FIFO level, and whether it was cut short. -/
structure Capture where
  n : Nat
  op : Op
  started : Bool
  phi : Nat
  first : Nat
  bytes : Nat
  level : Nat
  cut : Bool
  deriving DecidableEq, Repr


/-- The state of the package.

`regs` holds every register field and internal scalar of `Fld` (for an SH field, the on-shift copy) and `offs` the
off-shift copies that differ in origin (an unlisted key reads as the on-shift copy). `freeRegs` holds the few status fields
whose value rests on a free value of the model (assumption 10): a listed key overrides what `regs` gives. `tally` counts symbols: its SF count
times 2^20 plus its offset (R46); it counts while `tallyOn`. `readData` is the word the last read command returned.
`freeCtr` is the model's own: it picks the next free value (assumption 10). `assay` holds the assay counters by event ID
(R602). -/
structure State where
  pending : List Instr := []
  regs : Store := []
  offs : Store := []
  freeRegs : Store := []
  tallyOn : Bool := false
  tally : Nat := 0
  rings : List (Nat × Ring) := []
  inflight : List Op := []
  requests : List Request := []
  compl : List Compl := []
  events : List Event := []
  hostMem : Mem := []
  msixSent : List (Nat × Nat) := []
  msixMasked : List (Nat × Nat) := []
  msixWaiting : List (Nat × Nat) := []
  readData : Nat := 0
  freeCtr : Nat := 0
  held : List HeldWrite := []
  commit : Option Commit := none
  commitQ : List Op := []
  canary : List Canary := []
  spi : List SpiReq := []
  spiActive : List SpiReq := []
  slipRecs : List SlipRec := []
  slipFixes : List SlipRec := []
  nlc : List (Nat × NlcPlan) := []
  pilots : List (Nat × List Int) := []
  txLine : List (Nat × TxLine) := []
  lfOut : List (Nat × LineFrame) := []
  rxLine : List (Nat × RxLine) := []
  pool : List Pos := []
  poolPast : List Pos := []
  telem : List Telem := []
  telemSkipped : List (Nat × Nat) := []
  keys : List (Nat × Nat) := []
  msgTx : List (Nat × Byte) := []
  msgRx : List (Nat × Byte) := []
  annTargets : List (Nat × Nat) := []
  groupRef : List (Nat × Nat × Nat) := []
  relMsgs : List (Nat × Nat × Nat) := []
  ttis : List TtiRec := []
  psis : List PsiRec := []
  ttiSend : List (Nat × List Byte) := []
  insLast : List (Nat × List Byte) := []
  ohSent : List (Nat × List Byte) := []
  ohRecv : List (Nat × List Byte) := []
  kw : List Op := []
  zeroing : List Op := []
  la : List LaOp := []
  cipherOut : List (Nat × CipherFrame) := []
  plainOut : List (Nat × Fate × List Byte) := []
  ohOut : List (Nat × BitVec 256) := []
  hist : List Int := []
  holdFreq : Option Int := none
  xcSent : List (Nat × List Byte) := []
  xcBuf : List (Nat × List Byte) := []
  loads : List Load := []
  pwrQ : List PwrReq := []
  pwr : Option PwrRun := none
  waking : Option PwrReq := none
  releases : List (Die × Nat) := []
  grants : Option Grants := none
  memory : Mem := []
  memValid : List (Nat × Nat) := []
  poison : List (Nat × Nat) := []
  spareRows : List (Nat × Nat) := []
  rowMap : List (Nat × Nat) := []
  marches : List March := []
  resets : List ResetRun := []
  heldResets : List Op := []
  bootImage : Option BootImage := none
  recovery : Option BootImage := none
  fwOps : List Op := []
  auxQ : List AuxEntry := []
  auxWait : List AuxConv := []
  auxRun : List AuxConv := []
  auxSimul : Option Op := none
  assay : List (Nat × Nat) := []
  assaySnap : Option Op := none
  pmSecs : List PmSec := []
  sopBuf : List (Nat × Nat × List (Nat × Nat × Nat)) := []
  surveys : List Survey := []
  captures : List Capture := []
  deriving DecidableEq, Repr

/-- The package right after its first power-on, before PORST_N rises (assumption 1): every register at its reset value, no
ring, no memory listed, the tally stopped at 0. -/
def State.reset : State := {}

end Sys2Proof.Machine
end

