-- ==== Sys2Proof/Machine/Ops.lean ====
section
/-! DEFINITION. The named operations over the state that every family shares: dies, the register store, the tally, events,
descriptors in flight and their completions. -/

namespace Sys2Proof
open Machine

/-- The die codes of R12. -/
def Die.code (d : Die) : Nat := d.ctorIdx

/-- The die with a code; codes 8 to 15 name none (R12). -/
def dieOfCode : Nat → Option Die
  | 0 => some .m0 | 1 => some .m1 | 2 => some .f0 | 3 => some .f1 | 4 => some .f2 | 5 => some .f3
  | 6 => some .b0 | 7 => some .b1 | _ => none

/-- Every die. -/
def Die.all : List Die := [.m0, .m1, .f0, .f1, .f2, .f3, .b0, .b1]

/-- A Face die carries converters and line DSP. -/
def Die.isFace : Die → Bool
  | .f0 | .f1 | .f2 | .f3 => true
  | .m0 | .m1 | .b0 | .b1 => false

/-- A Mill die holds FEC, framing, OTN, cipher and lanes. -/
def Die.isMill : Die → Bool
  | .m0 | .m1 => true
  | .f0 | .f1 | .f2 | .f3 | .b0 | .b1 => false

/-- An ore bin die is stacked DRAM. -/
def Die.isBin : Die → Bool
  | .b0 | .b1 => true
  | .f0 | .f1 | .f2 | .f3 | .m0 | .m1 => false

/-- The Face die of a carrier (R3). -/
def faceOf (n : Nat) : Die := match n with | 0 => .f0 | 1 => .f1 | 2 => .f2 | _ => .f3

/-- The Mill die that serves a carrier (R3). -/
def millOf (n : Nat) : Die := if n < 2 then .m0 else .m1

/-- The Mill die with a number. -/
def millAt (m : Nat) : Die := if m = 0 then .m0 else .m1

/-- The carrier of a Face die. -/
def Die.carrier (d : Die) : Nat := d.code - 2

/-- The anchor domain of a die (R513). -/
def Die.anchor (d : Die) : Nat := if d.isFace then Dom.winz else if d.isMill then Dom.frame else Dom.binCtrl

/-- The domains a die has (R512). -/
def Die.domains (d : Die) : List Nat :=
  if d.isFace then List.range 16 else if d.isMill then List.range 14 else [0, 1]

/-- A block ID (R12). -/
def blkId (d : Die) (dom : Nat := 0) (sub : Nat := 0) : Nat := d.code * 4096 + dom % 64 * 64 + sub % 64

namespace Machine

/-- The key of instance `i` of field `f` on die `d` in the register store. -/
def Fld.key (f : Fld) (d : Die) (i : Nat) : Nat := i * 65536 + (f.ctorIdx * 16 + d.code)

/-- What an unlisted key reads as: the field's reset value. -/
def resetOfKey (k : Nat) : Nat := resetOfIdx (k % 65536 / 16) (k / 65536)

namespace State

/-- The value of a field: for an SH field, of its on-shift copy. -/
def rd (s : State) (f : Fld) (d : Die := .m0) (i : Nat := 0) : Nat := Cells.get resetOfKey (f.key d i) s.regs

/-- A one-bit field as a truth value. -/
def on (s : State) (f : Fld) (d : Die := .m0) (i : Nat := 0) : Bool := s.rd f d i == 1

/-- A field written: bits above its width are lost. -/
def wr (s : State) (f : Fld) (d : Die) (i v : Nat) : State :=
  { s with regs := Cells.set resetOfKey (f.key d i) (v % 2 ^ f.row.width) s.regs }

/-- A field of the package window written. -/
def wrP (s : State) (f : Fld) (v : Nat) : State := s.wr f .m0 0 v

/-- The off-shift copy of an SH field (R58). -/
def rdOff (s : State) (f : Fld) (d : Die) (i : Nat := 0) : Nat :=
  (Cells.find (f.key d i) s.offs).getD (s.rd f d i)

/-- The off-shift copy of an SH field written (R58). -/
def wrOff (s : State) (f : Fld) (d : Die) (i v : Nat) : State :=
  { s with offs := Cells.put (f.key d i) (v % 2 ^ f.row.width) s.offs }

/-- A status field that may rest on a free value: credits of a winze port, hits of a pair (assumption 10). -/
def rdFree (s : State) (f : Fld) (d : Die := .m0) (i : Nat := 0) : Nat := (Cells.find (f.key d i) s.freeRegs).getD (s.rd f d i)

/-- Such a field written. -/
def wrFree (s : State) (f : Fld) (d : Die) (i v : Nat) : State :=
  { s with freeRegs := Cells.put (f.key d i) (v % 2 ^ f.row.width) s.freeRegs }

/-- Both copies of a field back at its reset value. -/
def clr (s : State) (f : Fld) (d : Die) (i : Nat := 0) : State :=
  { s with regs := Cells.del (f.key d i) s.regs, offs := Cells.del (f.key d i) s.offs }

/-- A counter advanced by `k`, held at its greatest value. -/
def inc (s : State) (f : Fld) (d : Die) (i : Nat := 0) (k : Nat := 1) : State :=
  s.wr f d i (satAdd f.row.width (s.rd f d i) k)

/-- A counter advanced by `k`, wrapping at its width. -/
def bump (s : State) (f : Fld) (d : Die) (i : Nat := 0) (k : Nat := 1) : State := s.wr f d i (s.rd f d i + k)

/-- An assay counter of a die, by its index (R602). -/
def assayCount (s : State) (id : Nat) : Nat := Cells.get (fun _ => 0) id s.assay

/-- An assay counter advanced, wrapping at 48 bits (R602). -/
def assayAdd (s : State) (id k : Nat) : State :=
  { s with assay := Cells.set (fun _ => 0) id ((s.assayCount id + k) % 2 ^ 48) s.assay }

/-- An assay event of a die counted (R602). -/
def count (s : State) (d : Die) (i : Nat) (k : Nat := 1) : State := s.assayAdd (d.ctorIdx * 4096 + i) k

/-- Several fields of one die and instance written in turn. -/
def wrs (s : State) (d : Die) (i : Nat) : List (Fld × Nat) → State
  | [] => s
  | (f, v) :: l => (s.wr f d i v).wrs d i l

/-- Fields of one die and instance cleared to 0. -/
def zeros (s : State) (d : Die) (i : Nat) (l : List Fld) : State := s.wrs d i (l.map fun f => (f, 0))

/-- A value of 48 bits in two registers. -/
def rd48 (s : State) (lo hi : Fld) (d : Die := .m0) (i : Nat := 0) : Nat := s.rd lo d i + 2 ^ 32 * s.rd hi d i

/-- A value of up to 64 bits written to two registers. -/
def wr48 (s : State) (lo hi : Fld) (d : Die) (i v : Nat) : State := (s.wr lo d i v).wr hi d i (v / 2 ^ 32)

/-- The superframe of the package tally (R46). -/
def sf (s : State) : Nat := s.tally / sfLen

/-- The symbol offset of the package tally (R46). -/
def sfOff (s : State) : Nat := s.tally % sfLen

/-- The configuration number of R2. -/
def part (s : State) : Nat := s.rd .chipConfig

/-- The dies the configuration contains (R2). -/
def has (s : State) : Die → Bool
  | .m0 | .f0 => true
  | .f1 => decide (3 ≤ s.part)
  | .m1 | .f2 | .f3 => decide (6 ≤ s.part)
  | .b0 => s.part == 4 || s.part == 8
  | .b1 => s.part == 8

/-- The carrier's Face die is in the configuration. -/
def hasCarrier (s : State) (n : Nat) : Bool := decide (n < 4) && s.has (faceOf n)

/-- A free value (assumption 10), and the state that has used it. -/
def fresh (s : State) : Nat × State := (Config.freeValue s.freeCtr, { s with freeCtr := s.freeCtr + 1 })

/-- A pending event raised, or coalesced into the entry that is pending (R500, R501). -/
def raiseAs (s : State) (reason block : Nat) (func : Option Nat) (dest arg0 arg1 : Nat) (far : Option Nat) : State :=
  let same (e : Event) : Bool := e.reason == reason && e.block == block && e.func == func && e.dest == dest
  if s.events.any same then
    { s with events := updateWhere same (fun e => { e with repeats := min 63 (e.repeats + 1), arg1 := arg1 }) s.events }
  else { s with events := s.events ++ [⟨reason, block, func, dest, arg0, arg1, s.tally, far, 0⟩] }

/-- An event for the physical function (R479). -/
def raise (s : State) (reason block : Nat) (arg0 : Nat := 0) (arg1 : Nat := 0) (far : Option Nat := none) : State :=
  s.raiseAs reason block none 0 arg0 arg1 far

/-- An event that names a function: it goes to that function as well (R479). -/
def raiseFn (s : State) (reason block fn arg0 : Nat) : State :=
  let s := s.raiseAs reason block (some fn) 0 arg0 0 none
  if fn = 0 then s else s.raiseAs reason block (some fn) fn arg0 0 none

/-- An event that names a page, for the functions bound to it (R479). -/
def raiseFns (s : State) (reason block : Nat) (fns : List Nat) (arg0 : Nat := 0) (arg1 : Nat := 0)
    (far : Option Nat := none) : State :=
  (fns.filter (· != 0)).foldl (fun s f => s.raiseAs reason block (some f) f arg0 arg1 far)
    (s.raise reason block arg0 arg1 far)

/-- The state of a domain (R515). -/
def domSt (s : State) (d : Die) (dom : Nat) : Nat := s.rd .domState d dom

/-- A domain that takes traffic: Run or Idle. -/
def domUp (s : State) (d : Die) (dom : Nat) : Bool := decide (s.domSt d dom ≤ 1)

/-- A domain in Deep sleep or Off. -/
def domDead (s : State) (d : Die) (dom : Nat) : Bool := decide (3 ≤ s.domSt d dom)

/-- The die itself is held in reset: a die reset, a lost rail, or a trip. -/
def dieInReset (s : State) (d : Die) : Bool := s.on .inReset d 63

/-- The domain is in reset, alone or with its die (bit 63 of the die stands for the die). -/
def domInReset (s : State) (d : Die) (dom : Nat) : Bool := s.on .inReset d dom || s.dieInReset d

end State
end Machine
end Sys2Proof
end

