-- ==== Sys2Proof/Machine/Operands.lean ====
section
/-! DEFINITION. What a command's operands name: winze ports, register addresses (R649 to R652), and the fields, checks and
targets of descriptors (R488, R489, R506, R684). -/

namespace Sys2Proof
open Machine
namespace Machine

/-- The port at the other end of a winze port (R41). -/
def farPort : Die → Nat → Option (Die × Nat)
  | .m0, 0 => some (.f0, 0) | .m0, 1 => some (.f1, 0) | .m0, 2 => some (.m1, 2) | .m0, 3 => some (.b0, 0)
  | .m1, 0 => some (.f2, 0) | .m1, 1 => some (.f3, 0) | .m1, 2 => some (.m0, 2) | .m1, 3 => some (.b1, 0)
  | .f0, 0 => some (.m0, 0) | .f1, 0 => some (.m0, 1) | .f2, 0 => some (.m1, 0) | .f3, 0 => some (.m1, 1)
  | .b0, 0 => some (.m0, 3) | .b1, 0 => some (.m1, 3)
  | _, _ => none

/-- The winze ports between M0 and a die, each named at the end nearer M0 (R16). -/
def pathTo : Die → List (Die × Nat)
  | .m0 => [] | .m1 => [(.m0, 2)] | .f0 => [(.m0, 0)] | .f1 => [(.m0, 1)] | .b0 => [(.m0, 3)]
  | .f2 => [(.m0, 2), (.m1, 0)] | .f3 => [(.m0, 2), (.m1, 1)] | .b1 => [(.m0, 2), (.m1, 3)]

/-- Every winze link between M0 and the die is up (R17). -/
def State.reach (s : State) (d : Die) : Bool := (pathTo d).all fun p => s.on .winzLinkUp p.1 p.2

/-- The link layer's view of a die that takes part in commits (R77). -/
def State.live (s : State) (d : Die) : Bool :=
  s.has d && s.reach d && !s.dieInReset d && !s.domDead d d.anchor

/-- The dies that take part in a commit (R77). -/
def State.liveDies (s : State) : List Die := Die.all.filter s.live

/-- The domain that holds a die offset (R651); none for a reserved offset. -/
def domainAt (d : Die) (off : Nat) : Option Nat :=
  if d.isFace then
    if off < 0x100 then some Dom.winz
    else if 0x8000 ≤ off ∧ off < 0x8100 then some Dom.winz
    else if 0xC000 ≤ off ∧ off < 0xC418 then some Dom.winz
    else if 0xC480 ≤ off ∧ off < 0xC500 then some Dom.winz
    else if 0xD000 ≤ off ∧ off < 0xD040 then some Dom.winz
    else if 0xD100 ≤ off ∧ off < 0xD110 then some Dom.auxm
    else if 0xD400 ≤ off ∧ off < 0xD480 then some Dom.winz
    else if 0xE000 ≤ off ∧ off < 0xE018 then some (0x0A + (off - 0xE000) / 4)
    else if 0x10000 ≤ off ∧ off < 0x10080 then some Dom.convRx
    else if 0x10080 ≤ off ∧ off < 0x100D0 then some Dom.convTx
    else if 0x10100 ≤ off ∧ off < 0x10280 then some Dom.auxm
    else if 0x20000 ≤ off ∧ off < 0x20010 then some Dom.cdc
    else if 0x20010 ≤ off ∧ off < 0x20020 then some Dom.nlc0
    else if 0x20020 ≤ off ∧ off < 0x20030 then some Dom.eq
    else if 0x20030 ≤ off ∧ off < 0x20060 then some Dom.crdm
    else if 0x30000 ≤ off ∧ off < 0x30004 then some Dom.txdsp
    else none
  else if d.isMill then
    if off < 0x100 then some Dom.frame
    else if 0x8000 ≤ off ∧ off < 0x8100 then some Dom.frame
    else if 0x9000 ≤ off ∧ off < 0x9480 then some Dom.frame
    else if 0xA000 ≤ off ∧ off < 0xA180 then some Dom.frame
    else if 0xC000 ≤ off ∧ off < 0xC418 then some Dom.frame
    else if 0xC480 ≤ off ∧ off < 0xC500 then some Dom.frame
    else if 0xD000 ≤ off ∧ off < 0xD040 then some Dom.frame
    else if 0xD100 ≤ off ∧ off < 0xD110 then some Dom.timing
    else if 0xD200 ≤ off ∧ off < 0xD20C then some Dom.frame
    else if 0xD400 ≤ off ∧ off < 0xD480 then some Dom.frame
    else if 0xE000 ≤ off ∧ off < 0xE018 then some (if off < 0xE004 then Dom.leA else Dom.leB)
    else if 0x40000 ≤ off ∧ off < 0x83000 then some Dom.otn
    else if 0xB0000 ≤ off ∧ off < 0xB01E0 then some Dom.timing
    else if 0xC0000 ≤ off ∧ off < 0xC0180 then some Dom.clntA
    else if 0xC0180 ≤ off ∧ off < 0xC0300 then some Dom.clntB
    else if 0xC0400 ≤ off ∧ off < 0xC0600 then some (if (off - 0xC0400) / 4 < 12 then Dom.clntA else Dom.clntB)
    else if 0xC0600 ≤ off ∧ off < 0xC0780 then some (if (off - 0xC0600) / 16 < 12 then Dom.clntA else Dom.clntB)
    else if 0xC0800 ≤ off ∧ off < 0xC0A00 then some Dom.otn
    else if 0xD0000 ≤ off ∧ off < 0xF4000 then some Dom.crypto
    else none
  else
    if off < 0x100 then some Dom.binCtrl
    else if 0x8000 ≤ off ∧ off < 0x8040 then some Dom.binCtrl
    else if 0xC000 ≤ off ∧ off < 0xC400 then some Dom.binCtrl
    else if 0xC480 ≤ off ∧ off < 0xC500 then some Dom.binCtrl
    else if 0xD000 ≤ off ∧ off < 0xD040 then some Dom.binCtrl
    else if 0xD400 ≤ off ∧ off < 0xD480 then some Dom.binCtrl
    else if 0x10000 ≤ off ∧ off < 0x10080 then some Dom.binCtrl
    else none

/-- A window of BAR0: the package window, or a die's (R649). -/
inductive Window
  | pkg
  | die (d : Die)
  deriving DecidableEq, Repr

/-- The window and the offset in it of a BAR0 address; none for a reserved range (R649). -/
def windowOf (addr : Nat) : Option (Window × Nat) :=
  let off := addr % 0x400000
  match addr / 0x400000 with
  | 0 => some (.pkg, off) | 1 => some (.die .m0, off) | 2 => some (.die .m1, off)
  | 4 => some (.die .f0, off) | 5 => some (.die .f1, off) | 6 => some (.die .f2, off) | 7 => some (.die .f3, off)
  | 8 => some (.die .b0, off) | 9 => some (.die .b1, off)
  | _ => none

/-- A block stands in a window. -/
def Win.inWindow : Win → Window → Bool
  | .pkg, .pkg => true
  | .any, .die _ => true
  | .face, .die d => d.isFace
  | .mill, .die d => d.isMill
  | .bin, .die d => d.isBin
  | .faceMill, .die d => d.isFace || d.isMill
  | _, _ => false

/-- The fields of one block in the word at `rel` bytes past the block's base: field, instance, lowest bit. -/
def Blk.wordAt (b : Blk) (rel : Nat) : List (Fld × Nat × Nat) :=
  let g := b.info
  let i := if g.s1 = 0 then 0 else rel / g.s1
  let r := if g.s1 = 0 then rel else rel % g.s1
  if g.n1 ≤ i then [] else
  b.fields.flatMap fun f =>
    let w := f.row
    if r < w.off then [] else
    if g.s2 = 0 then
      if r ≠ w.off then [] else
      (List.range g.n2).map fun j => (f, i * g.n2 + j, w.lo + j * g.bitStride)
    else if (r - w.off) % g.s2 = 0 ∧ (r - w.off) / g.s2 < g.n2 then [(f, i * g.n2 + (r - w.off) / g.s2, w.lo)]
    else []

/-- The fields of the word at an offset of a window: field, instance, lowest bit. Empty for a reserved offset. -/
def wordAt (w : Window) (off : Nat) : List (Fld × Nat × Nat) :=
  Blk.all.flatMap fun b => if b.info.win.inWindow w ∧ b.info.base ≤ off then b.wordAt (off - b.info.base) else []

/-- The die whose store holds the fields of a window: the package window is M0's (R657). -/
def Window.store : Window → Die
  | .pkg => .m0
  | .die d => d

/-- The window offset of instance `i` of a field. -/
def Fld.offsetAt (f : Fld) (i : Nat) : Nat :=
  let g := f.row.blk.info
  g.base + i / g.n2 * g.s1 + i % g.n2 * g.s2 + f.row.off

/-- The lowest bit of instance `i` of a field in its word. -/
def Fld.bitAt (f : Fld) (i : Nat) : Nat := f.row.lo + i % f.row.blk.info.n2 * f.row.blk.info.bitStride

/-- The block ID an event about a field carries: the domain that holds its register (assumption 14). -/
def Fld.block (f : Fld) (d : Die) (i : Nat) : Nat :=
  match f.row.blk.info.win with
  | .pkg => blkId .m0 Dom.hostif
  | _ => blkId d ((domainAt d (f.offsetAt i)).getD d.anchor)

/-- The event of a rule that names no reason: FIELD_EVENT with the register and bit (R502). -/
def State.raiseField (s : State) (f : Fld) (d : Die) (i : Nat := 0) (far : Option Nat := none) : State :=
  s.raise Reason.fieldEvent (f.block d i) (f.offsetAt i + 2 ^ 24 * f.bitAt i) 0 far

/-- The carrier whose instance a word belongs to, where its block is instanced per carrier (R652). -/
def carrierOfWord (w : Window) : List (Fld × Nat × Nat) → Option Nat
  | [] => none
  | (f, i, _) :: _ =>
    match f.row.blk, w with
    | .car, _ | .mon, _ => some i
    | .far, .die d | .slip2, .die d | .ltx, .die d | .lrx, .die d | .dec, .die d | .frm, .die d =>
      some (if d = .m0 then i else 2 + i)
    | _, _ => none

/-- How a register access is answered. -/
inductive Access
  | reserved
  | blockOff (block : Nat)
  | unreachable (d : Die)
  | word (w : Window) (fields : List (Fld × Nat × Nat))
  deriving DecidableEq

/-- How a die window answers (R5, R17, R505, R513, R632). -/
def State.dieAccess (s : State) (d : Die) (off : Nat) : Access :=
  if !s.has d then .blockOff (blkId d)
  else if !s.on .hostFwReady then .blockOff (blkId d ((domainAt d off).getD d.anchor))
  else if s.dieInReset d then .unreachable d
  else if s.domDead d d.anchor && s.on .plannedDown d then .blockOff (blkId d d.anchor)
  else if !s.reach d then .unreachable d
  else
    match domainAt d off with
    | none => .reserved
    | some dom =>
      if s.domDead d dom || s.domInReset d dom then .blockOff (blkId d dom)
      else
        let fs := wordAt (.die d) off
        match carrierOfWord (.die d) fs with
        | some n => if s.hasCarrier n then .word (.die d) fs else .blockOff (blkId (faceOf n))
        | none => .word (.die d) fs

/-- How an aligned access to a BAR0 address is answered (R649 to R652). -/
def State.access (s : State) (addr : Nat) : Access :=
  match windowOf addr with
  | none => .reserved
  | some (.pkg, off) =>
    let fs := wordAt .pkg off
    match carrierOfWord .pkg fs with
    | some n => if s.hasCarrier n then .word .pkg fs else .blockOff (blkId (faceOf n))
    | none => .word .pkg fs
  | some (.die d, off) => s.dieAccess d off

/-- The bits of a field that stand for parts the configuration has: member bits of absent carriers read 0 (R652), a domain
that the die lacks reads Off (R544). -/
def State.presentBits (s : State) (f : Fld) (d : Die) (i v : Nat) : Nat :=
  if f = .domState ∧ !d.domains.contains i then 4
  else if f = .lgMembers then ((List.range 4).map fun n => if bit v n && s.hasCarrier n then 2 ^ n else 0).sum else v

/-- The copy of a field that its die's view selects (R14, R58, R431): WO reads 0. -/
def State.viewRd (s : State) (f : Fld) (d : Die) (i : Nat) : Nat :=
  match f.row.acc with
  | .wo => 0
  | .ro => s.rdFree f d i
  | .sh | .rw | .w1c | .lk => if s.on .viewViewOffshift d then s.rdOff f d i else s.rd f d i

/-- The part of a read word that one field gives (R14); a CLNT_PORT entry of a lane that is no port's first reads its reset value
(R651). -/
def State.fieldRead (s : State) (d : Die) (e : Fld × Nat × Nat) : Nat :=
  let v := if e.1 = .portWidth ∧ s.viewRd .portMode d e.2.1 = 0 then 0 else s.viewRd e.1 d e.2.1
  s.presentBits e.1 d e.2.1 v * 2 ^ e.2.2

/-- The word a plain register read returns (R14, R653, R659). -/
def State.readWord (s : State) (addr : Nat) : Nat :=
  match s.access addr with
  | .reserved => 0
  | .blockOff _ | .unreachable _ => deadWord
  | .word w fs => (fs.map (s.fieldRead w.store)).sum

end Machine

/-- `n` bytes of a descriptor from byte `b`, little-endian; `b` is at least 24 (R490). -/
def Desc.at (d : Desc) (b n : Nat) : Nat := d.ops.toNat / 2 ^ (8 * (b - 24)) % 2 ^ (8 * n)

/-- The operand bytes from byte `b` on are zero. -/
def Desc.clearFrom (d : Desc) (b : Nat) : Bool := d.ops.toNat / 2 ^ (8 * (b - 24)) == 0

/-- The tally position of the descriptor (R47). -/
def Desc.pos (d : Desc) : Nat := d.sf.toNat * sfLen + d.off.toNat

/-- The die named by the target field. -/
def Desc.die (d : Desc) : Option Die := dieOfCode (d.target.toNat / 4096)

/-- The domain named by the target field. -/
def Desc.dom (d : Desc) : Nat := Machine.bits d.target.toNat 11 6

/-- The die that an opcode's target names, M0 where it names none. -/
def Desc.mill (d : Desc) : Die := d.die.getD .m0

/-- The page a descriptor names in arg0 [7:0] (R490). -/
def Desc.page (d : Desc) : Nat := Machine.bits d.arg0.toNat 7 0

/-- A wrapped key in bytes 24 to 63 (R490), byte 24 first. -/
def Desc.wrapped (d : Desc) : Nat := Machine.beNat (Machine.leBytes 40 d.ops.toNat)

/-- The stream a descriptor names (R490). -/
def Desc.stream (d : Desc) : Nat := Machine.bits d.arg0.toNat 8 0

/-- The descriptor as its 64 bytes give it (R488): the opcode and the rest. -/
def Desc.ofBytes (ring slot : Nat) (fn : Fin 65) (data : BitVec 512) : Nat × Desc :=
  (Machine.bits data.toNat 7 0,
    { ring := ring, slot := slot, fn := fn, fence := data.getLsbD 8, irqNow := data.getLsbD 9
      flagsRsv := data.extractLsb' 10 6, target := data.extractLsb' 16 16, tag := data.extractLsb' 32 32
      sf := data.extractLsb' 64 64, off := data.extractLsb' 128 32, arg0 := data.extractLsb' 160 32
      ops := data.extractLsb' 192 320 })

end Sys2Proof
end

