-- ==== Sys2Proof/Machine/Descriptors.lean ====
section
/-! DEFINITION. Taking a descriptor: the checks of R489 in their order, the target's power state (R506), and its
completion (R497). -/

namespace Sys2Proof.Machine

/-- The ring class that takes an opcode, and whether only the physical function may issue it (R489). Bound-function
opcodes are judged by their own rules. -/
def opcodeRow : Nat → Option (Nat × Bool)
  | 0x00 | 0x01 | 0x02 | 0x03 => some (0, false)
  | 0x04 | 0x08 | 0x09 | 0x10 | 0x11 | 0x12 | 0x18 | 0x20 => some (0, true)
  | 0x21 => some (0, false)
  | 0x22 | 0x23 | 0x24 => some (0, true)
  | 0x25 | 0x26 | 0x27 => some (0, false)
  | 0x28 | 0x29 => some (6, false)
  | 0x30 | 0x31 | 0x32 | 0x33 | 0x38 | 0x39 | 0x3A | 0x3B => some (0, true)
  | _ => none

/-- An opcode that carries a tally position (R489). -/
def opcodeHasTally (op : Nat) : Bool := [0x08, 0x26, 0x27, 0x30, 0x32, 0x38, 0x39, 0x3A, 0x3B].contains op

/-- The die a descriptor's operation runs on, for the requests that winze links carry (R35, R684). -/
def Op.targetDie (o : Op) : Option Die :=
  if [0x09, 0x10, 0x11, 0x12, 0x18, 0x20, 0x21, 0x22, 0x23, 0x24, 0x25, 0x26, 0x27, 0x28, 0x29, 0x32, 0x33, 0x38,
    0x3A].contains o.opcode then o.desc.die else none

/-- The domain of a memory (R545). -/
def memDom (t : Die) (mem : Nat) : Nat :=
  if t.isFace then (if mem = 0 then Dom.winz else 9 + mem)
  else if t.isMill then (if mem = 1 then Dom.leA else if mem = 2 then Dom.leB else Dom.frame)
  else Dom.binArray

/-- The domain that such an operation runs on: for one that names a die, the domain of its memory or converters, or the
anchor. -/
def Op.targetDom (o : Op) : Nat :=
  let t := o.desc.mill
  let a := o.desc.arg0.toNat
  match o.opcode with
  | 0x10 | 0x11 | 0x12 => memDom t (a % 256)
  | 0x38 => if a % 4 = 0 then Dom.convRx else Dom.convTx
  | 0x09 | 0x3A => t.anchor
  | _ => o.desc.dom

/-- The same descriptor: one ring, one slot. -/
def Op.isFor (o : Op) (d : Desc) : Bool := o.desc.ring == d.ring && o.desc.slot == d.slot

/-- The number of operations a function has in flight (R507). -/
def State.opsOf (s : State) (fn : Nat) : Nat :=
  (s.inflight.filter fun o => o.desc.fn.val == fn).length + (s.compl.filter fun c => c.fn == fn).length

/-- The in-flight counts of HOST_STS and of the function's VF_OPS follow the operations (R507, R510, R511). -/
def State.countOps (s : State) (fn : Nat) : State :=
  let s := s.wrP .hostOpsInFlight (s.inflight.length + s.compl.length)
  if fn = 0 then s else s.wr .vfOpsInFlight .m0 fn (s.opsOf fn)

/-- A request of a ring and slot. -/
def Request.isFor (r : Request) (d : Desc) : Bool := r.ring == d.ring && r.slot == d.slot

/-- The request that an operation sends to its target, with the target's present incarnation (R35). -/
def State.requestOf (s : State) (o : Op) : List Request :=
  match o.targetDie with
  | none => []
  | some t => [⟨o.desc.ring, o.desc.slot, t, o.targetDom, s.rd .incarnation t o.targetDom⟩]

/-- The descriptor counted as in flight (R507), its request sent (R35). -/
def State.enlist (s : State) (op : Nat) (d : Desc) : State :=
  if s.inflight.any (·.isFor d) then s
  else State.countOps { s with inflight := s.inflight ++ [⟨op, d⟩], requests := s.requests ++ s.requestOf ⟨op, d⟩ } d.fn

/-- The result of a completion: a SHIFT_COMMIT that does not end OK carries the unchanged sequence number (R70, R497). -/
def State.resultOf (s : State) (op : Nat) (st : Status) (result : Nat) : Nat :=
  if op = 0x08 ∧ st ≠ .ok then s.rd .shiftSeq else result

/-- An operation in flight ends: its completion waits for its Completion ring (R497). Where its ring is gone it ends
without one (R474, R475). One that has ended already ends no second time. last_status follows every commit (R90). -/
def State.finish (s : State) (op : Nat) (d : Desc) (st : Status) (result : Nat := 0) : State :=
  if !s.inflight.any (·.isFor d) then s else
  let s : State := { s with inflight := s.inflight.filter (fun o => !o.isFor d)
                            requests := s.requests.filter fun r => !r.isFor d }
  let s : State := match Cells.find d.ring s.rings with
    | none => s
    | some r => { s with compl := s.compl ++ [⟨d.fn, d.ring, r.cq, op, d.tag.toNat, st.code, s.resultOf op st result, d.irqNow,
      Op.targetDie ⟨op, d⟩⟩] }
  (if op = 0x08 then s.wrP .shiftLastStatus st.code else s).countOps d.fn

/-- An operation in flight ends. -/
def State.finishOp (s : State) (o : Op) (st : Status) (result : Nat := 0) : State := s.finish o.opcode o.desc st result

/-- CMD_NOT_PERMITTED, naming the function that issued the opcode (R489, R502). -/
def State.notPermitted (s : State) (op : Nat) (d : Desc) (page : Nat := 0) : State :=
  (s.raiseFn Reason.cmdNotPermitted (blkId .m0 Dom.hostif) d.fn (page % 256 + 256 * op)).finish op d .notPermitted

/-- An earlier descriptor of the ring has not completed: a fenced one waits (R488). -/
def State.fenced (s : State) (d : Desc) : Bool :=
  d.fence && ((s.inflight.takeWhile fun o => !o.isFor d).any (·.desc.ring == d.ring) || s.compl.any (·.ring == d.ring))

/-- Two operations whose order the part keeps: SHIFT_COMMITs, TABLE_LOADs of one ring for one die, lookaside operations of one ring
(R64, R428, R499). -/
def Op.ordered (o p : Op) : Bool :=
  let la (q : Op) : Bool := q.opcode == 0x28 || q.opcode == 0x29
  (o.opcode == 0x08 && p.opcode == 0x08) || (o.desc.ring == p.desc.ring &&
    ((la o && la p) || (o.opcode == 0x09 && p.opcode == 0x09 && o.desc.target == p.desc.target)))

/-- Such an operation has been taken. -/
def State.begun (s : State) (d : Desc) : Bool :=
  s.loads.any (·.op.isFor d) || s.la.any (·.op.isFor d) || s.commitQ.any (·.isFor d) || s.commit.any (·.op.isFor d)

/-- A descriptor waits for an earlier one of its order that has not been taken (R499). -/
def State.waitsTurn (s : State) (op : Nat) (d : Desc) : Bool :=
  (s.inflight.takeWhile fun o => !o.isFor d).any fun o => o.ordered ⟨op, d⟩ && !s.begun o.desc

/-- The reserved bits of the header (R47, R488). -/
def Desc.headerBad (op : Nat) (d : Desc) : Bool :=
  d.flagsRsv != 0 || d.sf.toNat / 2 ^ 48 != 0 || d.off.toNat / 2 ^ 20 != 0 ||
    (!opcodeHasTally op && (d.sf != 0 || d.off != 0))

/-- A descriptor taken: the checks of R489 in order, before fw_ready TARGET_UNPOWERED (R632), then the opcode's own work.
`malformed` is what the opcode's operands and target break of R488 and R684, `excluded` that the issuer is not among the
functions of the opcode, judged against `page` where it names one. -/
def State.take (s : State) (op : Nat) (d : Desc) (malformed : Bool) (act : State → State) (excluded : Bool := false)
    (page : Nat := 0) : State :=
  let s := s.enlist op d
  if s.fenced d || s.waitsTurn op d then s else
  if !s.on .hostFwReady then s.finish op d .targetUnpowered else
  match opcodeRow op, Cells.find d.ring s.rings with
  | none, _ => s.finish op d .badDesc
  | some (cls, pfOnly), r =>
    if r.any (·.cls != cls) then s.finish op d .badDesc
    else if (pfOnly && d.fn.val != 0) || excluded then s.notPermitted op d page
    else if Desc.headerBad op d || malformed then s.finish op d .badDesc
    else act s

/-- A domain in Idle wakes by itself (R515). -/
def State.wakeIdle (s : State) (t : Die) (dom : Nat) : State := if s.domSt t dom = 1 then s.wr .domState t dom 0 else s

end Sys2Proof.Machine
end

