-- ==== Sys2Proof/Machine/Boss.lean ====
section
/-! DEFINITION. The shift boss's queue of power requests (R517, R518, R525) and the lamp board (R527). -/

namespace Sys2Proof.Machine

/-- The order in which dies enter a state (R521). -/
def entryDies : List Die := [.f0, .f1, .f2, .f3, .b0, .b1, .m1, .m0]

/-- The order in which the domains of a die enter: M1's TIMING last but the anchor, the anchor last (R521, R526). -/
def entryDoms (d : Die) : List Nat :=
  let late (k : Nat) : Bool := k == d.anchor || (d == .m1 && k == Dom.timing)
  (d.domains.filter fun k => !late k) ++ (if d = .m1 then [Dom.timing] else []) ++ [d.anchor]

/-- The named domains in the order of R521. -/
def entryOrder (l : List (Die × Nat)) : List (Die × Nat) :=
  (entryDies.flatMap fun d => (entryDoms d).map fun k => (d, k)).filter l.contains

/-- DEC2 and DEC3 of M0 switch together in the parts with one Mill die (R514). -/
def State.grouped (s : State) (l : List (Die × Nat)) : List (Die × Nat) :=
  if s.part ≤ 4 ∧ (l.contains (.m0, 2) ∨ l.contains (.m0, 3)) then l ++ [(.m0, 2), (.m0, 3)] else l

/-- A refusal or an abort on the lamp board (R527). -/
def State.lamp (s : State) (block reason st : Nat) : State :=
  let is (e : Nat) : Bool := s.on .lampValid .m0 e && s.rd .lampBlock .m0 e == block && s.rd .lampReason .m0 e == reason &&
    s.rd .lampReqState .m0 e == st
  match (List.range 64).find? is with
  | some e => (s.inc .lampCount .m0 e).wr .lampLastSf .m0 e s.sf
  | none =>
    match (List.range 64).find? fun e => !s.on .lampValid .m0 e with
    | some e => (s.wrs .m0 e [(.lampValid, 1), (.lampBlock, block), (.lampReason, reason), (.lampReqState, st), (.lampCount, 1),
        (.lampFirstSf, s.sf), (.lampLastSf, s.sf)]).inc .pwrLampUsed .m0
    | none => s.inc .pwrLampOverflow .m0

/-- A refusal counted and announced (R522, R527, R539). -/
def State.refusedBy (s : State) (t : Die) (dom reason st : Nat) : State :=
  ((s.lamp (blkId t dom) reason st).inc .pwrRefusals .m0).raise Reason.pwrRefused (blkId t dom) (reason + 256 * st)

/-- An abort counted and announced (R522, R527, R539). -/
def State.abortedBy (s : State) (t : Die) (dom reason st : Nat) : State :=
  ((s.lamp (blkId t dom) reason st).inc .pwrAborts .m0).raise Reason.pwrAborted (blkId t dom) (reason + 256 * st)

/-- dom_busy of some domains (R544). -/
def State.domBusy (s : State) (l : List (Die × Nat)) (v : Nat) : State := l.foldl (fun s e => s.wr .domBusy e.1 e.2 v) s

/-- The shift boss no longer asks anything about the domains of a request of its own. -/
def State.unask (s : State) (r : PwrReq) : State :=
  if r.op.isSome then s else r.doms.foldl (fun s e => s.wr .parkAsk e.1 e.2 0) s

/-- A power request ends: a host's completes (R518, R521, R522). -/
def State.endRequest (s : State) (r : PwrReq) (st : Status) : State :=
  let s := s.unask r
  match r.op with
  | none => s
  | some o => s.finishOp o st

/-- A host request that has been met leaves its marks: Run holds the domains there (R525), Sleep keeps a DEC domain asleep
(R531). -/
def State.hostMarks (s : State) (r : PwrReq) : State :=
  if r.op.isNone then s
  else r.doms.foldl (fun s e => s.wrs e.1 e.2 [(.hostRun, b2n (r.target == 0)),
    (.hostSleep, b2n (r.target == 2 && e.1.isMill && decide (e.2 < 4)))]) s

/-- One request begins (R518, R519, R525): done at once where every domain is there already, LATE where its boundary has
passed, aborted where a domain is in reset (R639), waking for Run, else the handshake. -/
def State.startRequest (s : State) (r : PwrReq) : State :=
  let there (e : Die × Nat) : Bool := if r.target = 0 then s.domSt e.1 e.2 == 0 else decide (r.target ≤ s.domSt e.1 e.2)
  let mine := entryOrder (r.doms.filter (!there ·))
  if r.boundary.any fun b => decide (b ≤ s.sf) then s.endRequest r .late
  else
    match r.doms.find? fun e => s.domInReset e.1 e.2 with
    | some e => (s.abortedBy e.1 e.2 0x12 r.target).endRequest r .resetAborted
    | none =>
      if mine = [] then (s.hostMarks r).endRequest r .ok
      else
        let s := (s.domBusy mine 1).wrP .pwrHsBusy 1
        if r.target = 0 then { s with waking := some r }
        else { s with pwr := some { req := r, since := s.sf, doms := mine.map fun e => ⟨e.1, e.2, .none, false⟩, enter := none } }

/-- The waiting requests in arrival order, one at a time (R518). -/
def State.nextRequests (s : State) : List PwrReq → State
  | [] => { s with pwrQ := [] }
  | r :: l => if s.pwr.isSome || s.waking.isSome then { s with pwrQ := r :: l } else (s.startRequest r).nextRequests l

/-- A request queued, and begun when none runs (R518). -/
def State.askPower (s : State) (r : PwrReq) : State := s.nextRequests (s.pwrQ ++ [r])

/-- An entry ends without a change of state (R521, R522): RELEASE leaves for every affected domain. Refusals already given
and not yet received are counted too, unless the entry was LATE. -/
def State.endEntry (s : State) (r : PwrRun) (st : Status) (counts : Bool) : State :=
  let l := r.doms.map fun e => (e.die, e.dom)
  let s : State := { s with pwr := none, releases := s.releases ++ l.filter (!s.releases.contains ·) }
  let s := r.doms.foldl (fun s e => match e.ans with
    | .refuse k => if e.seen || !counts then s else s.refusedBy e.die e.dom k r.req.target
    | .none | .delay | .grant => s) (s.wrP .pwrHsBusy 0)
  let s := s.endRequest r.req st
  s.nextRequests s.pwrQ

/-- A domain has granted the entry that runs, which has not sent ENTER. -/
def State.hasGranted (s : State) (t : Die) (k : Nat) : Bool :=
  s.pwr.any fun r => r.enter.isNone && r.doms.any fun e => e.die == t && e.dom == k && e.ans == .grant

/-- A wake source reaches a domain (R515, R523): one in Idle wakes by itself; one that has granted aborts the entry with reason
WAKE. -/
def State.wakeBy (s : State) (t : Die) (k : Nat) : State :=
  let s := s.wakeIdle t k
  match s.pwr with
  | none => s
  | some r => if s.hasGranted t k then (s.abortedBy t k 0x11 r.req.target).endEntry r .refused true else s

/-- A descriptor's target judged by its power state (R5, R506, R513): `act` runs on a target in Run, or woken from Idle. -/
def State.onTarget (s : State) (op : Nat) (d : Desc) (t : Die) (dom : Nat) (act : State → State) : State :=
  if !s.has t then s.finish op d .targetUnpowered
  else if s.domInReset t dom then s.finish op d .targetUnpowered
  else if s.domDead t t.anchor && s.on .plannedDown t then s.finish op d .targetUnpowered
  else if !s.reach t then (s.raise Reason.dieUnreachable (blkId t)).finish op d .retry
  else if 2 ≤ s.domSt t dom then s.finish op d .targetUnpowered
  else act (s.wakeBy t dom)

/-- A request of the shift boss's own for some domains, unless it already asks about one of them (R530, R531). -/
def State.bossAsk (s : State) (target : Nat) (l : List (Die × Nat)) : State :=
  if l = [] ∨ (l.any fun e => s.on .parkAsk e.1 e.2) = true then s
  else (l.foldl (fun s e => s.wr .parkAsk e.1 e.2 1) s).askPower ⟨none, target, l, false, false, none⟩

/-- The DEC domains of a Mill die that the shift boss parks (R531, R542). -/
def State.parked (s : State) (d : Die) : List Nat := (List.range 4).filter (bit (s.rd .pmillDecParked .m0 d.code))

/-- The parked domains of a Mill die are woken when a carrier of it begins to shed (R531). -/
def State.wakeParked (s : State) (d : Die) : State := s.bossAsk 0 ((s.parked d).map fun k => (d, k))

end Sys2Proof.Machine
end

