-- ==== Sys2Proof/Machine/Access.lean ====
section
/-! DEFINITION. How a register read is answered, and the clear and latch reads that have rows of their own (R505, R655,
R660). -/

namespace Sys2Proof.Machine

/-- BLOCK_OFF for an access (R502, R505), counted in dead_accesses (R660). -/
def State.deadAccess (s : State) (block off : Nat) (write : Bool) : State :=
  (s.inc .accDeadAccesses .m0).raise Reason.blockOff block (off + (if write then 2 ^ 31 else 0))

/-- A read answered 0xDEAD_0FF0 under R505. -/
def State.deadRead (s : State) (block off : Nat) : State := { s.deadAccess block off false with readData := deadWord }

/-- DIE_UNREACHABLE for an access (R17), counted in dead_accesses (R660). -/
def State.unreachableAccess (s : State) (d : Die) : State :=
  (s.inc .accDeadAccesses .m0).raise Reason.dieUnreachable (blkId d)

/-- A read answered 0xDEAD_0FF0 under R17. -/
def State.unreachableRead (s : State) (d : Die) : State := { s.unreachableAccess d with readData := deadWord }

/-- A read with a side effect: `act` runs and gives the word, unless the access is dead (R655). -/
def State.readReg (s : State) (d : Die) (f : Fld) (i : Nat) (act : State → State × Nat) : State :=
  let off := f.offsetAt i
  match s.dieAccess d off with
  | .word _ _ => { (act s).1 with readData := (act s).2 }
  | .reserved => { s with readData := 0 }
  | .blockOff b => s.deadRead b off
  | .unreachable d => s.unreachableRead d

/-- A write with an effect of its own: `act` runs unless the access is dead (R505). -/
def State.writeReg (s : State) (d : Die) (f : Fld) (i : Nat) (act : State → State) : State :=
  let off := f.offsetAt i
  match s.dieAccess d off with
  | .word _ _ => act s
  | .reserved => s
  | .blockOff b => s.deadAccess b off true
  | .unreachable d => s.unreachableAccess d

/-- The word of a register as the state shows it. -/
def State.wordOf (s : State) (d : Die) (f : Fld) (i : Nat) : Nat :=
  ((wordAt (.die d) (f.offsetAt i)).map (s.fieldRead d)).sum

end Sys2Proof.Machine
end

