-- ==== Sys2Proof/Machine/Winze.lean ====
section
/-! DEFINITION. Winze links: CRC errors, links going down and returning, incarnations and stale replies (R28 to R42), and
the start of a canary test (R569, R573). -/

namespace Sys2Proof.Machine

/-- A canary test of a unit other than a memory word starts at once; a unit under test starts no second one (R569,
R573). `stays` says that no spare has taken the unit's place: it stays in service, and the record's `mem` is 1. -/
def State.canaryStart (s : State) (d : Die) (kind idx : Nat) (stays : Bool := false) : State :=
  if s.canary.any fun c => c.die == d && c.kind == kind && c.idx == idx then s
  else { s with canary := s.canary ++ [⟨d, kind, idx, b2n stays, 0, true⟩] }

/-- Every outstanding request to a target that passes the test completes with RESET_ABORTED, counted at the port it left
by, if any (R34, R36). -/
def State.abortTo (s : State) (p : Die → Nat → Bool) (port : Option (Die × Nat)) : State :=
  let hit := s.inflight.filter fun o => o.targetDie.any fun t => p t o.targetDom
  hit.foldl (fun s o => s.finishOp o .resetAborted) (match port with
    | some q => s.inc .winzAbortedRequests q.1 q.2 hit.length
    | none => s)

/-- The port by which requests reach a die: the last link on their way from M0 (R16, R41). -/
def portToward (t : Die) : Option (Die × Nat) := (pathTo t).getLast?

/-- The port nearer M0 of a link: where requests toward the far die leave (R16). -/
def nearPort (d : Die) (port : Nat) : Die × Nat :=
  match farPort d port with
  | some (e, q) => if (pathTo e).contains (d, port) then (d, port) else if (pathTo d).contains (e, q) then (e, q) else (d, port)
  | none => (d, port)

/-- The dies whose path to M0 uses a link. -/
def beyond (d : Die) (port : Nat) : List Die :=
  Die.all.filter fun t => (pathTo t).contains (nearPort d port)

/-- A die that still takes part in a commit whose go-ahead has left: it holds it, or its transmit swap is to come. -/
def Commit.takesPart (c : Commit) (d : Die) : Bool := c.go.contains d || c.txLeft.contains d

/-- A die that no longer takes part in the commit under way takes no swap it has not taken (R68, R79): before the go-ahead, one
that has accepted and lost its path is noted; after it, a carrier keeps its receive swap while one of its dies takes part. -/
def State.dropFromCommit (s : State) (ds : List Die) : State :=
  { s with commit := s.commit.map fun c =>
      if c.goSent then
        let c := { c with go := c.go.filter (!ds.contains ·), txLeft := c.txLeft.filter (!ds.contains ·) }
        { c with rxLeft := c.rxLeft.filter fun n => c.takesPart (faceOf n) || c.takesPart (millOf n)
                 grpLeft := if ds.contains .m0 then [] else c.grpLeft }
      else { c with lost := c.lost ++ ds.filter fun d => s.on .viewFrozen d && c.dies.any (·.1 == d) } }

/-- Both ends of a link lose link_up (R34). -/
def State.linkDrop (s : State) (d : Die) (port : Nat) : State :=
  match farPort d port with
  | some (e, q) => (s.wr .winzLinkUp d port 0).wr .winzLinkUp e q 0
  | none => s

/-- A port holds the full credits that its far end advertises (R40, R42; assumption 10). -/
def State.credit (s : State) (d : Die) (port : Nat) : State :=
  let v := Config.linkCredits (d.code * 4 + port)
  (s.wrFree .winzCreditsMax d port v).wrFree .winzCreditsAvail d port v

/-- A link trained again: both ends up, the full credits that the far end advertises
(R40, assumption 10), the peers' incarnations announced. -/
def State.linkRaise (s : State) (d : Die) (port : Nat) : State :=
  match farPort d port with
  | some (e, q) =>
    let s := s.wrs d port [(.winzLinkUp, 1), (.winzPeerIncarnation, s.rd .incarnation e 63)]
    let s := s.wrs e q [(.winzLinkUp, 1), (.winzPeerIncarnation, s.rd .incarnation d 63)]
    (s.credit d port).credit e q
  | none => s

/-- The ports of a die (R41). -/
def Die.portsOf (d : Die) : List Nat := if d.isMill then [0, 1, 2, 3] else [0]

/-- The incarnation of a die (domain 63) or of a domain advances, wrapping from 15 to 0 (R35); a die announces its own
over its links that are up (R41). -/
def State.reincarnate (s : State) (d : Die) (dom : Nat) : State :=
  let s := s.bump .incarnation d dom
  if dom ≠ 63 then s else
  (Die.portsOf d).foldl (fun s p =>
    let s := s.wr .winzLocalIncarnation d p (s.rd .incarnation d 63)
    match farPort d p with
    | some (e, q) => if s.on .winzLinkUp d p then s.wr .winzPeerIncarnation e q (s.rd .incarnation d 63) else s
    | none => s) s

/-- The spare lanes of a link: one per 32 of its 256 lanes, each free to take any lane of the link (R32, R33, assumption
55). -/
abbrev winzSpares : Nat := 8

/-- WINZ_CRC_ERROR (R32, R33, R42, R573): counted; eight on one lane within one SF start a canary test that moves the lane to
a spare of its link, unless the lane is under test already. With no spare left the lane stays in use, spare_exhausted set. -/
def execWinzCrcError (d : Die) (port : Fin 4) (lane : Fin 256) (s : State) : Host.Outcome State Fault Refusal :=
  if !s.on .winzLinkUp d port then .next s else
  let i := port.val * 256 + lane
  let s := s.inc .winzCrcErrors d port
  let n := if s.rd .winzLaneSf d i = s.sf then s.rd .winzLaneErrs d i + 1 else 1
  let s := s.wrs d i [(.winzLaneSf, s.sf), (.winzLaneErrs, min n 255)]
  .next <|
    if n ≠ 8 || (s.canary.any fun c => c.die == d && c.kind == 5 && c.idx == i) then s
    else if winzSpares ≤ s.rd .winzSparesUsed d port then
      ((s.wr .winzSpareExhausted d port 1).raise Reason.spareExhausted (blkId d d.anchor) 5).canaryStart d 5 i true
    else (((s.bump .winzSparesUsed d port).wr .winzDegraded d port 1).canaryStart d 5 i)

/-- LINK_DOWN (R34): both ends clear link_up and raise an event, outstanding requests complete RESET_ABORTED. -/
def execLinkDown (d : Die) (port : Fin 4) (s : State) : Host.Outcome State Fault Refusal :=
  match farPort d port with
  | none => .next s
  | some (e, q) =>
    if !s.on .winzLinkUp d port then .next s else
    let s := ((s.linkDrop d port).raiseField .winzLinkUp d port).raiseField .winzLinkUp e q
    let n := nearPort d port
    .next ((s.abortTo (fun t _ => (beyond d port).contains t) (some n)).dropFromCommit
      ((beyond d port).filter fun t => !(s.commit.any fun c => c.go.contains t)))

/-- A reply to the request of a ring and slot is stale (R38): no such request is outstanding, it carries another incarnation
than the request, or the target has a new one. -/
def State.replyStale (s : State) (ring slot inc : Nat) : Bool :=
  match s.requests.find? fun r => r.ring == ring && r.slot == slot with
  | none => true
  | some r => inc != r.inc || s.rd .incarnation r.die r.dom != inc

/-- STALE_REPLY (R38): a reply carrying an old incarnation, or answering a request already completed, is discarded and
counted at the port it arrives by; any other reply is left to its own command. -/
def execStaleReply (d : Die) (port : Fin 4) (incarnation : Fin 16) (ring slot : Nat) (s : State) :
    Host.Outcome State Fault Refusal :=
  if (farPort d port).isSome && s.has d && s.replyStale ring slot incarnation then .next (s.inc .winzStaleReplies d port)
  else .next s

/-- The four counters of a winze port (R42). -/
def winzCounters : List Fld := [.winzCrcErrors, .winzAbortedRequests, .winzStaleReplies, .winzTxUnderrun]

/-- WINZ_CNT_CLR (R42): clear_all clears the four counters of the port. -/
def execWinzCntClr (d : Die) (port : Fin 4) (s : State) : Host.Outcome State Fault Refusal :=
  .next (s.writeReg d .winzClearAll port fun s => s.zeros d port winzCounters)

end Sys2Proof.Machine
end

