-- ==== Sys2Proof/Machine/Attach.lean ====
section
/-! DEFINITION. Line converters and the optical-engine attach sites (R93 to R148). -/

namespace Sys2Proof.Machine

/-- A signed number kept in an internal field. -/
def State.rdInt (s : State) (f : Fld) (d : Die) (i : Nat := 0) : Int := toInt f.row.width (s.rd f d i)

/-- A signed number written to an internal field. -/
def State.wrInt (s : State) (f : Fld) (d : Die) (i : Nat) (v : Int) : State := s.wr f d i (ofInt f.row.width v)

/-- A flag set, with one event when it sets from 0. -/
def State.setOnce (s : State) (f : Fld) (d : Die) (i : Nat := 0) (arg1 : Nat := 0) : State :=
  if s.on f d i then s
  else (s.wr f d i 1).raise Reason.fieldEvent (f.block d i) (f.offsetAt i + 2 ^ 24 * f.bitAt i) arg1

/-- The cause in force that keeps OE_TXDIS asserted, highest first; 0 for none but the release (R124, R127). -/
def State.txdisCause (s : State) (d : Die) : Nat :=
  if !s.on .sitePresent d then 1
  else if s.on .siteFault d && s.on .dacFaultAutodis d then 2
  else if s.domInReset d Dom.convTx || s.domInReset d Dom.auxm || s.domSt d Dom.convTx ≠ 0 || s.domSt d Dom.auxm ≠ 0 then 3
  else if !s.on .dacTxEnable d then 4
  else if s.on .dacOeTxdisForce d then 5
  else 0

/-- The DACs of a site that is enabled and present, with CONV_TX and AUXM in Run (R125). -/
def State.dacReady (s : State) (d : Die) : Bool :=
  s.on .dacTxEnable d && s.on .sitePresent d && s.domSt d Dom.convTx == 0 && s.domSt d Dom.auxm == 0 &&
    !s.domInReset d Dom.convTx && !s.domInReset d Dom.auxm

/-- The DACs begin to send when the last of the conditions of R125 comes to hold: the count starts at the first SF boundary at
or after this moment. -/
def State.dacFollow (s : State) (d : Die) : State :=
  if s.dacReady d = s.on .dacUp d then s
  else if s.on .dacUp d then s.wr .dacUp d 0 0
  else s.wrs d 0 [(.dacUp, 1), (.dacSent, 0), (.dacPart, b2n (s.sfOff != 0))]

/-- OE_TXDIS follows its causes at once; with none left it waits for its release (R124, R125). The balls of a site whose AUXM
is down or in reset: OE_TXDIS undriven, SPI low in Deep sleep and Off (R126, R142). -/
def State.txdisUpdate (s : State) (d : Die) : State :=
  let s := s.dacFollow d
  let dead := s.domDead d Dom.auxm
  let s := s.wrs d 0 [(.spiLow, b2n dead), (.txdisDrive, b2n (!dead && !s.domInReset d Dom.auxm))]
  let c := s.txdisCause d
  if c ≠ 0 then s.wrs d 0 [(.siteTxdisState, 1), (.siteTxdisCause, c)]
  else s.wr .siteTxdisCause d 0 (if s.on .siteTxdisState d then 6 else 0)

/-- The DACs send the transmit signal: not in the pause of R119. -/
def State.dacSending (s : State) (d : Die) : Bool := s.dacReady d && !s.on .dacPause d

/-- The next unit of an ADC's rotation; from 64 it returns to 0 and counts a rotation (R102). -/
def State.calAdvance (s : State) (d : Die) (a : Nat) : State :=
  let u := s.rd .adcCalUnit d a
  let s := s.wr .calSkip d a 0
  if u < 64 then s.wr .adcCalUnit d a (u + 1) else (s.wr .adcCalUnit d a 0).bump .adcCalRotations d a

/-- What the end of a window does to its unit (R102 to R104, R106). The event of cal_starved carries the ADC and 256 × the
unit in arg1; the unit index of a slice's canary test is 65 × the ADC plus the unit (assumption 60). -/
def State.calResult (s : State) (d : Die) (a : Nat) (inRange : Bool) : State :=
  let s := if s.rd .adcCalUnit d a < 64 then s.count d (0x37 + 8 * a) else s
  let s := if s.on .calDiscarded d a then s else s.count d (0x32 + 8 * a)
  if s.on .calDiscarded d a then
    if s.rd .adcCalSkipLimit d ≠ 0 ∧ s.rd .adcCalSkipLimit d ≤ s.rd .calSkip d a then
      ((s.wr .adcCalStarved d a 1).raise Reason.fieldEvent (blkId d Dom.convRx)
        (Fld.offsetAt .adcCalStarved a + 2 ^ 24 * Fld.bitAt .adcCalStarved a) (a + 256 * s.rd .adcCalUnit d a)).calAdvance d a
    else s
  else if inRange then s.calAdvance d a
  else ((s.wrs d a [(.calPaused, 1), (.calSkip, 0)]).count d (0x34 + 8 * a)).canaryStart d 4 (a * 65 + s.rd .adcCalUnit d a)

/-- A Face die's line ADCs convert the line: present, powered, and not in foreground calibration, which ignores the line inputs
(R107). -/
def State.adcOn (s : State) (n : Nat) : Bool :=
  s.hasCarrier n && s.domUp (faceOf n) Dom.convRx && !s.domInReset (faceOf n) Dom.convRx && !s.on .fgCal (faceOf n)

/-- CAL_WINDOW_END (R99 to R106): at an SF count that is a multiple of 16, the window that began 16 SF ago or earlier ends with
its result; then the next window begins unless frozen, halted or paused. -/
def execCalWindowEnd (n a : Fin 4) (inRange : Bool) (s : State) : Host.Outcome State Fault Refusal :=
  let d := faceOf n
  if !s.adcOn n || s.sf % 16 ≠ 0 || (s.on .calActive d a && decide (s.sf < s.rd .calStart d a + 16)) then .next s else
  let s := if s.on .calActive d a then s.calResult d a inRange else s
  .next (s.wrs d a [(.calDiscarded, 0), (.calStart, s.sf),
    (.calActive, b2n (!s.on .adcCalFreeze d && !s.on .adcCalHalted d a && !s.on .calPaused d a))])

/-- The unit under calibration, or the one its samples are paired with, is the one that saturated (R100, R101, R103). -/
def State.calTouches (s : State) (d : Die) (a unit : Nat) : Bool :=
  let u := s.rd .adcCalUnit d a
  unit == u || (if u < 64 then unit == 64 else unit == s.rd .adcCalRotations d a % 64)

/-- ADC_OVERRANGE (R103, R108, R109): the sticky bit with its event, the count of the SF, and the window discarded. -/
def execAdcOverrange (n a : Fin 4) (unit : Fin 65) (s : State) : Host.Outcome State Fault Refusal :=
  let d := faceOf n
  if !s.adcOn n then .next s else
  let s := ((s.setOnce .adcOvrSticky d a).inc .ovrCount d a).count d (0x30 + 8 * a)
  .next <|
    if s.on .calActive d a && !s.on .calDiscarded d a && s.calTouches d a unit then
      (((s.wr .calDiscarded d a 1).inc .adcCalDiscards d a).inc .calSkip d a).count d (0x33 + 8 * a)
    else s

/-- One ADC lane's latches at an SF boundary (R109, R111, R114); an SF of foreground calibration, whose line inputs are ignored,
breaks both runs (R107). -/
def State.ovrLatch (s : State) (d : Die) (a peak : Nat) : State :=
  if s.on .fgCal d then s.wrs d a [(.adcOvrSfCount, 0), (.ovrCount, 0), (.ovrRun, 0), (.tiaQuiet, 0)] else
  let c := s.rd .ovrCount d a
  let s := s.wrs d a [(.adcOvrSfCount, c), (.ovrCount, 0)]
  let s := if c = 0 then s else (s.inc .adcOvrSfTotal d a).count d (0x31 + 8 * a)
  let s := s.wr .ovrRun d a
    (if s.on .tiaHold d a || c < max 1 (s.rd .adcOvrThresh d) then 0 else min 255 (s.rd .ovrRun d a + 1))
  s.wr .tiaQuiet d a (if peak ≤ s.rd .adcTiaUpLevel d then satAdd 16 (s.rd .tiaQuiet d a) 1 else 0)

/-- The DACs' own count at an SF boundary (R125). -/
def State.dacTick (s : State) (d : Die) : State :=
  if !s.dacSending d then s
  else if s.on .dacPart d then s.wr .dacPart d 0 0
  else (List.range 4).foldl (fun s a => s.count d (0x52 + 4 * a)) (s.inc .dacSent d)

/-- A foreground calibration of a Face die's converters begins (R107): its background windows end, and a slice whose fault is
recorded stays replaced by the spare (R106). -/
def State.fgBegin (s : State) (d : Die) : State :=
  if !d.isFace then s else
  (List.range 4).foldl (fun s a =>
    let s := s.wr .calActive d a 0
    if s.rd .adcRetired d a = 0 then s else s.wrs d a [(.adcSpareRetired, 1), (.adcCalHalted, 1)]) (s.wr .fgCal d 0 1)

/-- The end of a foreground calibration (R99, R107, R119): the rotations restart at unit 0 with the next window, and the DACs
send again. -/
def State.fgEnd (s : State) (d : Die) : State :=
  let s := (List.range 4).foldl (fun s a =>
    let s := s.count d (0x36 + 8 * a)
    if s.on .adcCalHalted d a then s
    else s.wrs d a [(.adcCalUnit, 0), (.calSkip, 0), (.calDiscarded, 0), (.calPaused, 0), (.calActive, 0)]) s
  let part := if s.on .dacPause d then b2n (s.sfOff != 0) else s.rd .dacPart d
  s.wrs d 0 [(.fgCal, 0), (.dacPause, 0), (.dacPart, part)]

/-- FOREGROUND_CAL_DONE (R107, R119). -/
def execForegroundCalDone (n : Fin 4) (s : State) : Host.Outcome State Fault Refusal :=
  .next (if s.on .fgCal (faceOf n) then s.fgEnd (faceOf n) else s)

/-- A gain request queued for a lane, and the hold-off started (R111, R112, R114). -/
def State.tiaRequest (s : State) (d : Die) (a : Nat) (up : Bool) : State :=
  let s : State := { s with spi := s.spi ++ [⟨d, .tia a up, []⟩] }
  ((s.inc .adcTiaRequests d a).count d (0x35 + 8 * a)).wrs d a [(.tiaHold, 1), (.tiaHoldUntil, s.sf + s.rd .adcTiaHoldoff d),
    (.ovrRun, 0)]

/-- TIA_GAIN_DOWN (R111 to R113). -/
def execTiaGainDown (n a : Fin 4) (s : State) : Host.Outcome State Fault Refusal :=
  let d := faceOf n
  if !(s.on .adcTiaReqEn d && decide (4 ≤ s.rd .ovrRun d a) && !s.on .tiaHold d a && s.on .sitePresent d) then .next s
  else if s.rd .adcTiaGainShadow d a ≤ s.rd .tiaMin d then .next (s.setOnce .adcTiaAtMin d a)
  else .next (s.tiaRequest d a false)

/-- TIA_HOLDOFF_END (R112): counting starts again. -/
def execTiaHoldoffEnd (n a : Fin 4) (s : State) : Host.Outcome State Fault Refusal :=
  let d := faceOf n
  if s.on .tiaHold d a && decide (s.rd .tiaHoldUntil d a ≤ s.sf)
  then .next (s.wrs d a [(.tiaHold, 0), (.ovrRun, 0)]) else .next s

/-- TIA_GAIN_UP (R114). -/
def execTiaGainUp (n a : Fin 4) (s : State) : Host.Outcome State Fault Refusal :=
  let d := faceOf n
  if s.on .adcTiaUpEn d && decide (s.rd .adcTiaUpSf d ≤ s.rd .tiaQuiet d a) &&
      decide (s.rd .adcTiaGainShadow d a < s.rd .tiaMax d) && !s.on .tiaHold d a && s.on .sitePresent d
  then .next (s.tiaRequest d a true)
  else .next s

/-- The order in which a free controller takes transactions (R129). -/
def SpiKind.rank : SpiKind → Nat
  | .tia _ _ => 0
  | .trim _ => 1
  | .host _ => 2

/-- The pending transaction a free controller takes: lowest rank, oldest first (R129). -/
def nextSpi (d : Die) (l : List SpiReq) : Option SpiReq :=
  let mine := l.filter (·.die == d)
  (List.range 3).findSome? fun k => mine.find? fun r => SpiKind.rank r.kind == k

/-- The gain that a TIA request writes: the lane's shadow moved by tia_step and held between tia_min and tia_max (R130). The
shadow is the one of the moment at which the write is sent (assumption 61). -/
def State.tiaValue (s : State) (d : Die) (a : Nat) (up : Bool) : Nat :=
  let v := s.rd .adcTiaGainShadow d a
  max (s.rd .tiaMin d) (min (s.rd .tiaMax d) (if up then v + s.rd .tiaStep d else v - s.rd .tiaStep d))

/-- The trim one step up or down, within its byte (R131, R132). -/
def State.trimValue (s : State) (d : Die) (up : Bool) : Nat :=
  if up then min 255 (s.rd .ptrimShadow d + 1) else s.rd .ptrimShadow d - 1

/-- The bytes a transaction sends (R128, R130, R131): cmd_wr, address and data of the part's own writes, and exactly the host's
bytes. -/
def State.spiBytes (s : State) (d : Die) : SpiKind → List Nat
  | .tia a up => [s.rd .spiCmdWr d, (s.rd .tiaAddrBase d + a) % 256, s.tiaValue d a up]
  | .trim up => [s.rd .spiCmdWr d, s.rd .ptrimAddr d, s.trimValue d up]
  | .host o => (List.range (bits o.arg0.toNat 3 0)).map fun k => o.at (24 + k) 1

/-- SPI_TRANSACTION_START (R122, R128, R129). -/
def execSpiTransactionStart (n : Fin 4) (s : State) : Host.Outcome State Fault Refusal :=
  let d := faceOf n
  if s.spiActive.any (·.die == d) || !s.on .sitePresent d || !s.domUp d Dom.auxm then .next s else
  match nextSpi d s.spi with
  | none => .next s
  | some r => .next { s with spi := s.spi.erase r, spiActive := s.spiActive ++ [{ r with bytes := s.spiBytes d r.kind }] }

/-- A host transaction that writes a TIA register moves that lane's shadow (R130). -/
def State.spiHostShadow (s : State) (d : Die) (o : Desc) : State :=
  let out (k : Nat) : Nat := o.at (24 + k) 1
  let a := out 1 - s.rd .tiaAddrBase d
  if bits o.arg0.toNat 3 0 = 3 ∧ bits o.arg0.toNat 7 4 = 0 ∧ out 0 = s.rd .spiCmdWr d ∧ s.rd .tiaAddrBase d ≤ out 1 ∧ a < 4
  then s.wr .adcTiaGainShadow d a (out 2) else s

/-- SPI_TRANSACTION_DONE (R129 to R131, R496): the shadow follows the part's own write; a host transaction completes with
the bytes read in. -/
def execSpiTransactionDone (n : Fin 4) (miso : BitVec 64) (s : State) : Host.Outcome State Fault Refusal :=
  let d := faceOf n
  match s.spiActive.find? (·.die == d) with
  | none => .next s
  | some r =>
    let s : State := { s with spiActive := s.spiActive.erase r }
    match r.kind with
    | .tia a _ => .next (s.wr .adcTiaGainShadow d a (r.bytes.getD 2 0))
    | .trim _ => .next (s.wr .ptrimShadow d 0 (r.bytes.getD 2 0))
    | .host o => .next ((s.spiHostShadow d o).finish 0x18 o .ok (miso.toNat % 2 ^ (8 * bits o.arg0.toNat 7 4)))

/-- OE_SPI (R129, R490, R496): queued for the site, or TARGET_UNPOWERED where the site is absent. -/
def execOeSpi (d : Desc) (s : State) : Host.Outcome State Fault Refusal :=
  let t := (d.die.getD .m0)
  let bad := !t.isFace || d.target.toNat % 4096 != Dom.auxm * 64 || 8 < bits d.arg0.toNat 3 0 || 8 < bits d.arg0.toNat 7 4 ||
    d.arg0.toNat / 256 != 0 || !d.clearFrom 32
  .next <| s.take 0x18 d bad fun s => s.onTarget 0x18 d t Dom.auxm fun s =>
    if s.on .sitePresent t then { s with spi := s.spi ++ [⟨t, .host d, []⟩] } else s.finish 0x18 d .targetUnpowered

/-- POWER_TRIM (R55, R131, R132): at an SF count that is a multiple of 256, the mean of the interval's TX_TAP conversions moves
the trim one step toward the target, or sets ptrim_rail. A higher trim is taken to raise TX_TAP (assumption 62). -/
def execPowerTrim (n : Fin 4) (s : State) : Host.Outcome State Fault Refusal :=
  let d := faceOf n
  if !s.hasCarrier n || s.sf % 256 ≠ 0 then .next s else
  let k := s.rd .trimCount d
  let sum := s.rd .trimSum d
  let want := s.rd .ptrimTarget d * k
  let v := s.rd .ptrimShadow d
  let up := decide (sum < want)
  let far := decide (s.rd .ptrimDead d * 8 * k < (if sum < want then want - sum else sum - want))
  let s := s.wrs d 0 [(.trimSum, 0), (.trimCount, 0)]
  if !(s.on .ptrimEn d && far && s.on .sitePresent d) then .next s
  else if (up && v == 255) || (!up && v == 0) then .next (s.setOnce .sitePtrimRail d)
  else .next { s with spi := s.spi ++ [⟨d, .trim up, []⟩] }

/-- A loop's six bias channels: arm A and arm B of I, Q and P (R133). -/
def biasArm (p k : Nat) : Nat := p * 6 + 2 * k

/-- A bias code written within its range; at either end the channel's rail sets with one event (R139). -/
def State.biasCode (s : State) (d : Die) (ch : Nat) (v : Int) : State :=
  let s := s.wr .biasCode d ch (max 0 (min 0xFFF v)).toNat
  if v ≤ 0 ∨ 0xFFF ≤ v then s.setOnce .biasRail d ch else s

/-- The arms of one bias driven from its value v, held to ±0x7FF, and its dither, which the bias code takes on arm A and arm B in
opposite senses (R134, R135, assumption 63). Without push-pull arm B holds the host's code. -/
def State.biasDrive (s : State) (d : Die) (p k : Nat) (v dither : Int) : State :=
  let v := max (-0x7FF) (min 0x7FF v)
  let b := biasArm p k + 1
  let s := s.biasCode d (biasArm p k) (0x800 + v + dither)
  if s.on .loopPushpull d p then s.biasCode d b (0x800 - v - dither) else s.wr .biasCode d b (s.rd .biasHost d b)

/-- The Walsh codes of R135: the sign of W1 (I), W2 (Q) and W3 in a chip. -/
def walsh : Nat → Nat → Int
  | 0, c => if c % 2 = 0 then 1 else -1
  | 1, c => if c < 2 then 1 else -1
  | _, c => if c = 0 ∨ c = 3 then 1 else -1

/-- The codes of a chip: I and Q dithered, the phase without dither (R135). -/
def State.biasDither (s : State) (d : Die) (p chip : Nat) : State :=
  let amp : Int := max 1 (s.rd .loopDitherAmp d p)
  let s := s.biasDrive d p 0 (s.rdInt .biasV d (p * 4)) (walsh 0 chip * amp)
  let s := s.biasDrive d p 1 (s.rdInt .biasV d (p * 4 + 1)) (walsh 1 chip * amp)
  s.biasDrive d p 2 (s.rdInt .biasV d (p * 4 + 2)) 0

/-- The codes without dither (R137). -/
def State.biasPlain (s : State) (d : Die) (p : Nat) : State :=
  (List.range 3).foldl (fun s k => s.biasDrive d p k (s.rdInt .biasV d (p * 4 + k)) 0) s

/-- The channels of a loop in OFF hold the host's codes (R137). -/
def State.biasHostCodes (s : State) (d : Die) (p : Nat) : State :=
  (List.range 6).foldl (fun s k => s.wr .biasCode d (p * 6 + k) (s.rd .biasHost d (p * 6 + k))) s

/-- The arms B of a loop in HOLD whose push-pull setting is written (R134, R140). -/
def State.biasArms (s : State) (d : Die) (p : Nat) : State :=
  (List.range 3).foldl (fun s k =>
    let b := biasArm p k + 1
    s.wr .biasCode d b (if s.on .loopPushpull d p then min 0xFFF (0x1000 - s.rd .biasCode d (biasArm p k)) else s.rd .biasHost d b)) s

/-- Sums of a loop back to 0. -/
def State.biasClear (s : State) (d : Die) (p : Nat) : State :=
  (List.range 3).foldl (fun s k => (s.wr .biasPart d (p * 4 + k) 0).wr .biasCorr d (p * 4 + k) 0)
    (s.wrs d p [(.biasChip, 0), (.biasVoid, 0), (.biasPeriods, 0), (.biasLockRun, 0), (.biasSum, 0), (.biasGood, 0), (.biasAsked, 0)])

/-- A loop enters a state (R137): OFF gives the channels back to the host's codes, HOLD keeps the last loop values; ACQUIRE and
TRACK start from the codes in force, with dither from the next chip boundary on, at once where this is one (R135). -/
def State.biasEnter (s : State) (d : Die) (p mode : Nat) : State :=
  let was := s.rd .loopState d p
  let s := s.wrs d p [(.loopState, mode), (.biasModePend, 0), (.biasWait, b2n (decide (was < 2) && decide (2 ≤ mode)))]
  if mode = 0 then s.biasHostCodes d p
  else if mode = 1 then (if was < 2 then s else s.biasPlain d p)
  else if was < 2 then
    ((List.range 3).foldl (fun s k =>
      s.wrInt .biasV d (p * 4 + k) ((s.rd .biasCode d (biasArm p k) : Int) - 0x800)) s).biasClear d p
  else (s.biasClear d p).biasDither d p 0

/-- A mode written by the host: at once in OFF and HOLD, else at the next chip boundary (R140). A site that is absent holds
its loops in OFF (R122). -/
def State.biasMode (s : State) (d : Die) (p : Nat) : State :=
  if !s.on .sitePresent d then s.wr .loopState d p 0
  else if s.rd .loopState d p < 2 then s.biasEnter d p (s.rd .loopMode d p)
  else s.wr .biasModePend d p 1

/-- The biases moved by the accumulated correlations; ACQUIRE moves on to TRACK after four quiet updates (R136, R137).
The quotient is rounded toward minus infinity, and so is a chip's mean (assumption 20). -/
def State.biasUpdate (s : State) (d : Die) (p : Nat) : State :=
  let acq := s.rd .loopState d p == 2
  let g : Int := if acq then 8 else 1
  let c (k : Nat) : Int := s.rdInt .biasCorr d (p * 4 + k)
  let sgn : Int := if s.on .loopQuadPol d p then -1 else 1
  let giq : Int := s.rd .loopGainIq d p
  let gp : Int := s.rd .loopGainP d p
  let lim : Int := s.rd .loopLockThresh d p * max 1 (s.rd .loopAvgPeriods d p)
  let move (s : State) (k : Nat) (x : Int) : State :=
    s.wrInt .biasV d (p * 4 + k) (max (-0x7FF) (min 0x7FF (s.rdInt .biasV d (p * 4 + k) - x / 4096)))
  let quiet := decide ((c 0).natAbs < lim) && decide ((c 1).natAbs < lim) && decide ((c 2).natAbs < lim)
  let run := if acq && quiet then s.rd .biasLockRun d p + 1 else 0
  let s := move (move (move s 0 (c 0 * giq * g)) 1 (c 1 * giq * g)) 2 (sgn * c 2 * gp * g)
  let s := (List.range 3).foldl (fun s k => s.wr .biasCorr d (p * 4 + k) 0) s
  s.wrs d p [(.biasPeriods, 0), (.biasLockRun, if run = 4 then 0 else run), (.loopState, if run = 4 then 3 else s.rd .loopState d p)]

/-- A four-chip period ends: a void one counts in bias_discard, a good one is accumulated (R136, R138). -/
def State.biasPeriodEnd (s : State) (d : Die) (p : Nat) : State :=
  let s := if s.on .biasVoid d p then s.inc .loopBiasDiscard d p
    else ((List.range 3).foldl (fun s k => s.wrInt .biasCorr d (p * 4 + k)
      (s.rdInt .biasCorr d (p * 4 + k) + s.rdInt .biasPart d (p * 4 + k))) s).inc .biasPeriods d p
  let s := (List.range 3).foldl (fun s k => s.wr .biasPart d (p * 4 + k) 0) (s.wr .biasVoid d p 0)
  if max 1 (s.rd .loopAvgPeriods d p) ≤ s.rd .biasPeriods d p then s.biasUpdate d p else s

/-- A loop's chip closes (R136, R138): its mean enters the correlations, or it voids its period. -/
def State.biasChipEnd (s : State) (d : Die) (p : Nat) (runs : Bool) : State :=
  let k := s.rd .biasChip d p
  let good := s.rd .biasGood d p
  let mean := s.rd .biasSum d p / good
  let s := if runs && decide (max 1 (s.rd .loopSamplesPerChip d p) ≤ 2 * good) then (List.range 3).foldl (fun s j =>
      s.wrInt .biasPart d (p * 4 + j) (s.rdInt .biasPart d (p * 4 + j) + walsh j k * mean)) s
    else s.wr .biasVoid d p 1
  (if k = 3 then s.biasPeriodEnd d p else s).wrs d p [(.biasChip, (k + 1) % 4), (.biasSum, 0), (.biasGood, 0), (.biasAsked, 0)]

/-- The bias loops of a die run: LE0 executes and AUXM takes traffic (R141, R142). -/
def State.loopsRun (s : State) (d : Die) : Bool := s.on .fwRunning d 0 && s.domUp d Dom.auxm && !s.domInReset d Dom.auxm

/-- BIAS_CHIP_BOUNDARY (R134 to R142): at an SF count that is a multiple of chip_sf, the chip's mean closes, a pending mode
takes effect, the next chip's signs drive. While the loops do not run the codes hold and the period is void. -/
def execBiasChipBoundary (n : Fin 4) (p : Fin 2) (s : State) : Host.Outcome State Fault Refusal :=
  let d := faceOf n
  if s.rd .loopState d p < 2 || s.sf % max 1 (s.rd .loopChipSf d p) ≠ 0 || s.rd .biasChipAt d p == s.sf + 1 then .next s else
  let runs := s.loopsRun d
  let k := s.rd .biasChip d p
  let wait := s.on .biasWait d p
  let s := s.wr .biasChipAt d p (s.sf + 1)
  let s := if wait then s else s.biasChipEnd d p runs
  if !runs then .next s
  else if wait && !s.on .biasModePend d p then .next (((s.wr .biasWait d p 0).biasClear d p).biasDither d p 0)
  else if s.on .biasModePend d p then .next (s.biasEnter d p (s.rd .loopMode d p))
  else .next (s.biasDither d p ((k + 1) % 4))

/-- The SPI transactions of a site end: its own are dropped, the host's complete TARGET_UNPOWERED (R122, R129). -/
def State.spiFlush (s : State) (d : Die) : State :=
  let mine := (s.spiActive ++ s.spi).filter (·.die == d)
  mine.foldl (fun s r => match r.kind with | .host o => s.finish 0x18 o .targetUnpowered | .tia _ _ | .trim _ => s)
    { s with spi := s.spi.filter (·.die != d), spiActive := s.spiActive.filter (·.die != d) }

/-- The bias loops of a site held in OFF (R122). -/
def State.biasOff (s : State) (d : Die) : State := [0, 1].foldl (fun s p => s.biasEnter d p 0) s

/-- SITE_PRESENCE_CHANGE (R122, R124, R125): after 10 ms of a steady OE_PRESENT. -/
def execSitePresenceChange (n : Fin 4) (present : Bool) (s : State) : Host.Outcome State Fault Refusal :=
  let d := faceOf n
  if !s.hasCarrier n || s.on .sitePresent d = present then .next s else
  let s := (s.wrs d 0 [(.sitePresent, b2n present), (.sitePresentChanged, 1)]).raiseField .sitePresent d
  .next ((if present then s else (s.biasOff d).spiFlush d).txdisUpdate d)

/-- OE_FAULT (R123, R124): a low of 1 µs or longer. -/
def execOeFault (n : Fin 4) (s : State) : Host.Outcome State Fault Refusal :=
  let d := faceOf n
  if !s.hasCarrier n || s.on .siteFault d then .next s
  else .next (((s.wrs d 0 [(.siteFault, 1), (.siteFaultSticky, 1)]).raiseField .siteFault d).txdisUpdate d)

/-- OE_FAULT_END (R123 to R125): the cause ends. -/
def execOeFaultEnd (n : Fin 4) (s : State) : Host.Outcome State Fault Refusal :=
  if !s.on .siteFault (faceOf n) then .next s else .next ((s.wr .siteFault (faceOf n) 0 0).txdisUpdate (faceOf n))

/-- TXDIS_RELEASE (R125): at an SF boundary with no cause left and 64 complete SFs sent. -/
def execTxdisRelease (n : Fin 4) (s : State) : Host.Outcome State Fault Refusal :=
  let d := faceOf n
  if s.txdisCause d = 0 ∧ 64 ≤ s.rd .dacSent d then .next (s.wrs d 0 [(.siteTxdisState, 0), (.siteTxdisCause, 0)])
  else .next s

end Sys2Proof.Machine
end

