-- ==== Sys2Proof/Machine/Cipher.lean ====
section
/-! DEFINITION. The algorithms that R395, R404 and R427 name by their standards: AES-256 (FIPS 197), AES-256-GCM (NIST SP
800-38D) and the AES key unwrap KW (NIST SP 800-38F). Blocks are numbers of 128 bits, first byte highest
(assumption 11). -/

namespace Sys2Proof.Machine

/-- The S-box, 16 entries a row, the first highest (FIPS 197). -/
def sboxRows : List Nat :=
  [0x637c777bf26b6fc53001672bfed7ab76, 0xca82c97dfa5947f0add4a2af9ca472c0,
   0xb7fd9326363ff7cc34a5e5f171d83115, 0x04c723c31896059a071280e2eb27b275,
   0x09832c1a1b6e5aa0523bd6b329e32f84, 0x53d100ed20fcb15b6acbbe394a4c58cf,
   0xd0efaafb434d338545f9027f503c9fa8, 0x51a3408f929d38f5bcb6da2110fff3d2,
   0xcd0c13ec5f974417c4a77e3d645d1973, 0x60814fdc222a908846eeb814de5e0bdb,
   0xe0323a0a4906245cc2d3ac629195e479, 0xe7c8376d8dd54ea96c56f4ea657aae08,
   0xba78252e1ca6b4c6e8dd741f4bbd8b8a, 0x703eb5664803f60e613557b986c11d9e,
   0xe1f8981169d98e949b1e87e9ce5528df, 0x8ca1890dbfe6426841992d0fb054bb16]

/-- The inverse S-box, in the same form (FIPS 197). -/
def invSboxRows : List Nat :=
  [0x52096ad53036a538bf40a39e81f3d7fb, 0x7ce339829b2fff87348e4344c4dee9cb,
   0x547b9432a6c2233dee4c950b42fac34e, 0x082ea16628d924b2765ba2496d8bd125,
   0x72f8f66486689816d4a45ccc5d65b692, 0x6c704850fdedb9da5e154657a78d9d84,
   0x90d8ab008cbcd30af7e45805b8b34506, 0xd02c1e8fca3f0f02c1afbd0301138a6b,
   0x3a9111414f67dcea97f2cfcef0b4e673, 0x96ac7422e7ad3585e2f937e81c75df6e,
   0x47f11a711d29c5896fb7620eaa18be1b, 0xfc563e4bc6d279209adbc0fe78cd5af4,
   0x1fdda8338807c731b11210592780ec5f, 0x60517fa919b54a0d2de57a9f93c99cef,
   0xa0e03b4dae2af5b0c8ebbb3c83539961, 0x172b047eba77d626e169146355210c7d]

/-- A function of a number that is worked out first, so that the kernel does not work it out at each use. -/
def strict {α : Type} (n : Nat) (f : Nat → α) : α :=
  match n with
  | 0 => f 0
  | k + 1 => f (k + 1)

/-- A byte looked up in a table of 16 rows. -/
def boxAt (t : List Nat) (b : Nat) : Nat := t.getD (b / 16) 0 / 2 ^ (8 * (15 - b % 16)) % 256

/-- The bytes of a number, highest first. -/
def beBytes (n v : Nat) : List Nat := (List.range n).map fun k => v / 2 ^ (8 * (n - 1 - k)) % 256

/-- The number that such bytes make. -/
def beValue (l : List Nat) : Nat := l.foldl (fun a b => a * 256 + b) 0

/-- Multiplication by x in GF(2^8) (FIPS 197). -/
def xtime (b : Nat) : Nat := if b < 128 then 2 * b else Nat.xor (2 * b) 0x11B

/-- Multiplication in GF(2^8) by a factor below 16 (FIPS 197). -/
def gmul (k b : Nat) : Nat :=
  let part (i v : Nat) : Nat := if bit k i then v else 0
  strict b fun b => strict (xtime b) fun b2 => strict (xtime b2) fun b4 =>
    Nat.xor (Nat.xor (part 0 b) (part 1 b2)) (Nat.xor (part 2 b4) (part 3 (xtime b4)))

/-- A table applied to each byte of a word. -/
def subWord (t : List Nat) (n v : Nat) : Nat := beValue ((beBytes n v).map (boxAt t))

/-- The next words of the key schedule of AES-256, latest lowest: `i` is the number of the word to come (FIPS 197). -/
def keyWords : Nat → Nat → Nat → Nat
  | 0, _, w => w
  | f + 1, i, w =>
    let t := w % 2 ^ 32
    let t := if i % 8 = 0 then Nat.xor (subWord sboxRows 4 (t % 2 ^ 24 * 256 + t / 2 ^ 24)) (2 ^ (i / 8 - 1 + 24))
      else if i % 8 = 4 then subWord sboxRows 4 t else t
    strict (w * 2 ^ 32 + Nat.xor (w / 2 ^ 224 % 2 ^ 32) t) fun w => keyWords f (i + 1) w

/-- The fifteen round keys of a key, 128 bits each, the first highest (FIPS 197). -/
def roundKeys (key : Nat) : Nat := keyWords 52 8 (key % 2 ^ 256)

/-- Round key `r` of fifteen. -/
def roundKey (keys r : Nat) : Nat := keys / 2 ^ (128 * (14 - r)) % 2 ^ 128

/-- Bytes of a state moved: entry r of column c comes from column c + r × `k` (FIPS 197, ShiftRows and its inverse). -/
def moveRows (k : Nat) (l : List Nat) : List Nat :=
  (List.range 16).map fun j => l.getD ((j / 4 + j % 4 * k) % 4 * 4 + j % 4) 0

/-- Each column of a block multiplied by the circulant matrix of four coefficients (FIPS 197, MixColumns and its inverse). -/
def mixColumns (m : List Nat) (v : Nat) : Nat :=
  beValue ((List.range 16).map fun j => ((List.range 4).map fun k =>
    gmul (m.getD ((k + 4 - j % 4) % 4) 0) (v / 2 ^ (8 * (15 - (j / 4 * 4 + k))) % 256)).foldl Nat.xor 0)

/-- One AES-256 block encrypted under round keys (FIPS 197). -/
def aesEnc (keys block : Nat) : Nat :=
  (List.range 14).foldl (fun v r => strict v fun v => strict (beValue (moveRows 1 ((beBytes 16 v).map (boxAt sboxRows)))) fun v =>
    Nat.xor (if r < 13 then mixColumns [2, 3, 1, 1] v else v) (roundKey keys (r + 1))) (Nat.xor block (roundKey keys 0))

/-- One AES-256 block decrypted under round keys (FIPS 197). -/
def aesDec (keys block : Nat) : Nat :=
  (List.range 14).foldl (fun v r => strict v fun v =>
    strict (Nat.xor (beValue ((moveRows 3 (beBytes 16 v)).map (boxAt invSboxRows))) (roundKey keys (13 - r))) fun v =>
      if r < 13 then mixColumns [14, 11, 13, 9] v else v) (Nat.xor block (roundKey keys 14))

/-- Multiplication in GF(2^128) over the lowest `f` bits of x, from its highest bit on (SP 800-38D). -/
def ghashMul : Nat → Nat → Nat → Nat → Nat
  | 0, _, _, z => z
  | f + 1, x, v, z =>
    strict (if v % 2 = 0 then v / 2 else Nat.xor (v / 2) (0xE1 * 2 ^ 120)) fun w => strict (if bit x f then Nat.xor z v else z) fun z =>
      ghashMul f x w z

/-- Bytes in blocks of 16, the last filled with zeros; `f` bounds their number. -/
def blocksOf : Nat → List Byte → List Nat
  | 0, _ => []
  | f + 1, l => if l.isEmpty then [] else beNat ((l ++ List.replicate 15 0).take 16) :: blocksOf f (l.drop 16)

/-- GHASH of additional data and cipher data (SP 800-38D). -/
def ghash (h : Nat) (aad data : List Byte) : Nat :=
  strict h fun h => (blocksOf aad.length aad ++ blocksOf data.length data ++ [aad.length * 8 * 2 ^ 64 + data.length * 8]).foldl
    (fun y x => strict (Nat.xor y x) fun x => ghashMul 128 x h 0) 0

/-- Counter mode from a counter block on, its low 32 bits counting (SP 800-38D). -/
def ctrMode (keys : Nat) (j0 : Nat) (data : List Byte) : List Byte :=
  let pad := (blocksOf data.length data).zipIdx.flatMap fun b =>
    strict (aesEnc keys (j0 / 2 ^ 32 * 2 ^ 32 + (j0 + 1 + b.2) % 2 ^ 32)) fun e => (beBytes 16 e).map (BitVec.ofNat 8 ·)
  List.zipWith (· ^^^ ·) data pad

/-- The tag of cipher data (SP 800-38D). -/
def gcmTag (keys : Nat) (j0 : Nat) (aad cipher : List Byte) : BitVec 128 :=
  BitVec.ofNat 128 (Nat.xor (ghash (aesEnc keys 0) aad cipher) (aesEnc keys j0))

/-- AES-256-GCM encryption (R395, R426): key, 96-bit IV, additional data, plain data; the cipher data, of the same length, and
the 128-bit tag. -/
def gcmEncrypt (key iv : Nat) (aad data : List Byte) : List Byte × BitVec 128 :=
  strict (roundKeys key) fun keys => strict (iv * 2 ^ 32 + 1) fun j0 =>
    let c := ctrMode keys j0 data
    (c, gcmTag keys j0 aad c)

/-- AES-256-GCM decryption (R419, R426): key, 96-bit IV, additional data, cipher data; the plain data, and the tag that the
data should carry. -/
def gcmDecrypt (key iv : Nat) (aad data : List Byte) : List Byte × BitVec 128 :=
  strict (roundKeys key) fun keys => strict (iv * 2 ^ 32 + 1) fun j0 => (ctrMode keys j0 data, gcmTag keys j0 aad data)

/-- The 24 steps of the unwrap of four semiblocks, from the last (SP 800-38F): the integrity word and the semiblocks. -/
def unwrapSteps (keys : Nat) : Nat → Nat → List Nat → Nat × List Nat
  | 0, a, r => (a, r)
  | t + 1, a, r =>
    strict (aesDec keys (Nat.xor a (t + 1) * 2 ^ 64 + r.getD (t % 4) 0)) fun b =>
      unwrapSteps keys t (b / 2 ^ 64) (r.set (t % 4) (b % 2 ^ 64))

/-- The key unwrap of R404: key-encrypting key, a wrapped key of 320 bits; none when the integrity check fails. -/
def keyUnwrap (kek wrapped : Nat) : Option Nat :=
  let r := strict (roundKeys kek) fun keys =>
    unwrapSteps keys 24 (wrapped / 2 ^ 256 % 2 ^ 64) ((List.range 4).map fun k => wrapped / 2 ^ (64 * (3 - k)) % 2 ^ 64)
  if r.1 = 0xA6A6A6A6A6A6A6A6 then some (r.2.foldl (fun a b => a * 2 ^ 64 + b) 0) else none

end Sys2Proof.Machine
end

