-- ==== Sys2Proof/Machine/Coding.lean ====
section
/-! DEFINITION. The line's constructions: labels and LLR words (R181, R185, R206), shaping (R209 to R213), training signs
(R217), symbol and position order (R214, R240 to R246), the outer component code (R254), the Mymos scrambler, crc and
alignment pattern (R283, R287, R289), and the tag generator's polynomial step is in Monitor. -/

namespace Sys2Proof.Machine

/-- Exclusive or of two bits. -/
def xorBit (a b : Nat) : Nat := (a + b) % 2

/-- Bits per polarisation of a class (R205). -/
def bitsPerPol (cls : Nat) : Nat := if cls = 0 then 4 else 6

/-- Amplitude values per dimension of a class (R205). -/
def ampsOf (cls : Nat) : Nat := if cls = 0 then 2 else 4

/-- The amplitude bits of a magnitude (R206). -/
def ampBits (cls amp : Nat) : Nat :=
  if cls = 0 then (if amp = 1 then 0 else 1)
  else match amp with | 1 => 0 | 3 => 1 | 5 => 3 | _ => 2

/-- An LLR word from |L| and its sign, both in 1/64 nat: the magnitude is |L| / llr_step rounded to the nearest, held at 7
(R185). -/
def llrWord (llrStep : Nat) (l : Int) : BitVec 4 :=
  BitVec.ofNat 4 ((if l < 0 then 8 else 0) + min 7 ((2 * l.natAbs + llrStep) / (2 * llrStep)))

/-- A word with its sign bit inverted and its magnitude kept (R181). -/
def negSign (w : BitVec 4) : BitVec 4 := w ^^^ 8#4

/-- A dimension's label with its sign word negated. -/
def negDim : List (BitVec 4) → List (BitVec 4)
  | [] => []
  | w :: l => negSign w :: l

/-- The label of one polarisation of a symbol corrected for a rotation by k × π/2 (R181): the words are the I label and
then the Q label. -/
def unrotate (k : Nat) (label : List (BitVec 4)) : List (BitVec 4) :=
  let i := label.take (label.length / 2)
  let q := label.drop (label.length / 2)
  match k % 4 with
  | 1 => q ++ negDim i
  | 2 => negDim i ++ negDim q
  | 3 => negDim q ++ i
  | _ => label

/-- A symbol's words (X label, then Y label) with one polarisation corrected (R181, R189). -/
def unrotateSym (pol k : Nat) (sym : List (BitVec 4)) : List (BitVec 4) :=
  let x := sym.take (sym.length / 2)
  let y := sym.drop (sym.length / 2)
  if pol = 0 then unrotate k x ++ y else x ++ unrotate k y

/-- The number of sequences of a composition: n! / Π n_a! (R211). -/
def multinomial (n : Nat) (c : List Nat) : Nat := n.factorial / (c.map Nat.factorial).prod

/-- The energy of a composition (R211): counts of amplitudes 1, 3, 5, 7. -/
def compEnergy (c : List Nat) : Nat := c.getD 0 0 + 9 * c.getD 1 0 + 25 * c.getD 2 0 + 49 * c.getD 3 0

/-- The better of two compositions that carry k bits: less energy, then larger n_1, n_3, n_5 (R211). -/
def betterComp (a b : List Nat) : Bool :=
  compEnergy a < compEnergy b || (compEnergy a == compEnergy b &&
    (b.getD 0 0 < a.getD 0 0 || (a.getD 0 0 == b.getD 0 0 &&
      (b.getD 1 0 < a.getD 1 0 || (a.getD 1 0 == b.getD 1 0 && b.getD 2 0 < a.getD 2 0)))))

/-- Every composition of 512 amplitudes of a class. -/
def allComps (cls : Nat) : List (List Nat) :=
  if cls = 0 then (List.range 513).map fun c => [512 - c, c]
  else (List.range 513).flatMap fun a => (List.range (513 - a)).flatMap fun b =>
    (List.range (513 - a - b)).map fun c => [512 - a - b - c, c, b, a]

/-- The composition of a class and entropy step h (R211). -/
def composition (cls h : Nat) : List Nat :=
  ((allComps cls).filter fun c => 2 ^ (h - 512) ≤ multinomial 512 c).foldl
    (fun best c => if best.isEmpty || betterComp c best then c else best) []

/-- A count taken from a composition. -/
def decAt (c : List Nat) (a : Nat) : List Nat := c.set a (c.getD a 0 - 1)

/-- One amplitude of the sequence of rank I: the index of the amplitude and what is left of the rank (R212). -/
def shapePick (rest : Nat) (c : List Nat) (i : Nat) : Nat → Nat → Nat × Nat
  | 0, a => (a, i)
  | fuel + 1, a =>
    if c.getD a 0 = 0 then shapePick rest c i fuel (a + 1)
    else
      let cnt := multinomial rest (decAt c a)
      if i < cnt then (a, i) else shapePick rest c (i - cnt) fuel (a + 1)

/-- The sequence of rank I of a composition, of n amplitudes (R212). -/
def shapeBlock : Nat → List Nat → Nat → List Nat
  | 0, _, _ => []
  | n + 1, c, i =>
    let p := shapePick n c i c.length 0
    (2 * p.1 + 1) :: shapeBlock n (decAt c p.1) p.2

/-- The rank of a decoded block, and whether every amplitude still had a count (R213): where it had none, the smallest
amplitude that has one is ranked. -/
def rankBlock : List Nat → List Nat → Nat × Bool
  | _, [] => (0, true)
  | c, x :: l =>
    let a := (x - 1) / 2
    let ok := decide (0 < c.getD a 0)
    let a := if ok then a else (findPos (fun n => decide (0 < n)) c).getD 0
    let below := ((List.range a).map fun b => if c.getD b 0 = 0 then 0 else multinomial l.length (decAt c b)).sum
    let r := rankBlock (decAt c a) l
    (below + r.1, ok && r.2)

/-- A decoded block that dm_mismatch counts (R213). -/
def dmMismatch (cls h : Nat) (block : List Nat) : Bool :=
  let r := rankBlock (composition cls h) block
  !r.2 || decide (2 ^ (h - 512) ≤ r.1)

/-- One step of a training or pilot generator: the new register and the sign bit (R217). -/
def nextSign (g : Nat) : Nat × Nat :=
  let f := xorBit (g / 2 ^ 14) (g / 2 ^ 13)
  ((g * 2 + f) % 2 ^ 15, f)

/-- The signs of `n` steps from a seed (R217). -/
def signs : Nat → Nat → List Nat
  | 0, _ => []
  | n + 1, g => (nextSign g).2 :: signs n (nextSign g).1

/-- Carrier symbol t is a pilot, for N subcarriers (R214). -/
def isPilot (n t : Nat) : Bool := decide (256 ≤ t) && ((t - 256) % 64 == (t - 256) / 64 % n)

/-- The index among payload and overhead symbols of carrier symbol t, t ≥ 256 and no pilot (R214). -/
def payloadIndex (n t : Nat) : Nat :=
  let q := (t - 256) / 64
  let r := (t - 256) % 64
  63 * q + (if q % n < r then r - 1 else r)

/-- The payload symbols of subcarrier `sub` from symbol `start` to the one before symbol `stop` (R178, R214, R215). -/
def streamSymbols (n sub start stop : Nat) : List Nat :=
  ((List.range (stop - start)).map (start + ·)).filter fun t => t % n == sub % n && decide (256 ≤ t) && !isPilot n t

/-- Symbol periods in a position (R240). -/
abbrev posLen : Nat := 4095

/-- The rate 1 − Rc of a code as a fraction (R208). -/
def checkFrac (code : Nat) : Nat × Nat := match code with | 0 => (3, 23) | 1 => (1, 6) | 2 => (1, 5) | _ => (7, 32)

/-- Q × 8,190 bits of a position as a fraction: check slots per position (R242). -/
def checkSlots (cls code : Nat) : Nat × Nat := ((checkFrac code).1 * bitsPerPol cls * 8190, (checkFrac code).2)

/-- ⌊k × Q⌋ (R243). -/
def floorQ (cls code k : Nat) : Nat := k * (checkSlots cls code).1 / (checkSlots cls code).2

/-- Outer check slots per position (R242). -/
def outerSlots (cls : Nat) : Nat := if cls = 0 then 576 else 864

/-- Inner parity checks per position, r = ⌈Q − o⌉ (R242). -/
def innerChecks (cls code : Nat) : Nat := ceilDiv (checkSlots cls code).1 (checkSlots cls code).2 - outerSlots cls

/-- The phase period D in SF (R242). -/
def phasePeriod (cls code : Nat) : Nat :=
  match code with | 0 => 23 | 3 => if cls = 0 then 1 else 2 | _ => 1

/-- The check bits of position j of SF s (R243). -/
def checkBits (cls code s j : Nat) : Nat :=
  let b := 252 * (s % phasePeriod cls code) + j
  floorQ cls code (b + 1) - floorQ cls code b

/-- The sign position of check slot i (R244). -/
def slotPos (cls code i : Nat) : Nat := i * 16380 / ceilDiv (checkSlots cls code).1 (checkSlots cls code).2

/-- The fixed slot of outer check t (R244). -/
def outerSlot (cls code t : Nat) : Nat := t * floorQ cls code 1 / outerSlots cls

/-- ⌈Q⌉ of a class and code (R244). -/
def ceilQ (cls code : Nat) : Nat := ceilDiv (checkSlots cls code).1 (checkSlots cls code).2

/-- Q is fractional: a position has a swing slot (R244). -/
def swings (cls code : Nat) : Bool := ceilQ cls code != floorQ cls code 1

/-- Coded bits of a position, N (R240). -/
def posBits (cls : Nat) : Nat := posLen * 2 * bitsPerPol cls

/-- Non-parity variables of the inner code, V (R242). -/
def innerVars (cls code : Nat) : Nat := posBits cls - (floorQ cls code 1 - outerSlots cls)

/-- The mean check degree, in hundredths (R242). -/
def meanDegree (code : Nat) : Nat := match code with | 0 => 2558 | 1 => 1912 | 2 => 1545 | _ => 1391

/-- Position j of SF s is a check-case position: it carries ⌈Q⌉ check bits (R243). -/
def checkCase (cls code s j : Nat) : Bool := swings cls code && checkBits cls code s j == ceilQ cls code

/-- What a sign position carries (R244). -/
inductive SignUse
  | payload
  | outer (t : Nat)
  | parity (k : Nat)
  | swing
  deriving DecidableEq, Repr

/-- The check slot at sign position g of a position, if it is one (R244). -/
def slotAt (cls code g : Nat) : Option Nat :=
  let i := ceilDiv (g * ceilQ cls code) 16380
  if i < ceilQ cls code ∧ slotPos cls code i = g then some i else none

/-- What sign position g of a position carries (R244): ⌈i o / ⌊Q⌋⌉ outer checks lie in the slots below slot i. -/
def signUse (cls code g : Nat) : SignUse :=
  match slotAt cls code g with
  | none => .payload
  | some i =>
    if floorQ cls code 1 ≤ i then .swing
    else
      let t := ceilDiv (i * outerSlots cls) (floorQ cls code 1)
      if t < outerSlots cls ∧ outerSlot cls code t = i then .outer t else .parity (i - t)

/-- The amplitude bits of a magnitude, most significant first (R206). -/
def ampBitList (cls amp : Nat) : List Nat := if cls = 0 then [ampBits cls amp] else [ampBits cls amp / 2, ampBits cls amp % 2]

/-- The magnitude that amplitude bits stand for (R206). -/
def ampOf (cls : Nat) (b : List Nat) : Nat :=
  ([1, 3, 5, 7].find? fun a => decide (a < 2 * ampsOf cls) && ampBitList cls a == b).getD 1

/-- The amplitude with its sign: a sign bit of 0 is positive (R206, R207). -/
def pointOf (d : Nat × Nat) : Int := if d.1 = 0 then d.2 else -(d.2 : Int)

/-- The non-parity variables of a position in line order (R241, R245), from its dimensions' sign bits and magnitudes and the value
of the swing information bit. -/
def posVars (cls code : Nat) (dims : List (Nat × Nat)) (swing : Nat) : List Nat :=
  (dims.zipIdx.flatMap fun e =>
    (match signUse cls code e.2 with
      | .payload | .outer _ => [e.1.1]
      | .parity _ | .swing => []) ++ ampBitList cls e.1.2) ++ (if swings cls code then [swing] else [])

/-- The check that edge e of variable u of within-SF position j reaches (R246). -/
def edgeCheck (u j e r : Nat) : Nat :=
  let m := 2 ^ 32
  let x := (u * 0x9E3779B1 + j * 0x85EBCA77 + e * 0xC2B2AE3D) % m
  let x := (x ^^^ x / 2 ^ 15) * 0x2C1B3C6D % m
  let x := (x ^^^ x / 2 ^ 12) * 0x297A2D39 % m
  let x := x ^^^ x / 2 ^ 15
  x * r / m

/-- One sum bit flipped. -/
def flipAt (l : List Nat) (k b : Nat) : List Nat := l.set k (xorBit (l.getD k 0) b)

/-- The edges of a position's variables into the sums of a position `e` places later (R246). -/
def foldEdges (j e r : Nat) : Nat → List Nat → List Nat → List Nat
  | _, [], sums => sums
  | u, v :: l, sums => foldEdges j e r (u + 1) l (flipAt sums (edgeCheck u j e r) v)

/-- Running parities of the sums (R246). -/
def accumulate : Nat → List Nat → List Nat
  | _, [] => []
  | acc, s :: l => xorBit acc s :: accumulate (xorBit acc s) l

/-- The check where a folded edge of variable u of a chain's tail lands: the first free one from its own (R250). -/
def foldTail (r : Nat) (taken : List Nat) : Nat → Nat → Nat
  | 0, k => k
  | fuel + 1, k => if taken.contains k then foldTail r taken fuel ((k + 1) % r) else k

/-- The checks of a chain's last position that the folded edges e0 + 1 to 2 of a variable of the position e0 before it reach
(R250). -/
def tailChecks (u j e0 r : Nat) : List Nat :=
  (((List.range 3).filter (e0 < ·)).foldl (fun taken e => taken ++ [foldTail r taken 3 (edgeCheck u j e r)])
    [edgeCheck u j e0 r]).drop 1

/-- The sums of a chain's last position with the folded edges (R250). -/
def foldTails (r : Nat) (prev : List (Nat × List Nat)) (sums : List Nat) : List Nat :=
  (prev.zipIdx).foldl (fun sums p => (p.1.2.zipIdx).foldl (fun sums v =>
    (tailChecks v.2 p.1.1 p.2 r).foldl (fun sums k => flipAt sums k v.1) sums) sums) sums

/-- The inner parity bits of a position, from the variables of itself and of the two before it with their within-SF
indices (R246); with `last` the position ends its chain and takes the folded edges too (R250). -/
def encodePosition (r : Nat) (prev : List (Nat × List Nat)) (last : Bool := false) : List Nat :=
  let sums := (prev.zipIdx).foldl (fun sums p => foldEdges p.1.1 p.2 r 0 p.1.2 sums) (List.replicate r 0)
  accumulate 0 (if last then foldTails r prev sums else sums)

/-- The product of two elements of GF(2^12) modulo x^12 + x^6 + x^4 + x + 1 (R254). -/
def gfMul : Nat → Nat → Nat → Nat
  | 0, _, _ => 0
  | fuel + 1, a, b =>
    (if b % 2 = 1 then a else 0) ^^^
      gfMul fuel (if 2 ^ 11 ≤ a then (a * 2) ^^^ 0x1053 else a * 2) (b / 2)

/-- A power of α (R254). -/
def gfPow : Nat → Nat
  | 0 => 1
  | n + 1 => gfMul 12 2 (gfPow n)

/-- The remainder of a bit string over GF(2), first bit highest, by a polynomial of degree `deg` (leading term left out),
continued from `acc`. -/
def polyRem (deg poly : Nat) : Nat → List Nat → Nat
  | acc, [] => acc
  | acc, b :: l =>
    let x := acc * 2 + b % 2
    polyRem deg poly (if 2 ^ deg ≤ x then (x ^^^ poly) % 2 ^ deg else x) l

/-- The minimal polynomial of an element over GF(2), as the product of x + c over its twelve conjugates, low term first
(R254). -/
def minPoly (x : Nat) : Nat → List Nat
  | 0 => [1]
  | k + 1 =>
    let p := minPoly (gfMul 12 x x) k
    List.zipWith (· ^^^ ·) (0 :: p) ((p.map (gfMul 12 x)) ++ [0])

/-- A polynomial over GF(2) as a number, low term in bit 0. -/
def polyNum : List Nat → Nat
  | [] => 0
  | c :: l => c % 2 + 2 * polyNum l

/-- The product of two polynomials over GF(2). -/
def polyMul : Nat → Nat → Nat → Nat
  | 0, _, _ => 0
  | fuel + 1, a, b => (if b % 2 = 1 then a else 0) ^^^ polyMul fuel (a * 2) (b / 2)

/-- The generator of the outer component code, of degree 24 (R254). -/
def bchGen : Nat := polyMul 13 (polyNum (minPoly 2 12)) (polyNum (minPoly (gfPow 3) 12))

/-- The 24 check bits of 3,000 information bits (R254). -/
def bchCheck (info : List Nat) : Nat := polyRem 24 bchGen 0 (info ++ List.replicate 24 0)

/-- A component word with a non-zero remainder has errors left (R254, R259). -/
def bchBad (word : List Nat) : Bool := polyRem 24 bchGen 0 word != 0

/-- The bits of a number, `n` of them, most significant first. -/
def msbBits : Nat → Nat → List Nat
  | 0, _ => []
  | n + 1, v => v / 2 ^ n % 2 :: msbBits n v

/-- CRC-16 with generator x^16 + x^12 + x^5 + 1 (R289): one bit at a time. -/
def crc16 : Nat → List Nat → Nat
  | acc, [] => acc
  | acc, b :: l =>
    let top := xorBit (acc / 2 ^ 15) b
    crc16 ((acc * 2 % 2 ^ 16) ^^^ (if top = 1 then 0x1021 else 0)) l

/-- The crc of bits 0 to 239 of an SF overhead, bit 0 the first sent and highest (R289). -/
def overheadCrc (oh : BitVec 256) : Nat := crc16 0xFFFF (msbBits 240 (oh.toNat / 2 ^ 16))

/-- Bits lo to hi of an SF overhead, most significant first from the lowest bit number (R288). -/
def ohField (oh : BitVec 256) (lo hi : Nat) : Nat := oh.toNat / 2 ^ (255 - hi) % 2 ^ (hi + 1 - lo)

/-- One step of the generator x^31 + x^28 + 1 of the payload area's scrambler and of PRBS31 (R20, R287): the new register and the
bit. -/
def nextPrbs (g : Nat) : Nat × Nat :=
  let f := xorBit (g / 2 ^ 30) (g / 2 ^ 27)
  ((g * 2 + f) % 2 ^ 31, f)

/-- The alignment pattern of an LF (R283). -/
def alignPattern (lf : Nat) : Nat := if lf % 64 = 0 then 0x2D else 0xD2

/-- The overhead word of an LF: the pattern and its four bits of the SF overhead (R283). -/
def lfWord (lf : Nat) (oh : BitVec 256) : Nat := alignPattern lf * 16 + ohField oh (4 * lf) (4 * lf + 3)

/-- The pattern of LF ℓ stands at offset r of an LF's bits (R283, R296). -/
def hasPattern (lf r : Nat) (bits : List Bool) : Bool :=
  decide (r + 8 ≤ bits.length) && ((bits.drop r).take 8).map b2n == msbBits 8 (alignPattern lf)

/-- A candidate of LF ℓ confirmed in the three LFs after it (R297, R298). -/
def patternRun (lf r : Nat) (lfs : List (List Bool)) : Bool :=
  lfs.length == 4 && (lfs.zipIdx).all fun p => hasPattern (lf + p.2) r p.1

/-- Content bits of an epoch of 64 SF for n slices, M slots and a rate in quarters of a GBd (R285). The quotient is
written with every decimal cleared. -/
def epochContent (n m rq : Nat) : Nat :=
  64 * (4560 * n + 60928 * m) * (239 * 99532800000) * 2 ^ 20 / (10 * 226 * 122368 * rq * 250000000)

/-- Slot i of P payload-area bits carries a content bit, for C content bits (R285). -/
def carriesContent (c p i : Nat) : Bool := (i + 1) * c / p - i * c / p == 1

end Sys2Proof.Machine
end

