-- ==== Sys2Proof/Machine/Rates.lean ====
section
/-! DEFINITION. Line rate arithmetic (R205, R208, R221 to R224) and what it says of the on-shift and staged sets of a
carrier (R223, R225 to R229). -/

namespace Sys2Proof.Machine

/-- Which copy of the SH fields a reading takes: the live one or the staged one. -/
inductive Side
  | live | staged
  deriving DecidableEq, Repr

/-- A field of one side. -/
def State.at (s : State) (k : Side) (f : Fld) (d : Die := .m0) (i : Nat := 0) : Nat :=
  match k with
  | .live => s.rd f d i
  | .staged => s.rdOff f d i

/-- The symbol rate in quarters of a GBd (R7). -/
def State.rq (s : State) (k : Side := .live) : Nat := s.at k .symRate

/-- Slices of M tributary slots (R221). -/
def slicesOf (m : Nat) : Nat := ceilDiv m 20

/-- T_M in kb/s (R221). -/
def rateT (m : Nat) : Nat := slicesOf m * 440411 + m * 5240888

/-- 2 η Rs in units of kb/s / 262,144, for a rate in quarters of a GBd (R222). -/
def rate2Eta (rq : Nat) : Nat := 2 * 257985 * rq * 250000

/-- The range of h of a class (R205). -/
def hLow (cls : Nat) : Nat := if cls = 0 then 512 else 1024
/-- The top of the range of h of a class (R205). -/
def hHigh (cls : Nat) : Nat := if cls = 0 then 1019 else 1522

/-- The h that R223 finds for a class, code, M and rate. -/
def requiredH (cls code m rq : Nat) : Nat :=
  let c := (checkFrac code).1 * bitsPerPol cls
  let d := (checkFrac code).2
  max (hLow cls) (ceilDiv (256 * rateT m * 262144 * d + 256 * c * rate2Eta rq) (rate2Eta rq * d))

/-- The h that is applied: R223's, or the host's with auto_h 0. -/
def appliedH (autoH : Bool) (entH cls code m rq : Nat) : Nat := if autoH then requiredH cls code m rq else entH

/-- A rate the staged set may not hold (R205, R221, R223). -/
def rateInvalid (autoH : Bool) (entH cls code m rq : Nat) : Bool :=
  decide (2 ≤ cls) || m % 5 != 0 || decide (m < 80) || decide (480 < m) || decide (hHigh cls < requiredH cls code m rq) ||
    (!autoH && (decide (entH < requiredH cls code m rq) || decide (hHigh cls < entH)))

/-- The fill of R224 in 10 Mb/s, rounded down (R237). -/
def rateFill (cls code h m rq : Nat) : Nat :=
  let c := (checkFrac code).1 * bitsPerPol cls
  let d := (checkFrac code).2
  (rate2Eta rq * (h * d - 256 * c) - rateT m * 262144 * 256 * d) / (262144 * 256 * d * 10000)

/-- The transmit rate of a carrier: class, code, M, applied h. -/
structure LineRate where
  cls : Nat
  code : Nat
  m : Nat
  h : Nat
  deriving DecidableEq, Repr

/-- The transmit rate of a carrier on one side. -/
def State.txRate (s : State) (k : Side) (n : Nat) : LineRate :=
  let d := millOf n
  let c := n % 2
  let cls := s.at k .ltxClass d c
  let code := s.at k .ltxCode d c
  let m := s.at k .ltxM d c
  ⟨cls, code, m, appliedH (s.at k .ltxAutoH d c == 1) (s.at k .ltxEntH d c) cls code m (s.rq k)⟩

/-- The receive rate of a carrier on one side (R238). -/
def State.rxRate (s : State) (k : Side) (n : Nat) : LineRate :=
  let d := millOf n
  let c := n % 2
  let cls := s.at k .lrxClass d c
  let code := s.at k .lrxCode d c
  let m := s.at k .lrxM d c
  ⟨cls, code, m, appliedH (s.at k .lrxAutoH d c == 1) (s.at k .lrxEntH d c) cls code m (s.rq k)⟩

/-- The commit retunes a carrier: it transmits before and after, and its applied rate changes (R225). -/
def State.retunes (s : State) (n : Nat) : Bool :=
  s.hasCarrier n && s.on .dacTxEnable (faceOf n) && s.rdOff .dacTxEnable (faceOf n) == 1 &&
    decide (s.txRate .live n ≠ s.txRate .staged n)

/-- h_active and fill follow the on-shift set (R224, R237). -/
def State.showTxRate (s : State) (n : Nat) : State :=
  let r := s.txRate .live n
  s.wrs (millOf n) (n % 2) [(.ltxHActive, r.h), (.ltxFill, rateFill r.cls r.code r.h r.m s.rq)]

/-- The predicted arrival position, in symbols, of far SF `k` of a carrier (R73). -/
def State.predictedAt (s : State) (n k : Nat) : Nat :=
  s.rd .farLiveArr (millOf n) (n % 2) + k * sfLen - s.rd .farLiveSf (millOf n) (n % 2) * sfLen

/-- The far SF whose predicted arrival is the first at or after a local SF (R72); below 0 where that lies before the far tally's 0. -/
def State.farAfter (s : State) (n sf : Nat) : Int :=
  let live := s.rd .farLiveSf (millOf n) (n % 2)
  let arr := s.rd .farLiveArr (millOf n) (n % 2)
  if arr ≤ sf * sfLen then (live + ceilDiv (sf * sfLen - arr) sfLen : Nat) else (live : Int) - ((arr - sf * sfLen) / sfLen : Nat)

/-- That far SF as a number of the tally. -/
def State.firstFarAfter (s : State) (n sf : Nat) : Nat := (s.farAfter n sf).toNat

/-- A carrier has a prediction (R74). -/
def State.hasPrediction (s : State) (n : Nat) : Bool := s.on .farHasArr (millOf n) (n % 2)

/-- The transmitters that a group's present members feed, of one side's member bits. -/
def groupMembers (mem : Nat) : List Nat := (List.range 4).filter (bit mem)

end Sys2Proof.Machine
end

