-- ==== Sys2Proof/Machine/Telemetry.lean ====
section
/-! DEFINITION. Telemetry sources: a record held for its ring or skipped (R590 to R592), and the codeword tag generator
(R608). -/

namespace Sys2Proof.Machine

/-- The first assay index of a carrier's decoder events on its Mill die (R602). -/
def decAssay (n : Nat) : Nat := 0x50 + 64 * (n % 2)

/-- The first assay index of a carrier's line frame events on its Mill die (R602). -/
def frameAssay (n : Nat) : Nat := 0x114 + 8 * (n % 2)

/-- The ring bound to a source (R492). -/
def State.ringFor (s : State) (cls kind index die : Nat) : Option (Nat × Ring) :=
  s.rings.find? fun p => p.2.cls == cls && p.2.source == some (kind, index, die)

/-- A source's record: padded to its 48 bytes and held for its ring, up to 16 of them; a 17th is skipped, and the first
skip after a written record raises TELEM_MISSED. An unbound source produces nothing (R592). -/
def State.emit (s : State) (source die recType stamp : Nat) (payload : List Byte) : State :=
  if (s.ringFor 3 2 source die).isNone then s
  else
    let held := (s.telem.filter fun t => t.source == source && t.die == die).length
    let skipped := s.telemSkipped.contains (source, die)
    if held < 16 then
      { s with telem := s.telem ++ [⟨source, die, recType, skipped, stamp, (payload ++ List.replicate 48 0).take 48⟩]
               telemSkipped := s.telemSkipped.filter (· != (source, die)) }
    else
      let s := if source = 0x00C then s.inc .tagMissed (millAt die) else s
      if skipped then s
      else State.raise { s with telemSkipped := s.telemSkipped ++ [(source, die)] } Reason.telemMissed
      (blkId .m0 Dom.hostif) (source + 1024 * die)

/-- One step of the tag generator: its new state, and whether the position is tagged at k (R608). -/
def tagStep (g k : Nat) : Nat × Bool :=
  let f := (g / 2 ^ 23 + g / 2 ^ 22 + g / 2 ^ 21 + g / 2 ^ 16) % 2
  let g := (g * 2 + f) % 2 ^ 24
  (g, g % 2 ^ k == 1)

/-- The k in force, from 8 to 24 (R608, R621). -/
def State.tagBits (s : State) (d : Die) : Nat := max 8 (min 24 (s.rd .tagKActive d))

end Sys2Proof.Machine
end

