-- ==== Sys2Proof/Machine/Rings.lean ====
section
/-! DEFINITION. Rings (R476 to R486): space, the entries the part writes with their phase, interrupts (R503, R504), and
rings created and destroyed. -/

namespace Sys2Proof.Machine

/-- Bytes of an entry of a ring class (R476). -/
def entrySize (cls : Nat) : Nat := if cls = 1 ∨ cls = 2 then 32 else 64

/-- The host writes the entries of Command, Overhead-Insert and Lookaside-Crypto rings (R476). -/
def hostWritten (cls : Nat) : Bool := cls == 0 || cls == 4 || cls == 6

/-- Entries of a ring. -/
def Ring.size (r : Ring) : Nat := 2 ^ r.lg

/-- The distance from one index to another, modulo 2 × 2^L (R482). -/
def Ring.ahead (r : Ring) (a b : Nat) : Nat := (b + 2 * r.size - a) % (2 * r.size)

/-- A ring that the part writes has a free entry (R481). -/
def Ring.room (r : Ring) : Bool := decide (r.ahead r.hostIdx r.partIdx < r.size)

/-- The phase bit of the next entry the part writes (R480): 1 on the first pass. -/
def Ring.phase (r : Ring) : Nat := b2n (decide (r.partIdx < r.size))

/-- Bytes written to host memory. -/
def State.toHost (s : State) (addr : Nat) : List Byte → State
  | [] => s
  | b :: l => State.toHost { s with hostMem := Cells.set (fun _ => (0 : Byte)) addr b s.hostMem } (addr + 1) l

/-- A byte of host memory as the part has written it; a byte it has not written reads 0 (assumption 13). -/
def State.hostByte (s : State) (addr : Nat) : Byte := Cells.get (fun _ => (0 : Byte)) addr s.hostMem

/-- A ring replaced. -/
def State.setRing (s : State) (id : Nat) (r : Ring) : State := { s with rings := Cells.put id r s.rings }

/-- A message of a vector: sent, or its pending bit set while the vector is masked (R504). -/
def State.msix (s : State) (fn vec : Nat) : State :=
  if s.msixMasked.contains (fn, vec) then
    if s.msixWaiting.contains (fn, vec) then s else { s with msixWaiting := s.msixWaiting ++ [(fn, vec)] }
  else { s with msixSent := s.msixSent ++ [(fn, vec)] }

/-- A ring's interrupt: one message, and the ring is disarmed (R504). -/
def State.interrupt (s : State) (id : Nat) (r : Ring) : State :=
  (s.msix r.owner r.vec).setRing id { r with armed := false, fresh := 0, freshNow := false }

/-- A ring interrupts at once when it is armed and its count is met or an entry asked for it (R503). -/
def State.signal (s : State) (id : Nat) (r : Ring) : State :=
  if r.irqEn && r.armed && (decide (max 1 r.modCount ≤ r.fresh) || r.freshNow) then s.interrupt id r else s.setRing id r

/-- The part writes one entry to a ring that has room, from its phase bit (R480, R481, R503). -/
def State.writeEntry (s : State) (id : Nat) (r : Ring) (irqNow : Bool) (bytes : Nat → List Byte) : State :=
  let n := entrySize r.cls
  let s := s.toHost (r.base + r.partIdx % r.size * n) ((bytes r.phase ++ List.replicate n 0).take n)
  s.signal id { r with partIdx := (r.partIdx + 1) % (2 * r.size), fresh := r.fresh + 1, freshNow := r.freshNow || irqNow }

/-- The Event ring of a function (R479). -/
def State.eventRing (s : State) (fn : Nat) : Option (Nat × Ring) := s.rings.find? fun p => p.2.cls == 2 && p.2.owner == fn

/-- Rings that pass are gone, with the operations' completions that would go through them (R474, R475). -/
def State.dropRings (s : State) (p : Nat → Ring → Bool) : State :=
  let gone := (s.rings.filter fun q => p q.1 q.2).map (·.1)
  { s with rings := s.rings.filter fun q => !p q.1 q.2
           compl := s.compl.filter fun c => !gone.contains c.ring && !gone.contains c.cq }

/-- A ring as R481 starts it. -/
def Ring.new (owner cls lg base cq vec : Nat) (irqEn : Bool) (modCount modTime page pageDie : Nat) : Ring :=
  { owner := owner, cls := cls, lg := lg, base := base, cq := cq, vec := vec, irqEn := irqEn, modCount := modCount
    modTime := modTime, page := page, pageDie := pageDie, partIdx := 0, hostIdx := 0, source := none, armed := true
    fresh := 0, freshNow := false, closing := false }

end Sys2Proof.Machine
end

