-- ==== Sys2Proof/Machine/Members.lean ====
section
/-! DEFINITION. Who belongs to what: members and slices of line groups (R304, R305, R318), contexts and their slots (R320 to
R322, R356), streams, pages and key slots (R393, R408, R413, R418). -/

namespace Sys2Proof.Machine

/-- The carriers a members field names among those present (R304, R652). -/
def State.present (s : State) (mem : Nat) : List Nat := (List.range 4).filter fun n => bit mem n && s.hasCarrier n

/-- The members that transmit a group's slices, of one side (R305, R683). -/
def State.txMembers (s : State) (k : Side) (g : Nat) : List Nat := s.present (s.at k .lgMembers .m0 g)

/-- The members of the receive group in force (R683). -/
def State.rxMembers (s : State) (g : Nat) : List Nat := s.present (s.rd .lgRxMembers .m0 g)

/-- The receive group of a carrier. -/
def State.groupOf (s : State) (n : Nat) : Option Nat := (List.range 4).find? fun g => (s.rxMembers g).contains n

/-- The group that a carrier transmits for. -/
def State.txGroupOf (s : State) (k : Side) (n : Nat) : Option Nat := (List.range 4).find? fun g => (s.txMembers k g).contains n

/-- Slots a carrier transmits, its otuc_m, of one side. -/
def State.txM (s : State) (k : Side) (n : Nat) : Nat := s.at k .ltxM (millOf n) (n % 2)

/-- Slots a carrier receives. -/
def State.rxM (s : State) (n : Nat) : Nat := s.rd .lrxM (millOf n) (n % 2)

/-- The local slices of the members in slice order: carrier and local index x (R305, R318). -/
def memberSlices (mem : List Nat) (m : Nat → Nat) : List (Nat × Nat) :=
  mem.flatMap fun n => (List.range (slicesOf (m n))).map fun i => (n, n % 2 * 24 + i)

/-- The transmit slices of a group, by q (R318). -/
def State.txSlices (s : State) (k : Side) (g : Nat) : List (Nat × Nat) := memberSlices (s.txMembers k g) (s.txM k)

/-- The receive slices of a group, by q (R318). -/
def State.rxSlices (s : State) (g : Nat) : List (Nat × Nat) := memberSlices (s.rxMembers g) s.rxM

/-- The instances of a field listed in the store of one side: die, instance, value. The rest read as reset. -/
def State.listed (s : State) (k : Side) (f : Fld) : List (Die × Nat × Nat) :=
  let mine (l : Store) : List Nat := (l.filter fun e => e.1 % 65536 / 16 == f.ctorIdx).map (·.1)
  let keys := match k with
    | .live => mine s.regs
    | .staged => (mine s.regs ++ mine s.offs).dedup
  keys.filterMap fun k' => (dieOfCode (k' % 16)).map fun d => (d, k' / 65536, s.at k f d (k' / 65536))

/-- An occupied entry of a tributary-slot map: the die whose map it is, local slice, slot from 1, and the context's die and
number (R356). -/
structure Slot where
  die : Die
  x : Nat
  slot : Nat
  ctxDie : Die
  ctx : Nat
  deriving DecidableEq, Repr

/-- The occupied entries of a map. -/
def State.slots (s : State) (k : Side) (ctx dieBit : Fld) : List Slot :=
  (s.listed k ctx).filterMap fun e =>
    if e.2.2 = 0x3FF then none
    else some ⟨e.1, e.2.1 / 20, e.2.1 % 20 + 1, millAt (s.at k dieBit e.1 e.2.1), e.2.2⟩

/-- The line slots in force or staged (R319). -/
def State.lineSlots (s : State) (k : Side) : List Slot := s.slots k .lmapCtx .lmapDie

/-- The line slots by which frames are multiplexed toward the line (R344). -/
def State.txSlots (s : State) : List Slot := s.slots .live .txMapCtx .txMapDie

/-- A slot entry that the resize of a switched ODUflex alters: it names a context of type 0x7 before or after (R344). -/
def State.lcrEntry (s : State) (a b : Nat × Nat) : Bool :=
  decide (a ≠ b) && [a, b].any fun e => e.1 != 0x3FF && s.rd .oduType (millAt e.2) e.1 == 7

/-- The line slots by which received content is taken apart: they follow the receive swaps (R345). -/
def State.rxSlots (s : State) : List Slot := s.slots .live .rxMapCtx .rxMapDie

/-- The FlexO slots in force or staged (R328). -/
def State.flexSlots (s : State) (k : Side) : List Slot := s.slots k .fmapCtx .fmapDie

/-- A slot's carrier. -/
def Slot.carrier (t : Slot) : Nat := (if t.die = .m1 then 2 else 0) + t.x / 24

/-- A slot names a context. -/
def Slot.names (t : Slot) (d : Die) (o : Nat) : Bool := t.ctxDie == d && t.ctx == o

/-- The parent of a context, or none where it is carried in ODUCn (R355). -/
def State.parentOf (s : State) (k : Side) (d : Die) (o : Nat) : Option (Die × Nat) :=
  let p := s.at k .oduParentCtx d o
  if p = 0x3FF then none else some (millAt (s.at k .oduParentDie d o), p)

/-- The contexts whose slots a context's frames stand in: itself and its parents (R317: at most two levels of
multiplexing below ODUCn). -/
def State.carriersOfCtx (s : State) (k : Side) : Nat → Die → Nat → List (Die × Nat)
  | 0, d, o => [(d, o)]
  | f + 1, d, o => (d, o) :: match s.parentOf k d o with
    | none => []
    | some p => s.carriersOfCtx k f p.1 p.2

/-- The carriers that receive a context's slots. -/
def State.ctxCarriers (s : State) (d : Die) (o : Nat) : List Nat :=
  let up := s.carriersOfCtx .live 3 d o
  ((s.rxSlots.filter fun t => up.any fun p => t.names p.1 p.2).map Slot.carrier).dedup

/-- The line group a stream's receive frames ride (R417, R418). -/
def State.streamGroup (s : State) (d : Die) (i : Nat) : Option Nat :=
  if s.on .strmTargetKind d i then some (s.rd .strmTarget d i % 4)
  else (s.ctxCarriers d (s.rd .strmTarget d i)).findSome? s.groupOf

/-- The streams listed in the store of one side: die and number. A stream that was never bound is in its reset state. -/
def State.streams (s : State) (k : Side) : List (Die × Nat) :=
  ((s.listed k .strmTxEn ++ s.listed k .strmRxEn ++ s.listed k .strmPage ++ s.listed k .strmNum).map fun e => (e.1, e.2.1)).dedup

/-- A stream enabled in some direction (R407). -/
def State.streamOn (s : State) (k : Side) (d : Die) (i : Nat) : Bool :=
  s.at k .strmTxEn d i == 1 || s.at k .strmRxEn d i == 1

/-- The streams of a page. -/
def State.pageStreams (s : State) (k : Side) (d : Die) (p : Nat) : List Nat :=
  ((s.streams k).filter fun e => e.1 == d && s.at k .strmPage d e.2 == p).map (·.2)

/-- The functions bound to a page (R408, R430). -/
def State.pageFuncs (s : State) (d : Die) (p : Nat) : List Nat :=
  ((List.range 4).filter fun j => s.on .pageFuncValid d (p * 4 + j)).map fun j => s.rd .pageFunc d (p * 4 + j)

/-- The pages listed: those with a bound function or a loaded slot. -/
def State.pages (s : State) : List (Die × Nat) :=
  ((s.listed .live .pageFuncValid ++ s.listed .live .pageSlotLoaded).map fun e => (e.1, e.2.1 / 4)).dedup

/-- The key slots of a page (R412). -/
abbrev slotTxOn : Nat := 0
/-- TX_OFF. -/
abbrev slotTxOff : Nat := 1
/-- RX_ON. -/
abbrev slotRxOn : Nat := 2
/-- RX_OFF. -/
abbrev slotRxOff : Nat := 3

/-- A slot's key: none while the slot is empty (R406). -/
def State.key (s : State) (d : Die) (p k : Nat) : Option Nat := Cells.find (d.code * 1024 + p * 4 + k) s.keys

/-- The key index of a slot. -/
def State.keyIdx (s : State) (d : Die) (p k : Nat) : Nat := s.rd .pageSlotKeyIdx d (p * 4 + k)

/-- A slot emptied or loaded, with what SLOT_STS shows (R430). -/
def State.setKey (s : State) (d : Die) (p k : Nat) (key : Option Nat) (idx : Nat) : State :=
  let a := d.code * 1024 + p * 4 + k
  let s : State := { s with keys := match key with
    | none => Cells.del a s.keys
    | some v => Cells.put a v s.keys }
  s.wrs d (p * 4 + k) [(.pageSlotLoaded, b2n key.isSome), (.pageSlotKeyIdx, if key.isSome then idx else 0)]

/-- Two slots hold the same: both empty, or the same key under the same index. -/
def State.sameSlot (s : State) (d : Die) (p a b : Nat) : Bool :=
  s.key d p a == s.key d p b && s.keyIdx d p a == s.keyIdx d p b

/-- Two slots exchanged (R413). -/
def State.swapSlots (s : State) (d : Die) (p a b : Nat) : State :=
  (s.setKey d p a (s.key d p b) (s.keyIdx d p b)).setKey d p b (s.key d p a) (s.keyIdx d p a)

/-- An off-shift slot reloaded from its on-shift slot (R59, R413). -/
def State.copySlot (s : State) (d : Die) (p from_ a : Nat) : State := s.setKey d p a (s.key d p from_) (s.keyIdx d p from_)

/-- The commit changes keys (R416): TX_OFF differs from TX_ON on a page with a transmit-enabled stream. -/
def State.keysChange (s : State) : Bool :=
  s.pages.any fun e => !s.sameSlot e.1 e.2 slotTxOn slotTxOff &&
    (s.pageStreams .live e.1 e.2).any fun i => s.on .strmTxEn e.1 i

/-- The carriers that transmit, before and after a target (R225, R416). -/
def State.transmits (s : State) (n : Nat) : Bool :=
  s.hasCarrier n && s.on .dacTxEnable (faceOf n) && s.rdOff .dacTxEnable (faceOf n) == 1

end Sys2Proof.Machine
end

