-- ==== Sys2Proof/Machine/Staging.lean ====
section
/-! DEFINITION. Staging: writes to the off-shift copy, and the queue that holds them while a die is frozen (R58, R60, R61). -/

namespace Sys2Proof.Machine

/-- A field that writes stage: access code SH, or a stream register that STREAM_BIND stages (R58, R431). -/
def stagedField (f : Fld) : Bool :=
  f.row.acc = .sh || [Fld.strmTargetKind, .strmTarget, .strmPage, .strmTxEn, .strmRxEn, .strmRepSel, .strmNum, .strmFarId].contains f

/-- The package offset that stands for the symbol rate among M0's staged writes: the manual gives it no register
(assumption 12). -/
abbrev symRateOff : Nat := 0x3FFFFC

/-- The staged fields of a register word take a written value off-shift (R58). -/
def State.stageWord (s : State) (w : Window) (off val : Nat) : State :=
  if w = .pkg ∧ off = symRateOff then s.wrOff .symRate .m0 0 val else
  (wordAt w off).foldl (fun s e => if stagedField e.1 then s.wrOff e.1 w.store e.2.1 (val / 2 ^ e.2.2) else s) s

/-- A write to the staged fields of a word: staged, or held while the die is frozen, up to 256 writes; a further one is
discarded with SHIFT_WQ_FULL (R58, R60, R61, R657). -/
def State.shWrite (s : State) (w : Window) (off val : Nat) : State :=
  let d := w.store
  if !s.on .viewFrozen d then s.stageWord w off val
  else
    let n := (s.held.filter (·.die == d)).length
    if n < 256 then State.wr { s with held := s.held ++ [⟨d, w == .pkg, off, val⟩] } .viewHeldWrites d 0 (n + 1)
    else s.raise Reason.shiftWqFull (blkId d d.anchor)

/-- The queued writes of a die staged in arrival order, the queue empty and the die unfrozen (R60). -/
def State.applyHeld (s : State) (d : Die) : State :=
  let mine := s.held.filter (·.die == d)
  let s := mine.foldl (fun s h => s.stageWord (if h.pkg then .pkg else .die d) h.off h.val)
    { s with held := s.held.filter (·.die != d) }
  (s.wr .viewFrozen d 0 0).wr .viewHeldWrites d 0 0

end Sys2Proof.Machine
end

