-- ==== Sys2Proof/Machine/Crypto.lean ====
section
/-! DEFINITION. Payload encryption (R393 to R431): keys and the key-wrap engine, pages, streams, cipher pipes, frames and
lookaside operations. -/

namespace Sys2Proof.Machine

/-- The target a crypto opcode must hold: a Mill die's CRYPTO domain (R684). -/
def cryptoTargetBad (d : Desc) : Bool := d.target.toNat % 4096 != Dom.crypto * 64 || !(d.die.any Die.isMill)

/-- A function is bound to a page (R409, R410). -/
def State.bound (s : State) (d : Die) (p fn : Nat) : Bool := (s.pageFuncs d p).contains fn

/-- The key-wrap engine is under a canary test (R405). -/
def State.kwTested (s : State) (d : Die) : Bool := s.canary.any fun c => c.die == d && c.kind == 3

/-- kw_busy follows the engine (R429). -/
def State.kwShow (s : State) (d : Die) : State :=
  s.wr .cryKwBusy d 0 (b2n (s.kwTested d || s.kw.any fun o => o.desc.mill == d))

/-- An unwrap begins, or RETRY while the engine is under test (R404, R405). -/
def State.unwrap (s : State) (op : Nat) (d : Desc) : State :=
  if s.kwTested d.mill then s.finish op d .retry
  else State.kwShow { s with kw := s.kw ++ [⟨op, d⟩] } d.mill

/-- KEK_LOAD (R403, R404). -/
def execKekLoad (d : Desc) (s : State) : Host.Outcome State Fault Refusal :=
  .next <| s.take 0x20 d (d.target.toNat != Dom.crypto * 64 || d.arg0 != 0) fun s =>
    s.onTarget 0x20 d .m0 Dom.crypto fun s => s.unwrap 0x20 d

/-- The DKEK that a Mill die holds; none until one is loaded or after it is lost (R402). -/
def State.kek (s : State) (d : Die) : Option Nat := if s.on .cryKekLoaded d then Cells.find (16384 + d.code) s.keys else none

/-- KEY_LOAD (R403, R404, R410, R412). -/
def execKeyLoad (d : Desc) (s : State) : Host.Outcome State Fault Refusal :=
  let m := d.mill
  let p := d.page
  let slot := bits d.arg0.toNat 9 8
  let idx := bits d.arg0.toNat 10 10
  .next <| s.take 0x21 d (cryptoTargetBad d || d.arg0.toNat / 2 ^ 11 != 0) (fun s =>
    s.onTarget 0x21 d m Dom.crypto fun s =>
      if (s.kek m).isNone then s.finish 0x21 d .notPermitted
      else if slot = slotTxOn ∨ slot = slotRxOn then s.finish 0x21 d .keyBusy
      else if slot = slotRxOff ∧ s.on .pageKeyStaged m p then s.finish 0x21 d .keyBusy
      else if slot = slotTxOff ∧ (s.key m p slotTxOn).isSome ∧ s.keyIdx m p slotTxOn = idx then s.finish 0x21 d .badDesc
      else if s.on .viewFrozen m then s.finish 0x21 d .retry
      else s.unwrap 0x21 d) (!s.bound m p d.fn) p

/-- The key of an unwrap that succeeded written to its place (R403, R404). -/
def State.storeKey (s : State) (o : Op) (key : Nat) : State :=
  if o.opcode = 0x20 then
    [Die.m0, .m1].foldl (fun s d =>
      if s.has d && !s.dieInReset d && !s.domDead d Dom.crypto then
        State.wr { s with keys := Cells.put (16384 + d.code) key s.keys } .cryKekLoaded d 0 1
      else s) s
  else s.setKey o.desc.mill o.desc.page (bits o.desc.arg0.toNat 9 8) (some key) (bits o.desc.arg0.toNat 10 10)

/-- KEY_UNWRAP_DONE (R404): the oldest unwrap of a die's engine ends; `agree` says that its two computations agreed. -/
def execKeyUnwrapDone (m : Fin 2) (agree : Bool) (s : State) : Host.Outcome State Fault Refusal :=
  let d := millAt m
  match s.kw.find? fun o => o.desc.mill == d with
  | none => .next s
  | some o =>
    let s : State := { s.count d 0x151 with kw := s.kw.erase o }
    let kek := if o.opcode = 0x20 then some Config.deviceKey.toNat else s.kek d
    if !agree then .next ((((s.inc .cryKwMismatch d).canaryStart d 3 0).finishOp o .retry).kwShow d)
    else
      match kek.bind fun k => keyUnwrap k o.desc.wrapped with
      | none => .next ((s.finishOp o .authFail).kwShow d)
      | some key => .next (((s.storeKey o key).finishOp o .ok).kwShow d)

/-- Running lookaside operations of a page whose key no slot of the page holds any more, `key` having been destroyed, end with
KEY_BUSY (R428). -/
def State.killLa (s : State) (d : Die) (p : Nat) (key : Option Nat) : State :=
  if (List.range 4).any fun k => s.key d p k == key then s
  else { s with la := updateWhere (fun o => o.op.desc.mill == d && o.page == p && key == some o.key) (fun o => { o with dead := true }) s.la }

/-- A slot emptied (R414). -/
def State.emptySlot (s : State) (d : Die) (p slot : Nat) : State := (s.setKey d p slot none 0).killLa d p (s.key d p slot)

/-- An on-shift key destroyed, with the off-shift copy when that holds the same key (R414). -/
def State.destroyKey (s : State) (d : Die) (p slot : Nat) : State :=
  let s := if s.key d p (slot + 1) = s.key d p slot then s.emptySlot d p (slot + 1) else s
  (s.emptySlot d p slot).wr .zeroPend d (p * 4 + slot) 0

/-- KEY_ZERO (R414): an off-shift slot empties at once, an on-shift one after its blocks in the pipes. -/
def execKeyZero (d : Desc) (s : State) : Host.Outcome State Fault Refusal :=
  let m := d.mill
  let p := d.page
  let slot := bits d.arg0.toNat 9 8
  .next <| s.take 0x22 d (cryptoTargetBad d || d.arg0.toNat / 2 ^ 10 != 0 || !d.clearFrom 24) fun s =>
    s.onTarget 0x22 d m Dom.crypto fun s =>
      if slot % 2 = 1 then (s.emptySlot m p slot).finish 0x22 d .ok
      else State.wr { s with zeroing := s.zeroing ++ [⟨0x22, d⟩] } .zeroPend m (p * 4 + slot) 1

/-- KEY_DESTROY (R414): the pipes hold no more blocks under a page's keys that are being destroyed. -/
def execKeyDestroy (m : Fin 2) (page : Fin 256) (s : State) : Host.Outcome State Fault Refusal :=
  let d := millAt m
  let mine := s.zeroing.filter fun o => o.desc.mill == d && o.desc.page == page.val
  let s : State := { s with zeroing := s.zeroing.filter fun o => !(o.desc.mill == d && o.desc.page == page.val) }
  let s := [slotTxOn, slotRxOn].foldl (fun s k => if s.on .zeroPend d (page * 4 + k) then s.destroyKey d page k else s) s
  .next (mine.foldl (fun s o => s.finishOp o .ok) s)

/-- PAGE_BIND (R409, R490). -/
def execPageBind (d : Desc) (s : State) : Host.Outcome State Fault Refusal :=
  let m := d.mill
  let p := d.page
  let f (j : Nat) : Nat := d.at (24 + j) 1
  let bad := cryptoTargetBad d || d.arg0.toNat / 2 ^ 9 != 0 || !d.clearFrom 28 ||
    (List.range 4).any fun j => 128 ≤ f j && 64 < f j % 128
  .next <| s.take 0x23 d bad fun s => s.onTarget 0x23 d m Dom.crypto fun s =>
    let s := (List.range 4).foldl (fun s j => s.wrs m (p * 4 + j) [(.pageFunc, f j % 128), (.pageFuncValid, f j / 128)]) s
    (s.wr .pageCompat m p (bits d.arg0.toNat 8 8)).finish 0x23 d .ok

/-- A stream stopped in both directions: the sequence is kept (R411, R494). -/
def State.stopStream (s : State) (d : Die) (i : Nat) : State :=
  s.wrs d i [(.strmTxState, 0), (.strmRxState, 0), (.strmSeqLock, 0), (.rxGatherN, 0), (.rxBaseOk, 0), (.strmStartOn, 0), (.strmStopOn, 0)]

/-- A stream belongs to a page of a function, and targets a source (R492). -/
def State.ownsSource (s : State) (fn kind index : Nat) (die : Die) : Bool :=
  (s.streams .live).any fun e =>
    (s.bound e.1 (s.rd .strmPage e.1 e.2) fn) && s.streamOn .live e.1 e.2 &&
      (if s.on .strmTargetKind e.1 e.2 then
        kind == 1 && (s.rxSlices (s.rd .strmTarget e.1 e.2 % 4)).any fun q => millOf q.1 == die && q.2 == index
      else kind == 0 && e.1 == die && s.rd .strmTarget e.1 e.2 == index)

/-- Rings of virtual functions whose source has left their pages are unbound from it (R492). -/
def State.rebind (s : State) : State :=
  { s with rings := s.rings.map fun q => match q.2.source with
      | none => q
      | some (kind, index, die) =>
        if q.2.owner = 0 ∨ s.ownsSource q.2.owner kind index (millAt die) = true then q
        else (q.1, { q.2 with source := none }) }

/-- PAGE_UNBIND (R411): every slot zeroised, every stream stopped, no function bound. -/
def execPageUnbind (d : Desc) (s : State) : Host.Outcome State Fault Refusal :=
  let m := d.mill
  let p := d.page
  .next <| s.take 0x24 d (cryptoTargetBad d || d.arg0.toNat / 2 ^ 8 != 0 || !d.clearFrom 24) fun s =>
    s.onTarget 0x24 d m Dom.crypto fun s =>
      let s := (s.pageStreams .live m p).foldl (fun s i => s.stopStream m i) s
      let s := (s.emptySlot m p slotTxOff).emptySlot m p slotRxOff
      let s := (List.range 4).foldl (fun s j => s.wrs m (p * 4 + j) [(.pageFunc, 0), (.pageFuncValid, 0)]) s
      let s := (s.wr .zeroPend m (p * 4 + slotTxOn) 1).wr .zeroPend m (p * 4 + slotRxOn) 1
      State.rebind { s with zeroing := s.zeroing ++ [⟨0x24, d⟩] }

/-- A stream number that another stream of the package holds, live or staged (R399). -/
def State.numTaken (s : State) (d : Die) (i num : Nat) : Bool :=
  (s.listed .live .strmBound).any fun e => e.2.2 == 1 && !(e.1 == d && e.2.1 == i) &&
    (s.rd .strmNum e.1 e.2.1 == num || s.rdOff .strmNum e.1 e.2.1 == num)

/-- STREAM_BIND (R399, R431, R494): the off-shift stream registers. -/
def execStreamBind (d : Desc) (s : State) : Host.Outcome State Fault Refusal :=
  let m := d.mill
  let i := d.stream
  let cfg := d.at 24 4
  let num := d.at 28 4
  let bad := cryptoTargetBad d || d.arg0.toNat / 2 ^ 9 != 0 || !d.clearFrom 36 || cfg / 2 ^ 22 != 0 || num / 2 ^ 20 != 0 ||
    bits cfg 21 20 == 3 || (bit cfg 0 && 4 ≤ bits cfg 9 1)
  .next <| s.take 0x25 d bad fun s => s.onTarget 0x25 d m Dom.crypto fun s =>
    if num = 0xFFFFF ∨ s.numTaken m i num = true ∨ s.bound m (bits cfg 17 10) d.fn = false then s.finish 0x25 d .badDesc
    else
      let at_ (f : Fld) : Nat := f.offsetAt i
      let s := ((s.shWrite (.die m) (at_ .strmTargetKind) cfg).shWrite (.die m) (at_ .strmNum) num).shWrite (.die m) (at_ .strmFarId) (d.at 32 4)
      (s.wr .strmBound m i 1).finish 0x25 d .ok

/-- The transmit side of a stream replaces its frames: its key is gone or being destroyed (R414, R415). -/
def State.txKeyless (s : State) (d : Die) (p : Nat) : Bool :=
  (s.key d p slotTxOn).isNone || s.on .zeroPend d (p * 4 + slotTxOn)

/-- STREAM_START (R400, R410). -/
def execStreamStart (d : Desc) (s : State) : Host.Outcome State Fault Refusal :=
  let m := d.mill
  let i := d.stream
  let p := s.rd .strmPage m i
  let bad := cryptoTargetBad d || d.arg0.toNat / 2 ^ 9 != 0 || !d.clearFrom 32 || d.off != 0
  .next <| s.take 0x26 d bad (fun s => s.onTarget 0x26 d m Dom.crypto fun s =>
    if s.on .tallyOriginLost then s.finish 0x26 d .notPermitted
    else if d.at 24 8 ≠ 0 ∧ s.on .strmSent m i ∧ d.at 24 8 ≤ s.rd .strmSeq m i then s.finish 0x26 d .badDesc
    else if d.pos < s.tally then s.finish 0x26 d .late
    else (s.wrs m i [(.strmStartOn, 1), (.strmStartAt, d.sf.toNat), (.strmFloor, d.at 24 8)]).finish 0x26 d .ok)
    (!s.bound m p d.fn) p

/-- STREAM_STOP (R494). -/
def execStreamStop (d : Desc) (s : State) : Host.Outcome State Fault Refusal :=
  let m := d.mill
  let i := d.stream
  let p := s.rd .strmPage m i
  let bad := cryptoTargetBad d || d.arg0.toNat / 2 ^ 9 != 0 || !d.clearFrom 24 || d.off != 0
  .next <| s.take 0x27 d bad (fun s => s.onTarget 0x27 d m Dom.crypto fun s =>
    if d.pos < s.tally then s.finish 0x27 d .late
    else (s.wrs m i [(.strmStopOn, 1), (.strmStopAt, d.sf.toNat)]).finish 0x27 d .ok)
    (!s.bound m p d.fn) p

/-- A stop and a start that have come due take effect, the earlier first (R400, R494). -/
def State.streamDue (s : State) (d : Die) (i : Nat) : State :=
  let stop (s : State) : State :=
    if s.on .strmStopOn d i && decide (s.rd .strmStopAt d i ≤ s.sf) then
      s.wrs d i [(.strmStopOn, 0), (.strmTxState, 0), (.strmRxState, 0), (.strmSeqLock, 0), (.rxGatherN, 0), (.rxBaseOk, 0)]
    else s
  let start (s : State) : State :=
    if s.on .strmStartOn d i && decide (s.rd .strmStartAt d i ≤ s.sf) then
      s.wrs d i [(.strmStartOn, 0), (.strmTxState, if s.on .strmTxEn d i then 1 else 0),
        (.strmRxState, if s.on .strmRxEn d i then 1 else 0),
        (.strmNext, max (s.rd .strmStartAt d i * 2 ^ 16) (s.rd .strmFloor d i))]
    else s
  if s.rd .strmStopAt d i ≤ s.rd .strmStartAt d i then start (stop s) else stop (start s)

/-- Frames a page's transmit key may protect (R401, R429). -/
def State.keyLimit (s : State) (d : Die) : Nat := 2 ^ max 24 (min 40 (s.rd .cryKeyLimitLog2 d))

/-- One frame or lookaside encryption counts under a page's transmit key (R401). -/
def State.countFrame (s : State) (d : Die) (p : Nat) : State :=
  let n := s.rd .pageTxCount d p + 1
  let s := s.wr .pageTxCount d p n
  let s := if n = s.keyLimit d / 2 then (s.wr .pageKeyWarn d p 1).raiseFns Reason.keyWarn (blkId d Dom.crypto) (s.pageFuncs d p) else s
  if s.keyLimit d ≤ n then s.wr .pageOut d p 1 else s

/-- A pipe whose datapaths disagree (R425): the spare takes its place; with none left it stays in service. A pipe that is under test
already, the spare or retired serves no block. -/
def State.pipeFail (s : State) (d : Die) (pipe : Nat) : State :=
  let s := s.inc .cryDupMismatch d
  if (s.canary.any fun c => c.die == d && c.kind == 2 && c.idx == pipe) || s.rd .pipeSpare d == pipe then s
  else if s.rd .pipeSpare d = 31 then
    ((s.wr .crySpareExhausted d 0 1).raise Reason.spareExhausted (blkId d Dom.crypto) 2).canaryStart d 2 pipe true
  else (s.wrs d 0 [(.pipeSpare, 31), (.crySpareInUse, 1)]).canaryStart d 2 pipe

/-- The stream ID (R399). -/
def State.streamId (s : State) (d : Die) (i : Nat) : Nat := s.rd .chipPkgId * 2 ^ 20 + s.rd .strmNum d i

/-- Additional authenticated data of a frame (R395). -/
def frameAad (mfas cst : Nat) : List Byte := [BitVec.ofNat 8 mfas, BitVec.ofNat 8 cst]

/-- The replacement signal a replaced transmit frame carries (R414, R415, R423). -/
def State.repSignal (s : State) (d : Die) (i : Nat) : Nat := s.rd .strmRepSel d i + 1

/-- A stream's output frame kept. -/
def State.sendFrame (s : State) (d : Die) (i : Nat) (f : CipherFrame) : State :=
  { s with cipherOut := Cells.put (d.code * 512 + i) f s.cipherOut }

/-- SEQB of a frame (R396): byte (MFAS mod 8) of the sequence of its group's first frame, byte 0 highest. -/
def seqByte (seq mfas : Nat) : Nat := (seq - mfas % 8) / 2 ^ (8 * (7 - mfas % 8)) % 256

/-- ENCRYPT_FRAME (R395, R396, R400, R401, R414, R415, R423, R425): the next transmit frame of a stream. Its sequence
advances whether it is encrypted or replaced. -/
def execEncryptFrame (m : Fin 2) (stream : Fin 512) (mfas : BitVec 8) (data : List Byte) (agree : Bool) (pipe : Fin 17)
    (s : State) : Host.Outcome State Fault Refusal :=
  let d := millAt m
  let i := stream.val
  if !(s.has d && s.on .strmTxEn d i && s.domUp d Dom.crypto && !s.domInReset d Dom.crypto) then .next s else
  let s := s.streamDue d i
  let rep := s.repSignal d i
  if s.rd .strmTxState d i = 0 then .next (s.sendFrame d i ⟨rep, 0, 0x40, 0, []⟩) else
  let p := s.rd .strmPage d i
  let seq := s.rd .strmNext d i
  let idx := s.keyIdx d p slotTxOn
  if 2 ^ 64 ≤ seq ∨ s.on .pageOut d p then
    let s := if s.rd .strmTxState d i = 3 then s
      else (s.wr .strmTxState d i 3).raiseFns Reason.nonceExhausted (blkId d Dom.crypto) (s.pageFuncs d p)
    let s := if 2 ^ 64 ≤ seq then s else s.wrs d i [(.strmNext, seq + 1), (.strmSeq, seq), (.strmSent, 1)]
    .next (s.sendFrame d i ⟨rep, seqByte seq mfas.toNat, idx * 128 + 0x40 + seq % 64, 0, []⟩)
  else
    let seqb := seqByte seq mfas.toNat
    let s := s.wrs d i [(.strmNext, seq + 1), (.strmSeq, seq), (.strmSent, 1)]
    let clear := idx * 128 + 0x40 + seq % 64
    if s.txKeyless d p then .next ((s.wr .strmTxState d i 2).sendFrame d i ⟨rep, seqb, clear, 0, []⟩)
    else if !agree then .next ((s.pipeFail d pipe).sendFrame d i ⟨rep, seqb, clear, 0, []⟩)
    else
      let cst := idx * 128 + seq % 64
      let r := gcmEncrypt ((s.key d p slotTxOn).getD 0) (s.streamId d i * 2 ^ 64 + seq) (frameAad mfas.toNat cst) data
      .next ((((s.wr .strmTxState d i 1).countFrame d p).count d 0x14D).sendFrame d i ⟨0, seqb, cst, r.2.toNat / 2 ^ 32, r.1⟩)

/-- A received frame of a stream leaves the decryptor. -/
def State.passFrame (s : State) (d : Die) (i : Nat) (f : Fate) (data : List Byte) : State :=
  { s with plainOut := Cells.put (d.code * 512 + i) (f, data) s.plainOut }

/-- A frame that is not trusted (R422): native pages replace it and count under `cnt`, compatible pages pass `data` on. -/
def State.distrust (s : State) (d : Die) (i p : Nat) (cnt : Fld) (data : List Byte) : State :=
  if s.on .pageCompat d p then ((s.inc .strmUntrusted d i).wr .strmDUntrusted d i 1).passFrame d i .plain data
  else ((s.inc cnt d i).wr .strmRxState d i 3).passFrame d i .ais []

/-- A frame for which no key or no sequence is known: it counts in `cnt` whatever the page (R419, R420), and what a compatible page
passes on as its plaintext is a free value (R422, assumption 10). -/
def State.distrustBlind (s : State) (d : Die) (i p : Nat) (cnt : Fld) (len : Nat) : State :=
  let f := s.fresh
  ((if s.on .pageCompat d p then f.2.inc cnt d i else f.2)).distrust d i p cnt (leBytes len f.1)

/-- One frame of the sequence hunt (R420): the SEQB bytes of a group of eight frames make a base; two groups that agree
set seq_lock. -/
def State.seqHunt (s : State) (d : Die) (i mfas seqb : Nat) : State :=
  let k := mfas % 8
  let n := if k = 0 then 0 else s.rd .rxGatherN d i
  if n ≠ k then s.wrs d i [(.rxGatherN, 15), (.rxBaseOk, 0)] else
  let g := (if k = 0 then 0 else s.rd .rxGather d i) * 256 + seqb
  let s := s.wrs d i [(.rxGather, g), (.rxGatherN, k + 1)]
  if k ≠ 7 then s
  else if s.on .rxBaseOk d i && s.rd .rxBase d i + 8 == g then
    s.wrs d i [(.strmSeqLock, 1), (.rxSeq, g + 8), (.rxMiss, 0), (.rxBaseOk, 0)]
  else s.wrs d i [(.rxBase, g), (.rxBaseOk, 1)]

/-- The slot whose key index a frame names: RX_ON first, then a loaded RX_OFF (R419). -/
def State.rxSlotFor (s : State) (d : Die) (p idx : Nat) : Option Nat :=
  [slotRxOn, slotRxOff].find? fun k => (s.key d p k).isSome && s.keyIdx d p k == idx &&
    !s.on .zeroPend d (p * 4 + k)

/-- A frame whose sequence is known (R419, R421, R422, R425). -/
def State.decryptAt (s : State) (d : Die) (i p seq mfas : Nat) (c : Coh) (data : List Byte) (agree : Bool) (pipe : Nat) : State :=
  let cst := c.cst.toNat
  let iv := s.rd .strmFarId d i * 2 ^ 64 + seq
  match s.rxSlotFor d p (cst / 128) with
  | none =>
    if (s.key d p slotRxOn).isNone then ((s.inc .strmKeyIdxMiss d i).wr .strmRxState d i 3).passFrame d i .ais []
    else s.distrustBlind d i p .strmKeyIdxMiss data.length
  | some k =>
    if !agree then ((s.pipeFail d pipe).wr .strmRxState d i 3).passFrame d i .ais []
    else
      let r := gcmDecrypt ((s.key d p k).getD 0) iv (frameAad mfas cst) data
      let s := s.count d 0x14E
      if r.2.toNat / 2 ^ 32 = c.tag.toNat then (s.wr .strmRxState d i 2).passFrame d i .plain r.1
      else (s.count d 0x14F).distrust d i p .strmAuthFail r.1

/-- A frame received while the sequence is locked (R420): counted, its CST checked; the third mismatch in a row unlocks. -/
def State.lockedFrame (s : State) (d : Die) (i cst : Nat) : State × Bool :=
  let e := s.rd .rxSeq d i
  let s := s.wr .rxSeq d i (e + 1)
  if cst % 64 = e % 64 then (s.wr .rxMiss d i 0, true)
  else if s.rd .rxMiss d i = 2 then (s.wrs d i [(.strmSeqLock, 0), (.rxMiss, 0), (.rxGatherN, 15), (.rxBaseOk, 0), (.strmRxState, 1)], false)
  else (s.wr .rxMiss d i (s.rd .rxMiss d i + 1), true)

/-- DECRYPT_FRAME (R419 to R422, R425): one received frame of a stream; `coh` is none for a frame without a COH. -/
def execDecryptFrame (m : Fin 2) (stream : Fin 512) (mfas : BitVec 8) (coh : Option Coh) (data : List Byte) (agree : Bool)
    (pipe : Fin 17) (s : State) : Host.Outcome State Fault Refusal :=
  let d := millAt m
  let i := stream.val
  if !(s.has d && s.on .strmRxEn d i && s.domUp d Dom.crypto && !s.domInReset d Dom.crypto) then .next s else
  let s := s.streamDue d i
  if s.rd .strmRxState d i = 0 then .next (s.passFrame d i .ais []) else
  let p := s.rd .strmPage d i
  match coh with
  | none =>
    let s := if s.on .strmSeqLock d i then s.wr .rxSeq d i (s.rd .rxSeq d i + 1)
      else (s.wrs d i [(.rxGatherN, 15), (.rxBaseOk, 0)]).inc .strmSeqUnlocked d i
    .next (s.passFrame d i .ais [])
  | some c =>
    let seq := s.rd .rxSeq d i
    let t := if s.on .strmSeqLock d i then s.lockedFrame d i c.cst.toNat else (s.seqHunt d i mfas.toNat c.seqb.toNat, false)
    let s := t.1
    if bit c.cst.toNat 6 then .next ((if t.2 then s else s.inc .strmSeqUnlocked d i).passFrame d i .clear data)
    else if t.2 then .next (s.decryptAt d i p seq mfas.toNat c data agree pipe)
    else .next (s.distrustBlind d i p .strmSeqUnlocked data.length)

/-- The ring a lookaside descriptor came from: its page and die (R426). -/
def State.laPage (s : State) (d : Desc) : Nat := ((Cells.find d.ring s.rings).map (·.page)).getD 0

/-- The lengths a lookaside descriptor may not have (R426). -/
def laBad (d : Desc) : Bool :=
  let n := d.arg0.toNat
  n % 16 != 0 || decide (n < 16) || decide (65536 < n) || d.at 40 2 % 16 != 0 || decide (256 < d.at 40 2) || d.at 42 2 != 0

/-- The ring's page lies on the die that the descriptor names, and is bound to its issuer (R410, R491). -/
def State.laExcluded (s : State) (d : Desc) : Bool := !s.bound d.mill (s.laPage d) d.fn

/-- LA_ENCRYPT (R401, R426 to R428). -/
def execLaEncrypt (d : Desc) (s : State) : Host.Outcome State Fault Refusal :=
  let m := d.mill
  let p := s.laPage d
  .next <| s.take 0x28 d (cryptoTargetBad d || laBad d || !d.clearFrom 52) (fun s => s.onTarget 0x28 d m Dom.crypto fun s =>
    let ctr := d.at 44 8
    if s.txKeyless m p || decide (ctr ≤ s.rd48 .pageLaCtrLo .pageLaCtrHi m p) then s.finish 0x28 d .badDesc
    else if s.on .pageOut m p then s.finish 0x28 d .nonceExhausted
    else
      let iv := (s.rd .chipPkgId * 2 ^ 20 + 0xFFFFF) * 2 ^ 64 + ctr
      let key := (s.key m p slotTxOn).getD 0
      let s := (s.wr48 .pageLaCtrLo .pageLaCtrHi m p ctr).countFrame m p
      { s with la := s.la ++ [⟨⟨0x28, d⟩, p, slotTxOn, key, iv, false⟩] }) (s.laExcluded d) p

/-- LA_DECRYPT (R426, R427). -/
def execLaDecrypt (d : Desc) (s : State) : Host.Outcome State Fault Refusal :=
  let m := d.mill
  let p := s.laPage d
  .next <| s.take 0x29 d (cryptoTargetBad d || laBad d || !d.clearFrom 56) (fun s => s.onTarget 0x29 d m Dom.crypto fun s =>
    match s.key m p slotRxOn with
    | none => s.finish 0x29 d .badDesc
    | some key => { s with la := s.la ++ [⟨⟨0x29, d⟩, p, slotRxOn, key, beNat (leBytes 12 (d.at 44 12)), false⟩] })
    (s.laExcluded d) p

/-- LOOKASIDE_DONE (R422, R425 to R428, R495): the oldest lookaside operation of a ring ends. `src` is what the part read
from its source: the AAD, the data, and the tag of a decryption. Output is written only here. -/
def execLookasideDone (ring : BitVec 18) (src : List Byte) (agree : Bool) (pipe : Fin 17) (s : State) :
    Host.Outcome State Fault Refusal :=
  match s.la.find? fun o => o.op.desc.ring == ring.toNat with
  | none => .next s
  | some o =>
    let d := o.op.desc
    let s : State := { s with la := s.la.erase o }
    if o.dead then .next (s.finishOp o.op .keyBusy)
    else if !agree then .next ((s.pipeFail d.mill pipe).finishOp o.op .retry)
    else
      let na := d.at 40 2
      let n := d.arg0.toNat
      let aad := src.take na
      let data := (src.drop na).take n
      let s := s.count d.mill 0x150 (n / 16)
      if o.op.opcode = 0x28 then
        let r := gcmEncrypt o.key o.iv aad data
        .next ((s.toHost (d.at 32 8) (r.1 ++ (leBytes 16 r.2.toNat).reverse)).finishOp o.op .ok)
      else
        let r := gcmDecrypt o.key o.iv aad data
        if r.2.toNat = beNat ((src.drop (na + n)).take 16) then .next ((s.toHost (d.at 32 8) r.1).finishOp o.op .ok)
        else if s.on .pageCompat d.mill o.page then .next ((s.toHost (d.at 32 8) r.1).finishOp o.op .untrusted)
        else .next (s.finishOp o.op .authFail)

/-- The far SF that a carrier has reached: recorded while far_valid is 1, predicted otherwise (R53, R73). -/
def State.farNow (s : State) (n : Nat) : Nat :=
  let m := millOf n
  let c := n % 2
  if s.on .farValid m c then s.rd .farLiveSf m c else s.rd .farLiveSf m c + (s.tally - s.rd .farLiveArr m c) / sfLen

/-- The RX slots of a page swap and the off-shift one is reloaded (R413, R417). -/
def State.swapRxSlots (s : State) (d : Die) (p : Nat) : State :=
  ((s.swapSlots d p slotRxOn slotRxOff).copySlot d p slotRxOn slotRxOff).wrs d p [(.pageKeyStaged, 0), (.pageKeyTarget, 0)]

/-- RX_KEY_SWAP (R417): far SF ann_target + 64 has reached the decrypt stage. -/
def execRxKeySwap (m : Fin 2) (page : Fin 256) (s : State) : Host.Outcome State Fault Refusal :=
  let d := millAt m
  if s.on .pageKeyStaged d page && decide (s.rd .pageKeyTarget d page ≤ s.farNow (s.rd .pageKeyCarrier d page)) then
    .next (s.swapRxSlots d page)
  else .next s

/-- TX_FRAMES_READ (R430, R655). -/
def execTxFramesRead (m : Fin 2) (page : Fin 256) (s : State) : Host.Outcome State Fault Refusal :=
  let d := millAt m
  .next (s.readReg d .pageTxFramesLo page fun s =>
    let n := s.rd .pageTxCount d page
    (s.wr48 .pageTxFramesLo .pageTxFramesHi d page n, n % 2 ^ 32))

/-- SEQ_READ (R431, R655). -/
def execSeqRead (m : Fin 2) (stream : Fin 512) (s : State) : Host.Outcome State Fault Refusal :=
  let d := millAt m
  .next (s.readReg d .strmTxSeqLo stream fun s =>
    let n := s.rd .strmSeq d stream
    (s.wr48 .strmTxSeqLo .strmTxSeqHi d stream n, n % 2 ^ 32))

end Sys2Proof.Machine
end

