-- ==== Sys2Proof/Machine/Host.lean ====
section
/-! DEFINITION. The host interface (R471 to R511): doorbells, descriptors and completions, events and interrupts, rings and
virtual functions. TABLE_LOAD stands with the register writes. -/

namespace Sys2Proof.Machine

/-- A window of a ring's doorbell belongs to the writer, and the index keeps R483. -/
def Ring.accepts (r : Ring) (index : Nat) : Bool :=
  decide (index < 2 * r.size) &&
    (if hostWritten r.cls then
      decide (r.ahead r.partIdx index ≤ r.size) && decide (r.ahead r.partIdx r.hostIdx ≤ r.ahead r.partIdx index)
    else decide (r.ahead r.hostIdx index ≤ r.ahead r.hostIdx r.partIdx))

/-- DOORBELL (R482 to R484, R504): `aligned` says that it is one aligned 8-byte write. A consumer doorbell re-arms its
ring. -/
def execDoorbell (fn : Fin 65) (ring : BitVec 18) (aligned : Bool) (data : BitVec 64) (s : State) :
    Host.Outcome State Fault Refusal :=
  let id := ring.toNat
  let index := data.toNat % 2 ^ 17
  let bad (s : State) : State := s.raiseFn Reason.doorbellBad (blkId .m0 Dom.hostif) fn id
  let s := s.count .m0 0x152
  match Cells.find id s.rings with
  | none => .next (bad s)
  | some r =>
    if !(aligned && data.toNat / 2 ^ 17 == 0 && r.owner == fn.val && r.accepts index) then .next (bad s)
    else if hostWritten r.cls then .next (s.setRing id { r with hostIdx := index })
    else .next (s.signal id { r with hostIdx := index, armed := true })

/-- The most operations a function may have in flight (R507, R508). -/
def State.opsLimit (s : State) (fn : Nat) : Nat := if fn = 0 then 16384 else s.rd .vfOpsMax .m0 fn

/-- Another descriptor may be fetched for a function (R507). -/
def State.mayFetch (s : State) (fn : Nat) : Bool :=
  let all := s.inflight.length + s.compl.length
  decide (all < 16384) && decide (s.opsOf fn < s.opsLimit fn) && (fn == 0 || decide (all - s.opsOf 0 < 15360))

/-- The Completion ring of a ring has room (R507). -/
def State.complRoom (s : State) (r : Ring) : Bool := (Cells.find r.cq s.rings).any Ring.room

/-- A descriptor of a ring may be fetched: a doorbell is pending, and neither R507 nor its closing holds it back (R485, R507). -/
def State.fetchable (s : State) (r : Ring) : Bool :=
  (r.cls == 0 || r.cls == 6) && !r.closing && r.hostIdx != r.partIdx && s.complRoom r && s.mayFetch r.owner

/-- The ring from which the next descriptor is fetched (R509): the one in turn for up to four, then the next by number of those with
a pending doorbell (assumption 73). -/
def State.ringInTurn (s : State) : Option Nat :=
  let ready := (s.rings.filter fun q => s.fetchable q.2).map (·.1)
  let cur := s.rd .fetchRing
  if s.rd .fetchCount < 4 ∧ ready.contains cur = true then some cur
  else match ready.find? fun i => decide (cur < i) with
    | some i => some i
    | none => ready.head?

/-- One more descriptor of a ring's turn (R509). -/
def State.countTurn (s : State) (id : Nat) : State :=
  let n := if s.rd .fetchRing = id ∧ s.rd .fetchCount < 4 then s.rd .fetchCount + 1 else 1
  s.wrs .m0 0 [(.fetchRing, id), (.fetchCount, n)]

/-- DESCRIPTOR_FETCH (R485, R488, R489, R507, R509): the next descriptor of the Command or Lookaside-Crypto ring in turn, `data` its
64 bytes. It is in flight from now on; an opcode that is not listed, or not for the ring's class, completes BAD_DESC. -/
def execDescriptorFetch (ring : BitVec 18) (data : BitVec 512) (s : State) : Host.Outcome State Fault Refusal :=
  let id := ring.toNat
  match Cells.find id s.rings with
  | none => .next s
  | some r =>
    if !(s.on .pcieUp && s.ringInTurn == some id) then .next s
    else
      let x := Desc.ofBytes id (r.partIdx % r.size) (Fin.ofNat 65 r.owner) data
      let s := (((s.countTurn id).count .m0 0x153).setRing id { r with partIdx := (r.partIdx + 1) % (2 * r.size) }).enlist x.1 x.2
      match opcodeRow x.1 with
      | none => .next (s.finish x.1 x.2 .badDesc)
      | some (cls, _) => .next (if cls = r.cls then s else s.finish x.1 x.2 .badDesc)

/-- The 32 bytes of a completion entry (R497). -/
def State.complBytes (s : State) (c : Compl) (phase : Nat) : List Byte :=
  let head := match Cells.find c.ring s.rings with
    | none => 0
    | some r => r.partIdx % r.size
  leBytes 4 c.tag ++ leBytes 4 (c.ring + 2 ^ 18 * c.opcode) ++ leBytes 2 head ++ leBytes 1 c.status ++ leBytes 1 phase ++
    leBytes 8 s.sf ++ leBytes 4 s.sfOff ++ leBytes 8 c.result

/-- COMPLETION_WRITE (R497, R503, R507): the oldest completion whose ring has room. -/
def execCompletionWrite (s : State) : Host.Outcome State Fault Refusal :=
  let ready (c : Compl) : Bool := (Cells.find c.cq s.rings).any Ring.room
  if !s.on .pcieUp then .next s else
  match s.compl.find? ready with
  | none => .next s
  | some c =>
    match Cells.find c.cq s.rings with
    | none => .next s
    | some r =>
      let s := (s.count .m0 0x154).writeEntry c.cq r c.irqNow (s.complBytes c)
      .next (State.countOps { s with compl := s.compl.erase c } c.fn)

/-- The 32 bytes of an event entry (R500). -/
def Event.bytes (e : Event) (phase : Nat) : List Byte :=
  leBytes 2 e.reason ++ leBytes 2 e.block ++ leBytes 4 e.arg0 ++ leBytes 8 (e.stamp / sfLen) ++ leBytes 4 (e.stamp % sfLen) ++
    leBytes 6 (e.far.getD 0) ++ leBytes 1 (b2n e.far.isSome + 2 * e.repeats + 128 * phase) ++
    leBytes 1 (e.func.getD 0 + 128 * b2n e.func.isSome) ++ leBytes 4 e.arg1

/-- EVENT_WRITE (R479, R500, R501): the oldest pending entry for a function's Event ring, once the ring exists and has
room. -/
def execEventWrite (fn : Fin 65) (s : State) : Host.Outcome State Fault Refusal :=
  if !s.on .pcieUp then .next s else
  match s.events.find? (fun e => e.dest == fn.val), s.eventRing fn with
  | some e, some (id, r) =>
    if r.room then .next (State.writeEntry { s.count .m0 0x155 with events := s.events.erase e } id r false e.bytes) else .next s
  | _, _ => .next s

/-- INTERRUPT_TIMER (R503, R504): mod_time has passed since the oldest unsignalled entry. -/
def execInterruptTimer (ring : BitVec 18) (s : State) : Host.Outcome State Fault Refusal :=
  match Cells.find ring.toNat s.rings with
  | none => .next s
  | some r => .next (if r.irqEn && r.armed && r.modTime != 0 && r.fresh != 0 then s.interrupt ring.toNat r else s)

/-- NOP (R489). -/
def execNop (d : Desc) (s : State) : Host.Outcome State Fault Refusal :=
  .next <| s.take 0x00 d (d.target != 0 || d.arg0 != 0 || !d.clearFrom 24) fun s => s.finish 0x00 d .ok

/-- Ring IDs of the package (R477). -/
def State.ringSpace (s : State) : Nat := if s.has .b0 then 262144 else 32768

/-- IDs in a virtual function's window (R508). -/
def State.windowSize (s : State) : Nat := if s.has .b0 then 4096 else 512

/-- An ID lies in a virtual function's window. -/
def State.inWindow (s : State) (fn id : Nat) : Bool :=
  let b := s.rd .vfWindowBase .m0 fn
  s.on .vfWindowValid .m0 fn && decide (b ≤ id) && decide (id < b + s.windowSize)

/-- A function may create a ring with an ID (R478, R491). -/
def State.mayCreate (s : State) (fn id : Nat) : Bool :=
  decide (3 ≤ id) && decide (id < s.ringSpace) &&
    (if fn = 0 then (List.range 64).all fun v => !s.inWindow (v + 1) id else s.inWindow fn id)

/-- Entries of a function's MSI-X table (R503). -/
def State.msixSize (s : State) (fn : Nat) : Nat := if fn = 0 then 512 else min 64 (1536 / max 1 (s.rd .numVfs))

/-- RING_CREATE (R476 to R481, R490, R491). -/
def execRingCreate (d : Desc) (s : State) : Host.Outcome State Fault Refusal :=
  let a := d.arg0.toNat
  let id := bits a 17 0
  let cls := bits a 21 18
  let lg := bits a 26 22
  let base := d.at 24 8
  let w := d.at 32 4
  let md := d.at 36 4
  let pg := d.at 40 2
  let cq := bits w 17 0
  let hostRing := cls == 0 || cls == 6
  let bad := d.target != 0 || bits a 31 27 != 0 || bits w 31 30 != 0 || bits md 31 18 != 0 || bits pg 15 9 != 0 ||
    !d.clearFrom 42 || decide (8 ≤ cls) || decide (lg < 6) || decide (16 < lg) || base % 4096 != 0 ||
    (hostRing && (bits w 29 18 != 0 || md != 0)) || (!hostRing && cq != 0x3FFFF) || (cls != 6 && pg != 0x1FF)
  .next <| s.take 0x01 d bad fun s =>
    let cqOk := (Cells.find cq s.rings).any fun r => r.cls == 1 && r.owner == d.fn.val
    if !s.mayCreate d.fn id || (Cells.find id s.rings).isSome || (cls == 2 && (s.eventRing d.fn).isSome) ||
        (hostRing && !cqOk) || (!hostRing && decide (s.msixSize d.fn ≤ bits w 28 18)) ||
        (cls == 6 && !s.bound (millAt (bits pg 8 8)) (bits pg 7 0) d.fn) then
      s.finish 0x01 d .badDesc
    else
      (s.setRing id (Ring.new d.fn cls lg base cq (bits w 28 18) (bit w 29) (bits md 7 0) (bits md 17 8) (bits pg 7 0)
        (bits pg 8 8))).finish 0x01 d .ok

/-- A live ring names a Completion ring. -/
def State.cqNamed (s : State) (id : Nat) : Bool :=
  s.rings.any fun q => (q.2.cls == 0 || q.2.cls == 6) && q.2.cq == id

/-- RING_DESTROY (R478, R492): the ring closes, and goes once its descriptors have completed. -/
def execRingDestroy (d : Desc) (s : State) : Host.Outcome State Fault Refusal :=
  let id := bits d.arg0.toNat 17 0
  let ring := Cells.find id s.rings
  .next <| s.take 0x02 d (d.target != 0 || bits d.arg0.toNat 31 18 != 0 || !d.clearFrom 24) (fun s =>
    match ring with
    | none => s.finish 0x02 d .badDesc
    | some r => if id < 3 ∨ s.cqNamed id = true then s.finish 0x02 d .badDesc else s.setRing id { r with closing := true })
    (ring.any fun r => r.owner != d.fn.val)

/-- The operation is a RING_DESTROY of a ring. -/
def Op.destroys (o : Op) (id : Nat) : Bool := o.opcode == 0x02 && bits o.desc.arg0.toNat 17 0 == id

/-- RING_DESTROY_DONE (R492): no descriptor of the closing ring is in flight but those that destroy it. -/
def execRingDestroyDone (ring : BitVec 18) (s : State) : Host.Outcome State Fault Refusal :=
  let id := ring.toNat
  match Cells.find id s.rings with
  | none => .next s
  | some r =>
    if !r.closing || (s.inflight.any fun o => o.desc.ring == id && !o.destroys id) || s.compl.any fun c => c.ring == id then .next s
    else
      let ops := s.inflight.filter (Op.destroys · id)
      let s := ops.zipIdx.foldl (fun s p => s.finishOp p.1 (if p.2 = 0 then .ok else .badDesc)) s
      .next { s with rings := Cells.del id s.rings }

/-- A telemetry source that R591 lists. -/
def telemSource (index die : Nat) : Bool :=
  if index < 0xC ∨ index = 0xD ∨ (0x10 ≤ index ∧ index < 0x16) ∨ (0x80 ≤ index ∧ index < 0x84) then die == 0
  else index == 0xC || (decide (0x40 ≤ index) && decide (index < 0x58)) || (decide (0x100 ≤ index) && decide (index < 0x130)) ||
    decide (0x200 ≤ index)

/-- A source of a kind exists by the tables (R490, R591, R614). -/
def sourceListed (kind index die : Nat) : Bool :=
  match kind with
  | 0 => decide (index < 512)
  | 1 => decide (index < 48)
  | 2 => telemSource index die
  | 3 => decide (index < 4) && die == 0
  | _ => false

/-- The source kinds that a ring class takes (R492). -/
def classTakes (cls kind : Nat) : Bool :=
  match cls with
  | 4 | 5 => decide (kind ≤ 1)
  | 3 => kind == 2
  | 7 => kind == 3
  | _ => false

/-- RING_BIND (R492, R509, R591). -/
def execRingBind (d : Desc) (s : State) : Host.Outcome State Fault Refusal :=
  let id := bits d.arg0.toNat 17 0
  let kind := d.at 24 2
  let src := d.at 26 2
  let index := bits src 9 0
  let die := bits src 10 10
  let ring := Cells.find id s.rings
  let excluded := d.fn.val != 0 &&
    ((ring.any fun r => r.owner != d.fn.val) || decide (2 ≤ kind) || !s.ownsSource d.fn kind index (millAt die))
  .next <| s.take 0x03 d (d.target != 0 || bits d.arg0.toNat 31 18 != 0 || bits src 15 11 != 0 || !d.clearFrom 28) (fun s =>
    match ring with
    | none => s.finish 0x03 d .badDesc
    | some r =>
      if !classTakes r.cls kind || !sourceListed kind index die || (s.ringFor r.cls kind index die).isSome then s.finish 0x03 d .badDesc
      else (s.setRing id { r with source := some (kind, index, die) }).finish 0x03 d .ok) excluded

/-- A window may be given to a virtual function (R508). -/
def State.windowFree (s : State) (fn base : Nat) : Bool :=
  base % s.windowSize == 0 && decide (base + s.windowSize ≤ s.ringSpace) &&
    ((List.range 64).all fun v => v + 1 == fn || !s.on .vfWindowValid .m0 (v + 1) || s.rd .vfWindowBase .m0 (v + 1) != base) &&
    s.rings.all fun q => decide (q.1 < base) || decide (base + s.windowSize ≤ q.1)

/-- VF_CONFIG (R508). -/
def execVfConfig (d : Desc) (s : State) : Host.Outcome State Fault Refusal :=
  let fn := bits d.arg0.toNat 6 0
  let base := d.at 24 4
  let ops := d.at 28 2
  .next <| s.take 0x04 d (d.target != 0 || bits d.arg0.toNat 31 7 != 0 || fn == 0 || decide (64 < fn) ||
      decide (2 ^ 18 ≤ base) || decide (2 ^ 14 ≤ ops) || !d.clearFrom 30) fun s =>
    let sum := ((List.range 64).map fun v => if v + 1 = fn then ops else s.rd .vfOpsMax .m0 (v + 1)).sum
    if !s.windowFree fn base || decide (15360 < sum) then s.finish 0x04 d .badDesc
    else (s.wrs .m0 fn [(.vfWindowBase, base), (.vfWindowValid, 1), (.vfOpsMax, ops)]).finish 0x04 d .ok

/-- The counts of HOST_STS and VF_OPS after rings and operations have gone. -/
def State.recount (s : State) : State := (List.range 65).foldl State.countOps s

/-- Every ring is destroyed (R474, R510). -/
def State.dropAllRings (s : State) : State := ((s.dropRings fun _ _ => true).wrP .hostAdminReady 0).recount

/-- HOST_RESET (R474): rings and SR-IOV only; operations run to their end without completions. -/
def execHostReset (s : State) : Host.Outcome State Fault Refusal :=
  let s : State := { s with msixMasked := [], msixWaiting := [] }
  .next ((s.dropAllRings.wrP .numVfs 0).wrP .hostAdminEn 0)

/-- A function's FLR (R475): its rings and operations, and the keys of pages bound to it alone, are gone. -/
def State.flr (s : State) (fn : Nat) : State :=
  let s := s.dropRings fun _ r => r.owner == fn
  let mine (o : Op) : Bool := o.desc.fn.val == fn
  let s : State := { s with inflight := s.inflight.filter (!mine ·), kw := s.kw.filter (!mine ·)
                            la := s.la.filter fun o => !mine o.op
                            msixMasked := s.msixMasked.filter (·.1 != fn), msixWaiting := s.msixWaiting.filter (·.1 != fn) }
  let s := (s.pages.filter fun e => s.pageFuncs e.1 e.2 == [fn]).foldl (fun s e =>
    let s := (s.emptySlot e.1 e.2 slotTxOff).emptySlot e.1 e.2 slotRxOff
    (s.wr .zeroPend e.1 (e.2 * 4 + slotTxOn) 1).wr .zeroPend e.1 (e.2 * 4 + slotRxOn) 1) s
  ((s.kwShow .m0).kwShow .m1).recount

/-- VF_FLR (R475): of an enabled virtual function. -/
def execVfFlr (v : Fin 64) (s : State) : Host.Outcome State Fault Refusal :=
  .next (if v.val < s.rd .numVfs then s.flr (v + 1) else s)

/-- VF_DISABLE (R503): every enabled virtual function ends as by FLR; windows, ops_max and bindings stay. -/
def execVfDisable (s : State) : Host.Outcome State Fault Refusal :=
  .next (((List.range (s.rd .numVfs)).foldl (fun s v => s.flr (v + 1)) s).wrP .numVfs 0)

/-- The base of an admin ring. -/
def State.adminBase (s : State) (lo hi : Fld) : Nat := s.rd48 lo hi

/-- A write of 1 to admin_en is refused (R510). -/
def State.adminBad (s : State) : Bool :=
  !s.on .hostFwReady ||
    ([Fld.hostSqL, .hostCqL, .hostEqL].any fun f => decide (s.rd f < 6) || decide (12 < s.rd f)) ||
    [(Fld.hostSqLo, Fld.hostSqHi), (.hostCqLo, .hostCqHi), (.hostEqLo, .hostEqHi)].any fun p => s.adminBase p.1 p.2 % 4096 != 0

/-- admin_en written (R478, R481, R510): 1 creates rings 0 to 2, 0 destroys every ring. -/
def State.adminEn (s : State) (en : Bool) : State :=
  if !en then (s.wrs .m0 0 [(.hostAdminEn, 0), (.hostAdminErr, 0)]).dropAllRings
  else if s.adminBad then s.wrP .hostAdminErr 1
  else if s.on .hostAdminReady then s.wrP .hostAdminErr 0
  else
    let s := s.setRing 0 (Ring.new 0 0 (s.rd .hostSqL) (s.adminBase .hostSqLo .hostSqHi) 1 0 false 0 0 0xFF 1)
    let s := s.setRing 1 (Ring.new 0 1 (s.rd .hostCqL) (s.adminBase .hostCqLo .hostCqHi) 0x3FFFF 0 true 1 0 0xFF 1)
    let s := s.setRing 2 (Ring.new 0 2 (s.rd .hostEqL) (s.adminBase .hostEqLo .hostEqHi) 0x3FFFF 1 true 1 0 0xFF 1)
    s.wrs .m0 0 [(.hostAdminEn, 1), (.hostAdminReady, 1), (.hostAdminErr, 0)]

/-- ADMIN_EN (R510). -/
def execAdminEn (en : Bool) (s : State) : Host.Outcome State Fault Refusal := .next (s.adminEn en)

/-- PCIE_LINK_UP (R632): once the boot has configured the endpoint. -/
def execPcieLinkUp (s : State) : Host.Outcome State Fault Refusal :=
  .next (if s.on .bootStarted then s.wrP .pcieUp 1 else s)

end Sys2Proof.Machine
end

