-- ==== Sys2Proof/Machine/Pairs.lean ====
section
/-! DEFINITION. Client ports and crosscut pairs (R360 to R365, R382 to R388): which lanes a port has and which are driven,
the crosscut link's lanes, and the selector of a protected pair. -/

namespace Sys2Proof.Machine

/-- The lanes of a port. -/
def State.portWidth (s : State) (d : Die) (l : Nat) : Nat := 2 ^ s.rd .portWidth d l

/-- The first lane of the port in use that holds a lane. -/
def State.portOf (s : State) (d : Die) (l : Nat) : Option Nat :=
  (List.range (l + 1)).find? fun f => s.rd .portMode d f != 0 && decide (l < f + s.portWidth d f)

/-- A client port has failed (R363): a lane without signal, or no alignment. -/
def State.portFails (s : State) (d : Die) (l : Nat) : Bool :=
  !s.on .portAlignLock d l || (List.range (s.portWidth d l)).any fun k => !s.on .laneCdrLock d (l + k)

/-- The client domain of a lane (R360). -/
def laneDom (l : Nat) : Nat := if l < 12 then Dom.clntA else Dom.clntB

/-- The lane drives a signal (R365). -/
def State.laneDriven (s : State) (d : Die) (l : Nat) : Bool :=
  s.has d && !s.domInReset d (laneDom l) && s.domSt d (laneDom l) == 0 &&
    ((s.portOf d l).any fun f => !s.on .portSquelch d f)

/-- A lane's logic works: its die is present and out of reset, and its client domain takes traffic (R2, R360). -/
def State.laneRuns (s : State) (d : Die) (l : Nat) : Bool :=
  s.has d && !s.domInReset d (laneDom l) && s.domUp d (laneDom l)

/-- A lane's training state follows train_en and R365 (R369); without training it uses its presets, coefficients 0 (R368). -/
def State.laneGate (s : State) (d : Die) (l : Nat) : State :=
  if s.on .laneTrainEn d l && s.laneDriven d l then
    if s.rd .laneTrainState d l = 0 then s.wr .laneTrainState d l 1 else s
  else
    let s := s.wr .laneTrainState d l 0
    if s.on .laneTrainEn d l then s
    else (List.range 5).foldl (fun s k => s.wrs d (l * 8 + k) [(.laneCoef, 0), (.laneCoefSts, 0)]) s

/-- FlexO instances of a port in halves (R362). -/
def State.portHalves (s : State) (d : Die) (l : Nat) : Nat := s.portWidth d l * 2 ^ min 2 (s.rd .laneRate d l)

/-- The quads of a die's crosscut link as bits (R391). -/
def State.linkQuads (s : State) (d : Die) : Nat :=
  ((List.range 6).map fun q => if s.rd .portMode d (4 * q) = 3 then 2 ^ q else 0).sum

/-- A lane belongs to the die's crosscut link. -/
def State.onLink (s : State) (d : Die) (l : Nat) : Bool := bit (s.linkQuads d) (l / 4)

/-- The lanes of a die's crosscut link (R374). -/
def State.linkLanes (s : State) (d : Die) : List Nat := (List.range 24).filter fun l => bit (s.linkQuads d) (l / 4)

/-- Rate of an ODU in kb/s: the types' nominal rates of ITU-T G.709 (assumption 15), and the slots of an ODUflex at
5.240888 Gb/s each, or its flex_rate (R320, R381). -/
def State.oduRate (s : State) (k : Side) (d : Die) (o : Nat) : Nat :=
  match s.at k .oduType d o with
  | 0 => 1244160 | 1 => 2498775 | 2 => 10037274 | 3 => 10399525 | 4 => 40319219 | 5 => 104794446
  | 6 => s.at k .oduTsCount d o * 5240888
  | _ => s.at k .oduFlexRate d o * 10000

/-- Symbol periods of an ODU's frames: 15,296 bytes each (R380). -/
def State.oduFrames (s : State) (d : Die) (o count : Nat) : Nat :=
  ceilDiv (count * 122368 * s.rq * 250000) (s.oduRate .live d o)

/-- No frame start has arrived on a pair's channel for two frame periods of its ODU (R338). -/
def State.pairSilent (s : State) (d : Die) (p : Nat) : Bool :=
  !s.on .xcLinkUp d || !s.on .xcSofSeen d p || decide (s.rd .xcSofAt d p + s.oduFrames d (s.rd .pairCtx d p) 2 < s.tally)

/-- The enabled pair in which a context has the active role STANDBY (R382). -/
def State.standbyPair (s : State) (d : Die) (o : Nat) : Option Nat :=
  (List.range 32).find? fun p => s.on .pairEn d p && s.rd .pairCtx d p == o && !s.on .pairRoleActive d p

/-- The port's client output is squelched: a STANDBY pair's context has it as client (R382). -/
def State.portSquelched (s : State) (d : Die) (l : Nat) : Bool :=
  (List.range 32).any fun p => s.on .pairEn d p && !s.on .pairRoleActive d p &&
    s.rd .oduClientKind d (s.rd .pairCtx d p) != 0 && s.rd .oduClientPort d (s.rd .pairCtx d p) == l

/-- What the client registers of a Mill die show of its ports, and the training states that follow (R364, R365, R369,
R391). -/
def State.portsShow (s : State) (d : Die) : State :=
  let s := s.wr .xcQuads d 0 (s.linkQuads d)
  let s := (List.range 24).foldl (fun s l =>
    let base := ((List.range l).map fun k => if s.rd .portMode d k = 2 then s.portHalves d k / 2 else 0).sum
    s.wrs d l [(.portFlexoBase, if s.rd .portMode d l = 2 then base else 0),
      (.portSquelch, b2n (s.rd .portMode d l != 0 && s.portSquelched d l))]) s
  (List.range 24).foldl (fun s l => s.laneGate d l) s

/-- A change of what the pair's COORD block says (R383): its seq advances and no state is agreed. -/
def State.coordChange (s : State) (d : Die) (p : Nat) : State := (s.bump .pairSeq d p).wr .pairAgreed d p 0

/-- The selector of a pair moves to a leg (R385): counted, announced, and hit when the legs differ too far, which nothing
in the state says (assumption 10). -/
def State.pairSwitch (s : State) (d : Die) (p leg : Nat) : State :=
  if s.rd .pairSelLeg d p = leg then s else
  let f := s.fresh
  let hits := satAdd 16 (s.rdFree .pairSwHit d p) (f.1 % 2)
  let s := (((f.2.wr .pairSelLeg d p leg).inc .pairSwitches d p).wrFree .pairSwHit d p hits).coordChange d p
  if s.on .pairApsEn d p then
    let i := s.rd .pairCtx d p * 8 + s.rd .pairApsLevel d p
    let v := s.rd .apsTxVal d i
    s.wrs d i [(.apsTxVal, v - bits v 23 16 * 65536 + leg * 65536), (.apsTxOn, 1)]
  else s

/-- A leg of a pair has failed: the line leg by ssf, the crosscut leg with its channel (R385). -/
def State.legFails (s : State) (d : Die) (p leg : Nat) : Bool :=
  if leg = 0 then s.on .oduSsf d (s.rd .pairCtx d p) else s.pairSilent d p

/-- The selector of an owner's pair judged at a frame (R385). -/
def State.pairSelect (s : State) (d : Die) (p : Nat) : State :=
  let cur := s.rd .pairSelLeg d p
  match s.rd .pairSelForce d p with
  | 1 => s.pairSwitch d p 0
  | 2 => s.pairSwitch d p 1
  | _ => if s.legFails d p cur && !s.legFails d p (1 - cur) then s.pairSwitch d p (1 - cur) else s

/-- The pairs of a context that this end owns (R382). -/
def State.ownedPairs (s : State) (d : Die) (o : Nat) : List Nat :=
  (List.range 32).filter fun p => s.on .pairEn d p && s.rd .pairCtx d p == o && s.on .pairRoleActive d p

/-- The selectors of a context's pairs judged. -/
def State.selectCtx (s : State) (d : Die) (o : Nat) : State := (s.ownedPairs d o).foldl (fun s p => s.pairSelect d p) s

/-- An accepted protection request moves the selectors that follow it (R385); its requested signal is byte 6 (assumption
16). -/
def State.pairAps (s : State) (d : Die) (o level v : Nat) : State :=
  ((s.ownedPairs d o).filter fun p => s.on .pairApsEn d p && s.rd .pairApsLevel d p == level &&
    s.rd .pairSelForce d p % 3 == 0 && decide (bits v 23 16 ≤ 1)).foldl (fun s p => s.pairSwitch d p (bits v 23 16)) s

/-- The active role of a pair changes (R384, R387, R388). -/
def State.pairRole (s : State) (d : Die) (p role : Nat) (taken : Bool) : State :=
  ((s.wrs d p [(.pairRoleActive, role), (.pairTaken, b2n taken)]).coordChange d p).portsShow d

end Sys2Proof.Machine
end

