-- ==== Sys2Proof/Machine/Windows.lean ====
section
/-! DEFINITION. The windows of transport PM (R597 to R601): the seconds of each layer, open or closed, the counts that stamped
events bring them, and what a second's counts make of it. -/

namespace Sys2Proof.Machine

/-- The second belongs to a layer of a source. -/
def PmSec.ofLayer (x : PmSec) (source die layer : Nat) : Bool := x.source == source && x.die == die && x.layer == layer

/-- An event stamped with a far SF falls into a window that begins no later; a window bounded by package SFs takes what comes while it
is the last (R80, R81; assumption 75). -/
def PmSec.takes (x : PmSec) (stamp : Nat) : Bool := !x.far || decide (x.start ≤ stamp)

/-- An event counted in the window of its stamp (R81, R597). -/
def State.pmCount (s : State) (source die layer stamp : Nat) (f : PmSec → PmSec) : State :=
  match (s.pmSecs.filter fun x => x.ofLayer source die layer && x.takes stamp).getLast? with
  | none => s
  | some w => { s with pmSecs := updateWhere (· == w) f s.pmSecs }

/-- One block of an OTN layer: its BIP-8 errors and its BEI, of which only 1 to 8 say anything (R598, R601). -/
def PmSec.block (x : PmSec) (bip bei : Nat) : PmSec :=
  { x with blocks := x.blocks + 1, near := x.near + b2n (bip != 0), bip := x.bip + bip
           farErr := x.farErr + b2n (decide (1 ≤ bei) && decide (bei ≤ 8)) }

/-- One position of a carrier line: its outcome and its share of the pre-FEC bit errors, in 2^-24 (R272, R598, R601). -/
def PmSec.position (x : PmSec) (outcome errs : Nat) : PmSec :=
  { x with blocks := x.blocks + 1, near := x.near + b2n (decide (2 ≤ outcome)), bip := x.bip + b2n (outcome == 4)
           extra := x.extra + b2n (outcome == 2), bitErrs := x.bitErrs + errs }

/-- Fifteen per cent of the blocks are errored (R599). -/
def pmHeavy (errs blocks : Nat) : Bool := decide (0 < blocks) && decide (15 * blocks ≤ 100 * errs)

/-- An errored second (R599). -/
def PmSec.es (x : PmSec) : Bool := x.defect || x.near != 0
/-- A severely errored second (R599). -/
def PmSec.ses (x : PmSec) : Bool := x.defect || pmHeavy x.near x.blocks
/-- An errored second of the far end. -/
def PmSec.fes (x : PmSec) : Bool := x.farDefect || x.farErr != 0
/-- A severely errored second of the far end. -/
def PmSec.fses (x : PmSec) : Bool := x.farDefect || pmHeavy x.farErr x.blocks

end Sys2Proof.Machine
end

