-- ==== Sys2Proof/Machine/Pm.lean ====
section
/-! DEFINITION. The layers of transport PM and their defects (R591, R598). -/

namespace Sys2Proof.Machine

/-- The mode of TCM level `l`, 1 to 6, of a context (R333). -/
def State.tcmModeOf (s : State) (d : Die) (o l : Nat) : Nat := bits (s.rd .oduTcmMode d o) (2 * l - 1) (2 * l - 2)

/-- A source has PM of a layer (R591, R598, R601); a TCM level in MONITOR or OPERATIONAL mode. -/
def State.pmLayer (s : State) (source m layer : Nat) : Bool :=
  if 0x200 ≤ source then
    layer == 1 || (decide (2 ≤ layer) && decide (layer ≤ 7) && [1, 2].contains (s.tcmModeOf (millAt m) (source - 0x200) (layer - 1)))
  else if 0x100 ≤ source ∧ source < 0x130 then layer == 0
  else if 0x80 ≤ source ∧ source < 0x84 then layer == 9 && m == 0
  else decide (0x40 ≤ source) && decide (source < 0x58) && layer == 8

/-- The layer has far-end counts: SM, PM, operational TCM (R598). -/
def State.pmFar (s : State) (source m layer : Nat) : Bool :=
  layer == 0 || layer == 1 || (decide (layer ≤ 7) && s.tcmModeOf (millAt m) (source - 0x200) (layer - 1) == 2)

/-- A defect of a layer in force (R598). -/
def State.pmDefect (s : State) (source m layer : Nat) : Bool :=
  let d := millAt m
  if layer = 9 then s.rd .frmState (millOf (source - 0x80)) ((source - 0x80) % 2) != 3
  else if layer = 8 then s.portFails d (source - 0x40)
  else if layer = 0 then
    let x := source - 0x100
    s.on .sliceFail d x || (s.on .sliceDTim d x && s.on .sliceTimAct d x)
  else
    let o := source - 0x200
    s.on .oduSsf d o || (if layer = 1 then s.on .oduDAis d o || s.on .oduDLck d o || s.on .oduDOci d o
      else decide (1 ≤ s.rd .tcmBad d (o * 8 + layer - 1) % 4))

/-- BDI in force on a layer (R598). -/
def State.pmFarDefect (s : State) (source m layer : Nat) : Bool :=
  let d := millAt m
  if layer = 0 then s.on .sliceDBdi d (source - 0x100)
  else if layer = 1 then s.on .oduDBdi d (source - 0x200)
  else decide (layer ≤ 7) && bit (s.rd .tcmBad d ((source - 0x200) * 8 + layer - 1)) 2

/-- Codewords that the decoder of a port corrected or could not correct: counted by its registers and in its open second (R363, R598,
R601). -/
def State.codewords (s : State) (d : Die) (l corrected uncorrectable : Nat) : State :=
  ((s.inc .portCwCorrected d l corrected).inc .portCwUncorrectable d l uncorrectable).pmCount (0x40 + l) (b2n (d == .m1)) 8 0
    fun x => { x with near := x.near + uncorrectable, bip := x.bip + uncorrectable, extra := x.extra + corrected }

/-- Every open second holds the defects that are in force now (R599). -/
def State.pmWatch (s : State) : State :=
  { s with pmSecs := s.pmSecs.map fun x =>
      if x.stop.isSome then x
      else { x with defect := x.defect || s.pmDefect x.source x.die x.layer, farDefect := x.farDefect || s.pmFarDefect x.source x.die x.layer } }

end Sys2Proof.Machine
end

