-- ==== Sys2Proof/Machine/Defects.lean ====
section
/-! DEFINITION. Failed slices and server signal fail (R329 to R332), and the signal a context sends toward the line
(R338). -/

namespace Sys2Proof.Machine

/-- A carrier's slices have failed by themselves (R78, R329): not in SYNC, out of service, or on a stale die. -/
def State.carrierFails (s : State) (n : Nat) : Bool :=
  s.rd .frmState (millOf n) (n % 2) != 3 || s.on .viewStale (millOf n) ||
    !((s.groupOf n).any fun g => bit (s.rd .lgInService .m0 g) n)

/-- A carrier's slices as the group setting judges them (R330). -/
def State.slicesFail (s : State) (n : Nat) : Bool :=
  s.carrierFails n || (s.groupOf n).any fun g => s.on .lgFailAll .m0 g && (s.rxMembers g).any s.carrierFails

/-- The operational TCM levels of a context that carry a defect which fails it (R331, R333). -/
def State.tcmFails (s : State) (d : Die) (o : Nat) : Bool :=
  (List.range 6).any fun l => bits (s.rd .oduTcmMode d o) (2 * l + 1) (2 * l) == 2 && bit (s.rd .tcmBad d (o * 8 + l + 1)) 0

/-- Server signal fail of a context (R331). -/
def State.ssfNow (s : State) (d : Die) (o : Nat) : Bool :=
  let mine := s.rxSlots.filter fun t => t.names d o
  mine.any (fun t => s.on .sliceFail t.die t.x) ||
    (match s.parentOf .live d o with
      | some p => s.on .oduSsf p.1 p.2 || s.on .oduDMsim p.1 p.2
      | none => mine.any fun t => (s.groupOf t.carrier).any fun g => s.on .lgMsim .m0 g) ||
    s.on .oduDAis d o || s.on .oduDLck d o || s.on .oduDOci d o || s.tcmFails d o || s.on .oduDPlm d o ||
    (s.on .oduTimAct d o && (s.on .oduDTim d o || mine.any fun t => s.on .sliceDTim t.die t.x))

/-- What a context sends toward its client (R339, R341): the ODU that its client has sent under ODU_TERM; ODU-AIS on the path that a
looped signal does not continue on; its replacement, which is local fault ordered sets for an Ethernet client; else its own. -/
def State.clientSignal (s : State) (d : Die) (o : Nat) (fails : Bool) : Nat :=
  if s.rd .oduLb d o = 2 then 3
  else if (s.rd .oduLb d o = 1 ∧ s.on .oduLbCont d o = false) ∨
      ((s.ctxCarriers d o).any fun n => (s.groupOf n).any fun g => s.rd .lgLb .m0 g == 1 && !s.on .lgLbCont .m0 g) = true then 1
  else if !fails then 0
  else if s.rd .oduType d o = 6 then 4 else 1

/-- One context's ssf and its replacement toward the client (R331, R336, R339). -/
def State.ctxShow (s : State) (d : Die) (o : Nat) : State :=
  if !s.on .oduEnable d o then s else
  let f := s.ssfNow d o
  let s := if s.on .oduSsf d o && !f then (List.range 8).foldl (fun s l => s.wr .apsRun d (o * 8 + l) 0) s else s
  let r := f || s.on .oduDCsf d o || s.on .oduImpLost d o
  (s.wrs d o [(.oduSsf, b2n f), (.oduRxRepActive, b2n r), (.oduClientSig, s.clientSignal d o r)]).selectCtx d o

/-- The contexts carried in a context. -/
def State.children (s : State) (d : Die) (o : Nat) : List (Die × Nat) :=
  ((s.listed .live .oduParentCtx).filter fun e => e.2.2 == o && millAt (s.rd .oduParentDie e.1 e.2.1) == d).map
    fun e => (e.1, e.2.1)

/-- A context's ssf, and that of what it carries. -/
def State.ctxUpdate (s : State) : Nat → Die → Nat → State
  | 0, d, o => s.ctxShow d o
  | f + 1, d, o =>
    let s := s.ctxShow d o
    (s.children d o).foldl (fun s c => s.ctxUpdate f c.1 c.2) s

/-- The contexts with a receive slot on some of the carriers. -/
def State.ctxsOn (s : State) (ns : List Nat) : List (Die × Nat) :=
  ((s.rxSlots.filter fun t => ns.contains t.carrier).map fun t => (t.ctxDie, t.ctx)).dedup

/-- The failed slices of some carriers follow their cause, and with them ssf (R329 to R331). -/
def State.sliceShow (s : State) (ns : List Nat) : State :=
  let s := ns.foldl (fun s n =>
    let f := b2n (s.slicesFail n)
    (List.range (slicesOf (s.rxM n))).foldl (fun s i => s.wr .sliceFail (millOf n) (n % 2 * 24 + i) f) s) s
  ((s.ctxsOn ns).foldl (fun s c => s.ctxUpdate 3 c.1 c.2) s).pmWatch

/-- The slices of a carrier's group follow their cause. -/
def State.groupShow (s : State) (n : Nat) : State :=
  s.sliceShow (match s.groupOf n with | some g => s.rxMembers g | none => [n])

/-- The stream that encrypts a context's transmit frames. -/
def State.ctxStream (s : State) (d : Die) (o : Nat) : Option Nat :=
  ((s.streams .live).find? fun e => e.1 == d && !s.on .strmTargetKind d e.2 && s.rd .strmTarget d e.2 == o &&
    s.on .strmTxEn d e.2).map (·.2)

/-- An enabled stream does not encrypt the frames of its target (R338, R423, R494): it is idle, zeroised or exhausted, or the frame
that left it last was replaced. -/
def State.cipherReplaces (s : State) (d : Die) (i : Nat) : Bool :=
  s.rd .strmTxState d i != 1 || (Cells.find (d.code * 512 + i) s.cipherOut).any fun f => f.replaced != 0

/-- The client or the parent of a switched or lower-order context has failed (R338). -/
def State.clientFails (s : State) (d : Die) (o : Nat) : Bool :=
  (s.rd .oduClientKind d o == 2 && s.portFails d (s.rd .oduClientPort d o)) ||
    (s.parentOf .live d o).any fun p => s.rd .oduClientKind p.1 p.2 == 2 && s.portFails p.1 (s.rd .oduClientPort p.1 p.2)

/-- What a context sends toward the line (R338, R382, R415): the rank, 0 for its own signal, and the replacement signal,
1 AIS, 2 LCK, 3 OCI, 0 local fault. -/
def State.lineSignal (s : State) (d : Die) (o : Nat) : Nat × Nat :=
  if s.rd .oduRepForce d o ≠ 0 then (1, s.rd .oduRepForce d o) else
  match (s.ctxStream d o).filter fun i => s.cipherReplaces d i with
  | some i => (2, s.rd .strmRepSel d i + 1)
  | none =>
    match s.standbyPair d o with
    | some p => if s.pairSilent d p then (4, 1) else (0, 0)
    | none =>
      if s.rd .oduType d o = 6 then
        if s.portFails d (s.rd .oduClientPort d o) then (3, 0) else if s.rd .oduClientKind d o = 0 then (5, 3) else (0, 0)
      else if s.clientFails d o then (4, 1)
      else if s.rd .oduClientKind d o = 0 then (5, 3)
      else (0, 0)

/-- The groups in whose transmit slices a context's frames stand (R319). -/
def State.txGroups (s : State) (d : Die) (o : Nat) : List Nat :=
  let up := s.carriersOfCtx .live 3 d o
  (s.txSlots.filter fun t => up.any fun p => t.names p.1 p.2).filterMap fun t => s.txGroupOf .live t.carrier

/-- What a context's line slots carry (R338, R341), as `lineSignal` gives it, with rank 6 for the received ODU that a
loopback sends back, and rank 7 for the ODU-AIS of a path that a looped signal does not continue on. A group's loopback
holds whatever its contexts' are (assumption 54). -/
def State.lineOut (s : State) (d : Die) (o : Nat) : Nat × Nat :=
  let gs := s.txGroups d o
  if gs.any fun g => s.rd .lgLb .m0 g == 1 then (6, 0)
  else if gs.any fun g => s.rd .lgLb .m0 g == 2 && !s.on .lgLbCont .m0 g then (7, 1)
  else if s.rd .oduLb d o = 2 ∧ s.on .oduLbCont d o = false then (7, 1)
  else if s.rd .oduLb d o = 1 then (6, 0)
  else s.lineSignal d o

end Sys2Proof.Machine
end

