-- ==== Sys2Proof/Machine/Otn.lean ====
section
/-! DEFINITION. OTN processing (R317 to R359): received and transmitted frames with their overhead, defects, trail traces,
protection requests, the overhead rings, the adaptation of Ethernet clients, and link connection resize. -/

namespace Sys2Proof.Machine

/-- A layer's instance among the layers of a die: contexts, then slices. -/
def layerIdx : OtnLayer → Nat
  | .ctx o => o
  | .slice x => 512 + x
  | .group g => 560 + g

/-- A layer's key over the package. -/
def layerKey (d : Die) (l : OtnLayer) : Nat := d.code * 1024 + layerIdx l

/-- A byte of a list as a number, 0 past its end. -/
def byteAt (l : List Byte) (k : Nat) : Nat := (l.getD k 0).toNat

/-- Byte `k` of a slice's or context's TTI table: four bytes a word, the first in [7:0] (R9, R358). -/
def State.ttiByte (s : State) (f : Fld) (d : Die) (i k : Nat) : Byte :=
  BitVec.ofNat 8 (s.rd f d (i * 16 + k / 4) / 2 ^ (8 * (k % 4)))

/-- An accepted TTI written to its table (R358). -/
def State.putTti (s : State) (f : Fld) (d : Die) (i : Nat) (bytes : List Byte) : State :=
  (List.range 16).foldl (fun s w => s.wr f d (i * 16 + w) (leNat ((bytes.drop (4 * w)).take 4))) s

/-- The accepted and the expected TTI differ in what a tim_mode compares (R329, R334). -/
def State.ttiDiffers (s : State) (acc exp : Fld) (d : Die) (i mode : Nat) : Bool :=
  let differ (lo hi : Nat) : Bool := (List.range (hi - lo)).any fun w => s.rd acc d (i * 16 + lo + w) != s.rd exp d (i * 16 + lo + w)
  match mode with | 1 => differ 0 4 | 2 => differ 4 8 | 3 => differ 0 8 | _ => false

/-- One trail-trace byte of a layer; a whole multiframe that came three times in a row is accepted (R329). -/
def State.ttiFrame (s : State) (acc : Fld) (d : Die) (l : OtnLayer) (i mfas : Nat) (b : Byte) : State :=
  let key := layerKey d l
  let r := (s.ttis.find? (·.key == key)).getD ⟨key, [], [], 0⟩
  let cur := if mfas % 64 = 0 then [b] else r.cur ++ [b]
  if mfas % 64 ≠ 63 ∨ cur.length ≠ 64 then
    { s with ttis := s.ttis.filter (·.key != key) ++ [{ r with cur := if cur.length ≤ 64 then cur else [] }] }
  else
    let run := if cur = r.last then min 3 (r.run + 1) else 1
    let s : State := { s with ttis := s.ttis.filter (·.key != key) ++ [⟨key, [], cur, run⟩] }
    if run = 3 then (s.putTti acc d i cur).wr .ttiSeen d (layerIdx l) 1 else s

/-- A received PSI; one that came three times in a row is accepted (R329). -/
def State.psiFrame (s : State) (d : Die) (l : OtnLayer) (p : Psi) : State × Bool :=
  let key := layerKey d l
  let run := match s.psis.find? (·.key == key) with
    | some r => if r.last.bytes = p.bytes then min 3 (r.run + 1) else 1
    | none => 1
  ({ s with psis := s.psis.filter (·.key != key) ++ [⟨key, p, run⟩] }, run == 3)

/-- The length of a run of equal values after one more. -/
def runNext (top last run v : Nat) : Nat := if v = last then min top (run + 1) else 1

/-- A defect that is raised and cleared by a value that persists: kept until a run is long enough (R329). -/
def persist (n run : Nat) (now was : Bool) : Bool := if n ≤ run then now else was

/-- The STAT, BDI and BEI byte of TCM level L, 1 to 6, in the ODU overhead as R348 orders it (assumption 15). -/
def tcmByte : Nat → Nat
  | 1 => 22 | 2 => 19 | 3 => 16 | 4 => 12 | 5 => 9 | _ => 6

/-- BIP-8 errors of a layer's frame wait for the BEI of its next transmitted frame (R332). -/
def beiOf (errors : Nat) : Nat := min 8 errors

/-- One TCM level of a received frame, `bip` its BIP-8 errors (R329, R332, R333, R598). -/
def State.tcmFrame (s : State) (d : Die) (o l : Nat) (oh : List Byte) (bip far : Nat) : State :=
  let mode := bits (s.rd .oduTcmMode d o) (2 * l - 1) (2 * l - 2)
  let i := o * 8 + l
  if mode = 0 then s.wrs d i [(.tcmBad, 0), (.tcmStatRun, 0), (.tcmBdiRun, 0)] else
  let v := byteAt oh (tcmByte l)
  let stat := v % 8
  let bdi := v / 8 % 2
  let sr := runNext 7 (s.rd .tcmStatLast d i) (s.rd .tcmStatRun d i) stat
  let br := runNext 7 (s.rd .tcmBdiLast d i) (s.rd .tcmBdiRun d i) bdi
  let was := s.rd .tcmBad d i
  let bad := b2n (persist 3 sr (stat == 7 || stat == 5 || stat == 6) (bit was 0)) +
    2 * b2n (persist 3 sr (stat == 0) (bit was 1)) + 4 * b2n (persist 5 br (bdi == 1) (bit was 2))
  (s.wrs d i [(.tcmStatLast, stat), (.tcmStatRun, sr), (.tcmBdiLast, bdi), (.tcmBdiRun, br), (.tcmBad, bad), (.odBei, beiOf bip)]).pmCount
    (0x200 + o) (b2n (d == .m1)) (1 + l) far (·.block bip (v / 16))

/-- The PM layer of a received frame, `bip` its BIP-8 errors (R329, R598). -/
def State.pmFrame (s : State) (d : Die) (o : Nat) (oh : List Byte) (bip far : Nat) : State :=
  let v := byteAt oh 25
  let stat := v % 8
  let bdi := v / 8 % 2
  let sr := runNext 7 (s.rd .oduStatLast d o) (s.rd .oduStatRun d o) stat
  let br := runNext 7 (s.rd .oduBdiLast d o) (s.rd .oduBdiRun d o) bdi
  let s := s.wrs d o [(.oduStatLast, stat), (.oduStatRun, sr), (.oduBdiLast, bdi), (.oduBdiRun, br),
    (.oduDAis, b2n (persist 3 sr (stat == 7) (s.on .oduDAis d o))), (.oduDLck, b2n (persist 3 sr (stat == 5) (s.on .oduDLck d o))),
    (.oduDOci, b2n (persist 3 sr (stat == 6) (s.on .oduDOci d o))), (.oduDBdi, b2n (persist 5 br (bdi == 1) (s.on .oduDBdi d o)))]
  let s := s.pmCount (0x200 + o) (b2n (d == .m1)) 1 far (·.block bip (v / 16))
  if v / 16 ≤ 8 then s.inc .oduBeiErrors d o (v / 16) else s

/-- The protection bytes of a received frame, row 4 columns 5 to 8, for the level its MFAS names (R335, R336). The byte of
column 5 is the most significant (assumption 16). -/
def State.apsFrame (s : State) (d : Die) (o mfas : Nat) (oh : List Byte) (far : Nat) : State :=
  let l := mfas % 8
  let i := o * 8 + l
  if !bit (s.rd .oduApsMon d o) l || s.on .oduSsf d o then s else
  let v := beNat ((oh.drop 32).take 4)
  let run := runNext 31 (s.rd .apsCand d i) (s.rd .apsRun d i) v
  let s := s.wrs d i [(.apsCand, v), (.apsRun, run)]
  if max 2 (s.rd .oduApsPersist d o) ≤ run ∧ v ≠ s.rd .oduApsRx d i then
    (((s.wr .oduApsRx d i v).wr .oduApsChanged d o 1).raise Reason.apsChange (blkId d Dom.otn) (o + 512 * l) v
      (some far)).pairAps d o l v
  else s

/-- The extract entry of a received frame, every 2^ext_div frames (R348, R354). -/
def State.extract (s : State) (d : Die) (l : OtnLayer) (en div drop : Fld) (i kind mfas : Nat) (oh : List Byte) (fail : Bool)
    (far : Nat) : State :=
  let k := layerIdx l
  if !s.on en d i then s.wr .extSkip d k 0 else
  match s.ringFor 5 kind i (b2n (d == .m1)) with
  | none => s
  | some (id, r) =>
    let n := s.rd .extSkip d k + 1
    if n < 2 ^ min 8 (s.rd div d i) then s.wr .extSkip d k n else
    let s := s.wr .extSkip d k 0
    if r.room then
      let len := if kind = 0 then 50 else 49
      let flags := BitVec.ofNat 8 (b2n fail + 2 * s.rd .extGap d k)
      let body := ((oh ++ List.replicate 50 0).take len) ++ [BitVec.ofNat 8 mfas, flags]
      (s.wr .extGap d k 0).writeEntry id r false fun _ => (body ++ List.replicate 52 0).take 52 ++ leBytes 6 far
    else (s.inc drop d i).wr .extGap d k 1

/-- A received slice frame (R324, R329, R332, R354): its MFAS counts on from that of the slice's last frame. -/
def State.sliceFrame (s : State) (d : Die) (x : Nat) (l : OtnLayer) (oh : List Byte) (bip far : Nat) : State :=
  let mfas := s.rd .sliceMfas d x
  let s := s.wrs d x [(.sliceMfas, mfas + 1), (.smBei, beiOf bip)]
  let bdi := byteAt oh 2 / 8 % 2
  let br := runNext 7 (s.rd .sliceBdiLast d x) (s.rd .sliceStatRun d x) bdi
  let s := s.wrs d x [(.sliceBdiLast, bdi), (.sliceStatRun, br), (.sliceDBdi, b2n (persist 5 br (bdi == 1) (s.on .sliceDBdi d x)))]
  let s := s.pmCount (0x100 + x) (b2n (d == .m1)) 0 far (·.block bip (byteAt oh 2 / 16))
  let s := (s.inc .sliceBipErrors d x bip).ttiFrame .ttiSliceAcc d l x mfas (oh.getD 0 0)
  let s := s.wr .sliceDTim d x (b2n (s.on .ttiSeen d (layerIdx l) && s.ttiDiffers .ttiSliceAcc .ttiSliceExp d x (s.rd .sliceTimMode d x)))
  (s.sliceShow [(if d = .m1 then 2 else 0) + x / 24]).extract d l .sliceExtEn .sliceExtDiv .sliceExtDrop x 1 mfas oh
    (s.on .sliceFail d x) far

/-- A received PSI of a context (R329, R345). -/
def State.ctxPsi (s : State) (d : Die) (o : Nat) (l : OtnLayer) : Option Psi → State
  | none => s
  | some p =>
    let r := s.psiFrame d l p
    if !r.2 then r.1 else
      let s := r.1.wrs d o [(.oduDPlm, b2n (!p.ptOk)), (.oduDCsf, b2n p.csf)]
      if s.rd .oduClientKind d o = 3 ∧ (p.msiOk ∨ s.rd .msimHold d o = 0) then s.wr .oduDMsim d o (b2n (!p.msiOk)) else s

/-- The bits of a GMP data entity of a context, and the entities of a server multiframe (R327; assumption 71): 128 bits a slot in
ODUCn, with 952 entities in 20 frames; 8 bits a slot in a parent, with 15,232 entities, or 15,200 in an ODU4. -/
def State.gmpServer (s : State) (d : Die) (o ts : Nat) : Nat × Nat :=
  match s.parentOf .live d o with
  | none => (128 * ts, 952)
  | some p => (8 * ts, if s.rd .oduType p.1 p.2 = 5 then 15200 else 15232)

/-- Cm and ΣCnD of a multiframe into which `bytes` client bytes go, ΣCnD of the one before being `sum` (R327; assumption 71). -/
def gmpAdapt (server : Nat × Nat) (sum bytes : Nat) : Nat × Nat :=
  let cm := min server.2 ((sum + bytes) / max 1 (server.1 / 8))
  (cm, sum + bytes - cm * (server.1 / 8))

/-- Entity j (from 1) of a server multiframe carries client data (R327; assumption 71). -/
def gmpCarries (server : Nat × Nat) (cm j : Nat) : Bool := decide (j * cm % server.2 < cm)

/-- The client bytes that Cm and two ΣCnD in turn say a multiframe brought (R327; assumption 71). -/
def gmpBytes (server : Nat × Nat) (cm cnd before : Nat) : Nat := cm * (server.1 / 8) + cnd - before

/-- Slots by which a context is multiplexed (R320, R344, R345): those that name it in a slot map in use, or its lower-order ones. -/
def State.slotsUsed (s : State) (use : List Slot) (d : Die) (o : Nat) : Nat :=
  if (s.parentOf .live d o).isSome then s.rd .oduTsCount d o else (use.filter fun t => t.names d o).length

/-- Cm and ΣCnD of a received multiframe of a context interpreted (R327). -/
def State.gmpReceived (s : State) (d : Die) (o : Nat) : Option (Nat × Nat) → State
  | none => s
  | some g => s.wrs d o [(.gmpRxCm, g.1), (.gmpRxBytes, gmpBytes (s.gmpServer d o (s.slotsUsed s.rxSlots d o)) g.1 g.2 (s.rd .gmpRxCnd d o)),
      (.gmpRxCnd, g.2)]

/-- Cm and ΣCnD of a multiframe to be sent generated (R327). -/
def State.gmpSent (s : State) (d : Die) (o : Nat) : Option Nat → State
  | none => s
  | some bytes =>
    let g := gmpAdapt (s.gmpServer d o (s.slotsUsed s.txSlots d o)) (s.rd .gmpTxCnd d o) bytes
    s.wrs d o [(.gmpTxCm, g.1), (.gmpTxCnd, g.2)]

/-- The frame of a context that its pairs of an active role send on their crosscut channels (R382): an OWNER the client's ODU, a
STANDBY the line-received one. Its overhead is kept as sent, under the block type 0 of data. -/
def State.bridge (s : State) (d : Die) (o role : Nat) (oh : List Byte) : State :=
  if !s.on .xcLinkUp d then s else
  ((List.range 32).filter fun p => s.on .pairEn d p && s.rd .pairCtx d p == o && s.rd .pairRoleActive d p == role).foldl
    (fun s p => { s with xcSent := Cells.put (d.code * 8192 + p) oh s.xcSent }) s

/-- The overhead that passes through a context toward the line: of a STANDBY context that of the last whole frame on its
crosscut channel (R382). -/
def State.lineSource (s : State) (d : Die) (o : Nat) (gen : List Byte) : List Byte :=
  match s.standbyPair d o with
  | some p => (Cells.find (65536 + d.code * 32 + p) s.xcBuf).getD gen
  | none => gen

/-- A received frame of a context (R327, R329, R331, R332, R335, R354, R382). -/
def State.oduFrame (s : State) (d : Die) (o : Nat) (l : OtnLayer) (mfas : Nat) (oh : List Byte) (bip : List Nat) (psi : Option Psi)
    (impLost : Bool) (gmp : Option (Nat × Nat)) (far : Nat) : State :=
  let s := (s.gmpReceived d o gmp).wrs d o [(.msimHold, s.rd .msimHold d o - 1), (.oduImpLost, b2n impLost)]
  let s := (List.range 6).foldl (fun s k => s.tcmFrame d o (k + 1) oh (bip.getD (k + 1) 0) far) (s.pmFrame d o oh (bip.headD 0) far)
  let s := s.wr .oduTcmFail d o ((List.range 6).map fun k => if s.rd .tcmBad d (o * 8 + k + 1) ≠ 0 then 2 ^ k else 0).sum
  let s := ((s.inc .oduBipErrors d o (bip.headD 0)).wr .odBei d (o * 8) (beiOf (bip.headD 0))).ttiFrame .ttiOduAcc d l o mfas (oh.getD 23 0)
  let s := s.wr .oduDTim d o (b2n (s.on .ttiSeen d (layerIdx l) && s.ttiDiffers .ttiOduAcc .ttiOduExp d o (s.rd .oduTimMode d o)))
  let s := (((s.ctxPsi d o l psi).ctxUpdate 3 d o).pmWatch.apsFrame d o mfas oh far).bridge d o 0 oh
  s.extract d l .oduExtEn .oduExtDiv .oduExtDrop o 0 mfas oh (s.on .oduSsf d o) far

/-- A received PSI of a group's OPUCn: its MSI (R329, R345). -/
def State.groupPsi (s : State) (g : Nat) (d : Die) (l : OtnLayer) (psi : Option Psi) : State :=
  let s := s.wr .lgMsimHold .m0 g (s.rd .lgMsimHold .m0 g - 1)
  match psi with
  | none => s
  | some p =>
    let r := s.psiFrame d l p
    if !r.2 then r.1
    else if p.msiOk || r.1.rd .lgMsimHold .m0 g == 0 then
      (r.1.wr .lgMsim .m0 g (b2n (!p.msiOk))).sliceShow (s.rxMembers g)
    else r.1

/-- A Mill die's OTN layer runs. -/
def State.otnRuns (s : State) (d : Die) : Bool :=
  s.has d && s.domUp d Dom.otn && !s.domInReset d Dom.otn && !s.on .viewStale d

/-- The group whose received ODUCn content holds a layer. -/
def State.rxGroupOf (s : State) (d : Die) : OtnLayer → Option Nat
  | .slice x => s.groupOf ((if d = .m1 then 2 else 0) + x / 24)
  | .ctx o => (s.ctxCarriers d o).findSome? s.groupOf
  | .group g => some g

/-- The overhead that receive processing sees: that of the line, or under LINE_TERM what the layer sends (R341; assumption
54). -/
def State.rxContent (s : State) (d : Die) (l : OtnLayer) (oh : List Byte) : List Byte :=
  if (s.rxGroupOf d l).any fun g => s.rd .lgLb .m0 g == 2 then (Cells.find (layerKey d l) s.ohSent).getD oh else oh

/-- The entries of a slot map in use follow the committed map: the carriers' own that pass (R344, R345). -/
def State.followMap (s : State) (k : Side) (use useDie : Fld) (d : Die) (p : Nat → Bool) : State :=
  let mine (e : Die × Nat × Nat) : Bool := e.1 == d && p e.2.1
  let is := (((s.listed k .lmapCtx ++ s.listed k .lmapDie ++ s.listed .live use ++ s.listed .live useDie).filter mine).map (·.2.1)).dedup
  is.foldl (fun s i => s.wrs d i [(use, s.at k .lmapCtx d i), (useDie, s.at k .lmapDie d i)]) s

/-- An entry of a slot map in use belongs to the resize of a switched ODUflex, which waits for OMFI 0 (R344, R345). -/
def State.resizes (s : State) (k : Side) (use useDie : Fld) (d : Die) (i : Nat) : Bool :=
  s.lcrEntry (s.rd use d i, s.rd useDie d i) (s.at k .lmapCtx d i, s.at k .lmapDie d i)

/-- The side of the line slot map that a carrier's receive swap has made good: the staged one while its Mill die's transmit swap is
to come (R345). -/
def State.rxMapSide (s : State) (d : Die) : Side := if s.commit.any fun c => c.txLeft.contains d then .staged else .live

/-- A received OPUCn frame with OMFI 0: resized slot sets of the group's carriers that have swapped come into use (R345). -/
def State.rxOmfi (s : State) (d : Die) (g : Nat) : State :=
  ((s.rxMembers g).filter fun n => millOf n == d && s.on .rxMapWait d (n % 2)).foldl (fun s n =>
    (s.followMap (s.rxMapSide d) .rxMapCtx .rxMapDie d fun i => i / 480 == n % 2).wr .rxMapWait d (n % 2) 0) s

/-- A transmitted OPUCn frame with OMFI 0: resized slot sets of the group come into use (R344). -/
def State.txOmfi (s : State) (d : Die) (g : Nat) : State :=
  ((s.txMembers .live g).filter fun n => millOf n == d).foldl (fun s n =>
    s.followMap .live .txMapCtx .txMapDie d fun i => i / 480 == n % 2) s

/-- OTN_FRAME_RECEIVED (R324, R327, R329 to R336, R341, R345, R354): one frame of a slice, a context or a group's ODUCn: its MFAS (a slice's is
counted), its OMFI, its overhead in the order of R348, its BIP-8 errors (PM or SM, then TCM1 to TCM6), at the end of a PSI
multiframe the PSI, and at the end of a GMP multiframe the Cm and ΣCnD that it carries. `ohRecv` keeps the overhead of contexts
and groups for the loopbacks that send it back. -/
def execOtnFrameReceived (m : Fin 2) (layer : OtnLayer) (mfas : BitVec 8) (omfi : Fin 20) (oh : List Byte) (bip : List Nat)
    (psi : Option Psi) (impLost : Bool) (gmp : Option (Nat × Nat)) (farSf : BitVec 48) (s : State) :
    Host.Outcome State Fault Refusal :=
  let d := millAt m
  if !s.otnRuns d then .next s else
  let oh := s.rxContent d layer oh
  let seen : State := { s with ohRecv := Cells.put (layerKey d layer) oh s.ohRecv }
  match layer with
  | .slice x => .next (s.sliceFrame d x layer oh (bip.headD 0) farSf.toNat)
  | .ctx o =>
    if s.on .oduEnable d o then .next (seen.oduFrame d o layer mfas.toNat oh bip psi impLost gmp farSf.toNat) else .next s
  | .group g => .next ((if omfi.val = 0 then seen.rxOmfi d g else seen).groupPsi g d layer psi)

/-- The COH bytes of an ODU frame (R396, R397). -/
def cohByte (k : Nat) : Bool := k ≤ 2 || (26 ≤ k && k ≤ 31) || (36 ≤ k && k ≤ 41)

/-- The places of the tag's bytes in the ODU overhead, the most significant first (R396): row 4 columns 9 to 14 and 1 to 4, row 3
columns 13 and 14. -/
def tagBytes : List Nat := [36, 37, 38, 39, 40, 41, 28, 29, 30, 31, 26, 27]

/-- The crypto overhead of a frame in an ODU overhead that begins at byte `at_` (R396). -/
def cohInto (at_ : Nat) (f : CipherFrame) (oh : List Byte) : List Byte :=
  let oh := ((oh.set at_ (BitVec.ofNat 8 f.seqb)).set (at_ + 1) (BitVec.ofNat 8 f.cst)).set (at_ + 2) 0
  (tagBytes.zip ((leBytes 12 f.tag).reverse)).foldl (fun oh p => oh.set (at_ + p.1) p.2) oh

/-- The stream that encrypts the ODUCn whose crypto overhead stands in a local slice, the first of its group (R396). -/
def State.sliceStream (s : State) (d : Die) (x : Nat) : Option (Die × Nat) :=
  let n := (if d = .m1 then 2 else 0) + x / 24
  (s.txGroupOf .live n).bind fun g =>
    if (s.txSlices .live g)[0]? != some (n, x) then none
    else (s.streams .live).find? fun e => s.on .strmTargetKind e.1 e.2 && s.rd .strmTarget e.1 e.2 % 4 == g && s.on .strmTxEn e.1 e.2

/-- The last frame that a stream's encryptor released. -/
def State.cohOf (s : State) (e : Option (Die × Nat)) : Option CipherFrame := e.bind fun e => Cells.find (e.1.code * 512 + e.2) s.cipherOut

/-- The crypto overhead of the frame that a stream releases, placed in the overhead of its target (R396). -/
def State.withCoh (s : State) (e : Option (Die × Nat)) (at_ : Nat) (oh : List Byte) : List Byte :=
  match s.cohOf e with
  | some f => cohInto at_ f oh
  | none => oh

/-- A byte whose mask bit is ignored (R351, R397): BIP-8 of SM, PM and operational TCM levels, the justification bytes, PSI
and OMFI, and COH bytes. -/
def State.maskIgnored (s : State) (d : Die) (l : OtnLayer) (k : Nat) : Bool :=
  match l with
  | .slice x => k == 1 || k == 31 || (decide (7 ≤ k) && cohByte (k - 7) && (s.sliceStream d x).isSome)
  | .group _ => k == 1
  | .ctx o => k == 24 || decide (42 ≤ k) || (cohByte k && (s.ctxStream d o).isSome) ||
      (List.range 6).any fun j => bits (s.rd .oduTcmMode d o) (2 * j + 1) (2 * j) == 2 && k + 1 == tcmByte (j + 1)

/-- The mask of an insert entry (R348). -/
def insMask (ctx : Bool) (e : List Byte) : Nat := leNat ((e.drop (if ctx then 50 else 49)).take 7)
/-- The hold bit of an insert entry (R348). -/
def insHoldBit (ctx : Bool) (e : List Byte) : Bool := byteAt e (if ctx then 57 else 56) % 2 == 1
/-- An insert entry with a reserved bit set (R348, R353). -/
def insBad (ctx : Bool) (e : List Byte) : Bool :=
  let n := if ctx then 50 else 49
  insMask ctx e / 2 ^ n != 0 || byteAt e (if ctx then 57 else 56) / 2 != 0 ||
    (e.drop (if ctx then 58 else 57)).any (· != 0)

/-- An entry's masked bytes over the generated ones (R349, R351). -/
def State.overlay (s : State) (d : Die) (l : OtnLayer) (ctx : Bool) (gen e : List Byte) : List Byte :=
  gen.zipIdx.map fun p => if bit (insMask ctx e) p.2 && !s.maskIgnored d l p.2 then e.getD p.2 0 else p.1

/-- The BAD_DESC completion of an insert entry (R353), on the lowest Completion ring of the ring's owner (assumption
17). -/
def State.badEntry (s : State) (id : Nat) (r : Ring) : State :=
  match s.rings.find? fun q => q.2.cls == 1 && q.2.owner == r.owner with
  | none => s
  | some q => { s with compl := s.compl ++ [⟨r.owner, id, q.1, 0, 0, Status.badDesc.code, 0, false, none⟩] }

/-- The insert ring of a layer is taken or its last entry repeated (R349 to R353): the overhead the frame carries. -/
def State.insert (s : State) (d : Die) (l : OtnLayer) (en rep : Fld) (i kind : Nat) (gen entry : List Byte) : State × List Byte :=
  let k := layerIdx l
  let ctx := kind == 0
  let again (s : State) : State × List Byte :=
    if !s.on .insTaken d k then (s, gen)
    else
      let s' := if s.on .insHold d k then s else s.inc rep d i
      (s', s.overlay d l ctx gen ((Cells.find (layerKey d l) s.insLast).getD []))
  if !s.on en d i then (s, gen) else
  match s.ringFor 4 kind i (b2n (d == .m1)) with
  | none => again s
  | some (id, r) =>
    if r.hostIdx = r.partIdx then again s
    else
      let s := s.setRing id { r with partIdx := (r.partIdx + 1) % (2 * r.size) }
      if insBad ctx entry then again (s.badEntry id r)
      else
        let s : State := { s with insLast := Cells.put (layerKey d l) entry s.insLast }
        (s.wrs d k [(.insTaken, 1), (.insHold, b2n (insHoldBit ctx entry))], s.overlay d l ctx gen entry)

/-- The TTI a layer transmits: the table as it stood when the 64-frame multiframe began (R334). -/
def State.ttiOut (s : State) (f : Fld) (d : Die) (l : OtnLayer) (i mfas : Nat) : State × Byte :=
  let key := layerKey d l
  let s : State := if mfas % 64 = 0 ∨ (Cells.find key s.ttiSend).isNone
    then { s with ttiSend := Cells.put key ((List.range 64).map (s.ttiByte f d i)) s.ttiSend } else s
  (s, ((Cells.find key s.ttiSend).getD []).getD (mfas % 64) 0)

/-- A backward indication that starts and stops with the second frame after its cause changes (R332): the new count and
whether it is sent. -/
def bdiStep (cause sent : Bool) (run : Nat) : Nat × Bool :=
  if cause = sent then (0, sent) else if run = 0 then (1, sent) else (0, cause)

/-- The receive slice that a transmit slice answers for has failed or has dTIM with tim_act (R332); transmit slice 0
answers also for receive slices without a counterpart. -/
def State.smBdi (s : State) (g q : Nat) : Bool :=
  let bad (e : Nat × Nat) : Bool :=
    let d := millOf e.1
    s.on .sliceFail d e.2 || (s.on .sliceDTim d e.2 && s.on .sliceTimAct d e.2)
  let rx := s.rxSlices g
  (rx[q]?).any bad || (q == 0 && (rx.drop (s.txSlices .live g).length).any bad)

/-- The group and slice number of a transmitted local slice. -/
def State.txSliceNo (s : State) (d : Die) (x : Nat) : Option (Nat × Nat) :=
  let n := (if d = .m1 then 2 else 0) + x / 24
  (s.txGroupOf .live n).bind fun g => (findPos (fun e => e == (n, x)) (s.txSlices .live g)).map fun q => (g, q)

/-- A BEI, BDI and STAT byte with its backward indications (R332; assumption 15): BEI in the upper four bits, then BDI. -/
def backward (b : Byte) (bei : Nat) (bdi : Bool) : Byte := BitVec.ofNat 8 (bei * 16 + 8 * b2n bdi + b.toNat % 8)

/-- The overhead of a slice's frame as the part generates it (R332, R334). -/
def State.sliceGen (s : State) (d : Die) (x : Nat) (l : OtnLayer) (mfas : Nat) (gen : List Byte) : State × List Byte :=
  let cause := (s.txSliceNo d x).any fun p => s.smBdi p.1 p.2
  let b := bdiStep cause (s.on .sliceBdiTx d x) (s.rd .sliceBdiRun d x)
  let bei := s.rd .smBei d x
  let s := s.wrs d x [(.sliceBdiRun, b.1), (.sliceBdiTx, b2n b.2), (.smBei, 0)]
  let t := s.ttiOut .ttiSliceTx d l x mfas
  (t.1, (gen.set 0 t.2).set 2 (backward (gen.getD 2 0) bei b.2))

/-- The level that the OSMC of a transmitted slice carries (R454): DNU on the carrier that is the source of the selected candidate, or
of the one that a switch leaves. -/
def State.sliceQl (s : State) (d : Die) (x : Nat) : Nat :=
  let c := 6 + (if d = .m1 then 2 else 0) + x / 24
  if s.rd .timSelCand = c ∨ s.rd .timOld = c then 0xF else s.rd .timOutQl

/-- A transmitted slice frame (R332, R334, R349, R396, R454). -/
def State.sliceSend (s : State) (d : Die) (x : Nat) (l : OtnLayer) (mfas : Nat) (gen entry : List Byte) : State × List Byte :=
  let t := (s.wr .sliceQlTx d x (s.sliceQl d x)).sliceGen d x l mfas gen
  t.1.insert d l .sliceInsEn .sliceInsRepeat x 1 (s.withCoh (s.sliceStream d x) 7 t.2) entry

/-- The signal a context sends with this frame (R338, R340, R341). -/
def State.signalNow (s : State) (d : Die) (o : Nat) : State :=
  let r := s.lineOut d o
  s.wrs d o [(.oduRank, r.1), (.oduSig, r.2), (.oduTxRepActive, b2n ((s.lineSignal d o).1 != 0))]

/-- The overhead last received on a layer, which a loopback sends back. -/
def State.looped (s : State) (d : Die) (l : OtnLayer) (gen : List Byte) : List Byte := (Cells.find (layerKey d l) s.ohRecv).getD gen

/-- The backward indications of an operational TCM level (R332, R333). -/
def State.tcmSend (s : State) (d : Die) (o : Nat) (x : State × List Byte) (l : Nat) : State × List Byte :=
  if bits (s.rd .oduTcmMode d o) (2 * l - 1) (2 * l - 2) ≠ 2 then x else
  let i := o * 8 + l
  let b := bdiStep (s.rd .tcmBad d i != 0) (s.on .tcmBdiTx d i) (s.rd .tcmBdiTxRun d i)
  (x.1.wrs d i [(.tcmBdiTxRun, b.1), (.tcmBdiTx, b2n b.2), (.odBei, 0)],
    x.2.set (tcmByte l) (backward (x.2.getD (tcmByte l) 0) (s.rd .odBei d i) b.2))

/-- The overhead bytes of a replacement signal: all ones for ODU-AIS, 0x55 for ODU-LCK, 0x66 for ODU-OCI (R338; assumption 15). -/
def repOverhead (sig : Nat) (gen : List Byte) : List Byte := gen.map fun _ => if sig = 1 then 0xFF#8 else if sig = 2 then 0x55#8 else 0x66#8

/-- The overhead of a context's frame as the part generates it (R332, R334, R337). -/
def State.oduGen (s : State) (d : Die) (o : Nat) (l : OtnLayer) (mfas : Nat) (gen : List Byte) : State × List Byte :=
  let b := bdiStep (s.on .oduSsf d o) (s.on .oduBdiTx d o) (s.rd .oduBdiTxRun d o)
  let bei := s.rd .odBei d (o * 8)
  let s := (s.wrs d o [(.oduBdiTxRun, b.1), (.oduBdiTx, b2n b.2)]).wr .odBei d (o * 8) 0
  let t := s.ttiOut .ttiOduTx d l o mfas
  let i := o * 8 + mfas % 8
  let gen := (gen.set 23 t.2).set 25 (backward (gen.getD 25 0) bei b.2)
  let aps := (leBytes 4 (s.rd .apsTxVal d i)).reverse
  let gen := if s.on .apsTxOn d i then
      (((gen.set 32 (aps.getD 0 0)).set 33 (aps.getD 1 0)).set 34 (aps.getD 2 0)).set 35 (aps.getD 3 0) else gen
  [1, 2, 3, 4, 5, 6].foldl (fun x k => x.1.tcmSend d o x k) (t.1, gen)

/-- A transmitted frame of a context (R332, R334, R337, R338, R341, R349, R382, R396): one that a loopback sends back keeps its
overhead, a replaced one has that of its replacement signal; a stream's crypto overhead stands in every frame, and the insert
ring acts on what the part generates. -/
def State.oduSend (s : State) (d : Die) (o : Nat) (l : OtnLayer) (mfas : Nat) (gen entry : List Byte) : State × List Byte :=
  let out := s.lineOut d o
  let s := s.signalNow d o
  if out.1 = 6 then (s, s.looped d l gen) else
  let t := (s.bridge d o 1 gen).oduGen d o l mfas (s.lineSource d o gen)
  let oh := if out.2 = 0 then t.2 else repOverhead out.2 t.2
  t.1.insert d l .oduInsEn .oduInsRepeat o 0 (s.withCoh ((s.ctxStream d o).map fun i => (d, i)) 0 oh) entry

/-- OTN_FRAME_TRANSMIT (R327, R332, R334, R337, R338, R341, R344, R349): one frame is built: `gen` is the overhead that passes through, with
the BIP-8 of each layer, `entry` the bytes of the insert ring's next entry, and `client` the bytes of the context's ODU in the GMP
multiframe that ends, if one does. `ohSent` keeps what the frame carries. -/
def execOtnFrameTransmit (m : Fin 2) (layer : OtnLayer) (mfas : BitVec 8) (omfi : Fin 20) (gen entry : List Byte) (client : Option Nat)
    (s : State) : Host.Outcome State Fault Refusal :=
  let d := millAt m
  if !s.otnRuns d then .next s else
  let send (r : State × List Byte) : State := { r.1 with ohSent := Cells.put (layerKey d layer) r.2 r.1.ohSent }
  match layer with
  | .slice x => .next (send (s.sliceSend d x layer mfas.toNat gen entry))
  | .ctx o => if s.on .oduEnable d o then .next (send ((s.gmpSent d o client).oduSend d o layer mfas.toNat gen entry)) else .next s
  | .group g => .next (send (if omfi.val = 0 then s.txOmfi d g else s, if s.rd .lgLb .m0 g = 1 then s.looped d layer gen else gen))

/-- ETH_BLOCK_RECEIVED (R325, R326, R363): `taken` blocks have left the adaptation buffer since the last one. Blocks come only from a
port in service; an errored one enters the buffer as an error block. -/
def execEthBlockReceived (m : Fin 2) (o : Fin 512) (kind : EthBlock) (taken : Nat) (s : State) :
    Host.Outcome State Fault Refusal :=
  let d := millAt m
  if !(s.otnRuns d && s.on .oduEnable d o && s.rd .oduType d o == 6 && !s.portFails d (s.rd .oduClientPort d o)) then .next s else
  let lv := s.rd .impLevel d o
  let s := if lv < taken then s.inc .oduImpUnderflow d o else s
  let lv := lv - taken
  let idles := min lv (s.rd .impIdles d o)
  let s := s.wrs d o [(.impLevel, lv), (.impIdles, idles)]
  if s.on .impDrop d o then .next (if kind = .last then s.wr .impDrop d o 0 else s)
  else if lv < 4096 then .next (s.wrs d o [(.impLevel, lv + 1), (.impIdles, idles + b2n (kind == .idle))])
  else if kind = .idle then .next s
  else if 0 < idles then .next (s.wr .impIdles d o (idles - 1))
  else .next ((s.inc .oduImpOverflow d o).wr .impDrop d o (b2n (kind != .last)))

/-- APS_TX (R337): the level's bytes carry APS_TX_VAL from the next frame in which the level occurs. -/
def execApsTx (m : Fin 2) (o : Fin 512) (level : Fin 8) (s : State) : Host.Outcome State Fault Refusal :=
  let d := millAt m
  .next (s.writeReg d .oduApsTxLevel o fun s => s.wrs d (o * 8 + level) [(.apsTxVal, s.rd .oduApsTxVal d o), (.apsTxOn, 1)])

/-- The FlexO slots that a committed map gives a context. -/
def State.flexOf (s : State) (d : Die) (o : Nat) : List Nat :=
  ((s.flexSlots .live).filter fun t => t.die == d && t.names d o).map fun t => t.x * 20 + t.slot - 1

/-- LCR_HANDSHAKE (R347): the handshake of a context reaches its resize boundary with a slot set: in use from now on where
the committed FlexO map holds it, else answered with NACK. -/
def execLcrHandshake (m : Fin 2) (o : Fin 512) (slots : List (Fin 960)) (s : State) : Host.Outcome State Fault Refusal :=
  let d := millAt m
  if !(s.otnRuns d && s.on .oduEnable d o && s.rd .oduType d o == 7) then .next s else
  let new := slots.map Fin.val
  let have_ := s.flexOf d o
  if have_.all new.contains && new.all have_.contains then
    let tag := o.val + 1024 * b2n (d == .m1)
    let s := ((s.listed .live .fmapUse).filter fun e => e.1 == d && e.2.2 == tag).foldl
      (fun s e => s.wr .fmapUse d e.2.1 0x3FF) s
    .next (new.foldl (fun s i => s.wr .fmapUse d i tag) s)
  else .next (s.raise Reason.lcrNack (blkId d Dom.otn) o)

/-- ODU_CNT_CLR (R355): the counters at 0x28 to 0x34. -/
def execOduCntClr (m : Fin 2) (o : Fin 512) (s : State) : Host.Outcome State Fault Refusal :=
  .next (s.writeReg (millAt m) .oduClearAll o fun s => s.zeros (millAt m) o [.oduInsRepeat, .oduExtDrop, .oduBipErrors, .oduBeiErrors, .oduImpOverflow, .oduImpUnderflow])

end Sys2Proof.Machine
end

