-- ==== Sys2Proof/Machine/Timing.lean ====
section
/-! DEFINITION. Reference selection, holdover and timing outputs (R432 to R470). Only M0's timing block selects (R433); its
registers stand in M0's store. -/

namespace Sys2Proof.Machine

/-- The rank of a quality level of a network option, 1 best; none where it is not selectable (R434). -/
def qlRank (option2 : Bool) (ql : Nat) : Option Nat :=
  if option2 then
    match ql with
    | 1 => some 1 | 0 => some 2 | 7 => some 3 | 4 => some 4 | 0xD => some 5 | 0xA => some 6 | 0xC => some 6 | 0xE => some 7
    | _ => none
  else
    match ql with
    | 2 => some 1 | 4 => some 4 | 8 => some 5 | 0xB => some 6 | _ => none

/-- The level of a candidate: the host's for REF_IN, else the received one (R432). -/
def State.candQl (s : State) (c : Nat) : Nat := if c < 6 then s.rd .candHostQl .m0 c else s.rd .candRxQl .m0 c

/-- The rank of a candidate; none where its level is not selectable, QL-FAILED among them (R434, R435). -/
def State.candRank (s : State) (c : Nat) : Option Nat :=
  if !s.on .timQlEn then some 0
  else if 6 ≤ c ∧ s.on .candQlTimeout .m0 c = true then none
  else qlRank (s.on .timQlOption) (s.candQl c)

/-- What R436 asks of a candidate apart from its level and a wait. -/
def State.candBaseNow (s : State) (c : Nat) : Bool :=
  s.on .candEn .m0 c && s.rd .candPrio .m0 c != 0 && s.on .candActive .m0 c && s.on .candQualified .m0 c

/-- One candidate's eligibility, and the wait-to-restore that its loss and return bring (R436, R439). -/
def State.judgeCand (s : State) (c : Nat) : State :=
  let base := s.candBaseNow c
  let due := if s.on .candEn .m0 c && !s.on .candWasEn .m0 c then false
    else s.on .candWtrDue .m0 c || (!base && s.on .candBase .m0 c && (s.on .candEligible .m0 c || s.on .candWtrRunning .m0 c))
  let ok := base && (s.candRank c).isSome
  let begins := ok && due && s.rd .timWtrS != 0
  let running := base && (begins || s.on .candWtrRunning .m0 c)
  s.wrs .m0 c [(.candWasEn, s.rd .candEn .m0 c), (.candBase, b2n base), (.candWtrDue, b2n (due && !ok)),
    (.candWtrRunning, b2n running),
    (.candWtrLeftS, if begins then min 720 (s.rd .timWtrS) else if running then s.rd .candWtrLeftS .m0 c else 0),
    (.candEligible, b2n (ok && !running))]

/-- The history of the holdover is cleared (R452). -/
def State.clearHist (s : State) : State := { s.wrP .timHistS 0 with hist := [] }

/-- The level the part sends (R454). -/
def State.outQl (s : State) : Nat :=
  match s.rd .timTstate with
  | 0 => s.rd .timFreerunQl
  | 2 => if s.on .timQlEn && decide (s.rd .timSelCand < 14) then s.candQl (s.rd .timSelCand) else s.rd .timHoldoverQl
  | _ => s.rd .timHoldoverQl

/-- The bandwidth code that the DPLL uses (R449): in ACQUIRING acq_bw, but not below dpll_bw; 0x7 is taken as 0x6. -/
def State.bandwidth (s : State) : Nat :=
  let d := min 6 (s.rd .timDpllBw)
  if s.rd .timTstate = 1 then max d (min 6 (s.rd .timAcqBw)) else d

/-- out_ql and the DPLL's bandwidth follow the state and the settings (R449, R454). -/
def State.showQl (s : State) : State := (s.wrP .timOutQl s.outQl).wrP .timBwUse s.bandwidth

/-- The timing state changes, with its event, and the history with it (R450, R452). -/
def State.timTo (s : State) (st : Nat) : State :=
  let old := s.rd .timTstate
  if old = st then s else
  let s := (s.wrs .m0 0 [(.timTstate, st), (.timSecVoid, 0)]).raise Reason.timState (blkId .m0 Dom.timing)
  if st = 0 ∨ old = 3 ∨ old = 4 then s.clearHist else s

/-- No reference is left: holdover by the seconds held (R450, R451), or FREERUN in mode FREERUN or without XO_IN (R441,
R445). -/
def State.timLose (s : State) : State :=
  let s := s.wrs .m0 0 [(.timSelCand, 15), (.timSwitching, 0), (.timReturn, 0), (.timOld, 15), (.timHold, 0), (.timFollow, 0)]
  let st := s.rd .timTstate
  if s.rd .timMode = 2 ∨ s.on .timXoLost = true then s.timTo 0
  else if st = 1 ∨ st = 2 then
    let f := s.fresh
    let s : State := if s.hist = [] then { f.2 with holdFreq := some (f.1 : Int) }
      else { s with holdFreq := some (s.hist.sum / s.hist.length) }
    (s.inc .timHoldovers .m0).timTo (if s.rd .timHistS = 30 then 4 else 3)
  else s

/-- A reference is selected (R446, R450, R452): a switch begins unless there was none before. -/
def State.timSelect (s : State) (c : Nat) : State :=
  let old := s.rd .timSelCand
  let st := s.rd .timTstate
  let s : State := { s.wrs .m0 0 [(.timSelCand, c), (.timHold, 0), (.timFollow, 0)] with holdFreq := none }
  let s := if st = 0 ∧ old = 15 then s
    else s.wrs .m0 0 [(.timSwitching, 1), (.timReturn, 0), (.timOld, if s.on .timSwitching && !s.on .timReturn then s.rd .timOld else old)]
  if st = 0 ∨ st = 3 ∨ st = 4 then s.timTo 1 else s

/-- A candidate is better than another: rank, then prio, then index (R437). -/
def State.candBefore (s : State) (a b : Nat) : Bool :=
  let ra := (s.candRank a).getD 99
  let rb := (s.candRank b).getD 99
  let pa := s.rd .candPrio .m0 a
  let pb := s.rd .candPrio .m0 b
  decide (ra < rb) || (ra == rb && (decide (pa < pb) || (pa == pb && decide (a < b))))

/-- The best eligible candidate (R437). -/
def State.bestCand (s : State) : Option Nat :=
  ((List.range 14).filter fun c => s.on .candEligible .m0 c).foldl (fun b c => match b with
    | none => some c
    | some x => if s.candBefore c x then some c else some x) none

/-- The candidate the block stays with or takes in mode AUTO, given the one it has (R437, R438, R440). -/
def State.autoCand (s : State) (cur : Nat) : Option Nat :=
  if 14 ≤ cur then s.bestCand
  else if s.on .timHold || s.on .timFollow then some cur
  else if s.on .candEligible .m0 cur then
    match s.bestCand with
    | none => some cur
    | some b =>
      let rc := (s.candRank cur).getD 99
      let rb := (s.candRank b).getD 99
      if rb < rc ∨ (s.on .timRevertive = true ∧ rb = rc ∧ s.rd .candPrio .m0 b < s.rd .candPrio .m0 cur) then some b
      else some cur
  else s.bestCand

/-- The candidate that the mode asks for (R441). -/
def State.wantedCand (s : State) (cur : Nat) : Option Nat :=
  match s.rd .timMode with
  | 0 => s.autoCand cur
  | 1 =>
    let c := s.rd .timForceCand
    if c < 14 ∧ s.on .candActive .m0 c = true ∧ s.on .candQualified .m0 c = true then some c else none
  | _ => none

/-- The target of a switch in progress may no longer be selected (R448). -/
def State.targetGone (s : State) (cur : Nat) : Bool :=
  match s.rd .timMode with
  | 0 => !s.on .candEligible .m0 cur && !s.on .timFollow && !s.on .timHold
  | _ => s.wantedCand cur != some cur

/-- The candidates judged and the selection made (R436 to R441, R447, R448, R454). -/
def State.timUpdate (s : State) : State :=
  let s := (List.range 14).foldl State.judgeCand s
  let cur := s.rd .timSelCand
  if s.on .timSwitching && !s.targetGone cur then s.showQl
  else
    match s.wantedCand cur with
    | some c => (if c = cur then s else s.timSelect c).showQl
    | none => if cur = 15 ∧ s.rd .timTstate = 0 then s.showQl else s.timLose.showQl

/-- The lane whose clock is the crosscut clock candidate of a die (R379): the lowest-numbered locked one, while the link is UP. -/
def State.linkClock (s : State) (d : Die) : Option Nat :=
  if s.on .xcLinkUp d then (s.linkLanes d).find? fun l => s.on .laneBlockLock d l else none

/-- The lane whose clock a client selector's lane presents (R379, R432, R433, R470): the lane itself while it has cdr_lock, of a
crosscut port the link's clock; none for a lane above 47, absent, or on a Mill die that is not live. -/
def State.clockLane (s : State) (lane : Nat) : Option Nat :=
  let d := millAt (lane / 24)
  let l := lane % 24
  if !(decide (lane < 48) && s.has d && (d == .m0 || s.live d) && s.laneRuns d l) then none
  else if bit (s.linkQuads d) (l / 4) then (s.linkClock d).map (· + lane / 24 * 24)
  else if s.on .laneCdrLock d l then some lane else none

/-- The condition under which a candidate is active, as far as the state shows it (R432, R433): the edges of REF_IN are
seen only by the part. -/
def State.candMayBe (s : State) (c : Nat) : Bool :=
  if c < 6 then true
  else if c < 10 then s.hasCarrier (c - 6) && s.rd .acqState (faceOf (c - 6)) == 7 && s.live (millOf (c - 6))
  else s.on .cselSelEn .m0 (c - 10) && (s.clockLane (s.rd .cselLane .m0 (c - 10))).isSome

/-- A candidate goes inactive: unmeasured and unqualified (R442); a selected line or client candidate is held off first
(R440), unless the switch to it is still in progress (R448), and the second is not kept (R451). -/
def State.candDown (s : State) (c : Nat) : State :=
  let sel := s.rd .timSelCand == c
  let held := sel && decide (6 ≤ c) && s.rd .timMode == 0 && s.rd .timHoldoffMs != 0 && (!s.on .timSwitching || s.on .timReturn)
  let s := s.wrs .m0 c [(.candActive, 0), (.candQualified, 0), (.candRun, 0), (.candRequalLeftS, 0)]
  let s := if sel then s.wrP .timSecVoid 1 else s
  (s.wrs .m0 0 [(.timHold, b2n ((s.on .timHold && !sel) || held)), (.timFollow, b2n (s.on .timFollow && !sel))]).timUpdate

/-- The seconds of requalification (R444). -/
def State.requalS (s : State) : Nat := max 1 (s.rd .timRequalS)

/-- A candidate goes active, unqualified at first (R444); one that returns within its hold-off is followed again, its phase
absorbed as in a switch (R440, R446; assumption 72). -/
def State.candUp (s : State) (c : Nat) : State :=
  let back := s.on .timHold && s.rd .timSelCand == c
  let s := s.wrs .m0 c [(.candActive, 1), (.candQualified, 0), (.candRun, 0), (.candRequalLeftS, s.requalS)]
  (if back then (s.wrs .m0 0 [(.timHold, 0), (.timFollow, 1), (.timSwitching, 1), (.timReturn, 1), (.timOld, 15)]).wr .candWtrDue .m0 c 0
    else s).timUpdate

/-- CANDIDATE_ACTIVE (R432, R440, R444). -/
def execCandidateActive (c : Fin 14) (s : State) : Host.Outcome State Fault Refusal :=
  if s.on .candActive .m0 c || !s.candMayBe c then .next s else .next (s.candUp c)

/-- CANDIDATE_INACTIVE (R432, R440, R442). -/
def execCandidateInactive (c : Fin 14) (s : State) : Host.Outcome State Fault Refusal :=
  if !s.on .candActive .m0 c || (decide (6 ≤ c.val) && s.candMayBe c) then .next s else .next (s.candDown c)

/-- A valid message of a candidate's quality level (R435): an OSMC code counts from its third time in a row. -/
def State.qlMessage (s : State) (c ql : Nat) : State :=
  let s := s.wr .candQlTimeout .m0 c 0
  if c < 10 then
    let run := runNext 3 (s.rd .candQlLast .m0 c) (s.rd .candQlRun .m0 c) ql
    let s := s.wrs .m0 c [(.candQlLast, ql), (.candQlRun, run)]
    (if run = 3 then s.wr .candRxQl .m0 c ql else s).timUpdate
  else (s.wr .candRxQl .m0 c ql).timUpdate

/-- QL_RECEIVED (R367, R435): an OSMC message or an ESMC PDU; REF_IN candidates have no such channel. -/
def execQlReceived (c : Fin 14) (ql : BitVec 4) (s : State) : Host.Outcome State Fault Refusal :=
  if c.val < 6 ∨ (10 ≤ c.val ∧ s.on .cselSelEn .m0 (c - 10) = false) then .next s else .next (s.qlMessage c ql.toNat)

/-- A client candidate presents a crosscut link, whose level is that of STATUS (R432, R435). -/
def State.crosscutCand (s : State) (c : Nat) : Bool :=
  decide (10 ≤ c) && s.onLink (millAt (s.rd .cselLane .m0 (c - 10) / 24)) (s.rd .cselLane .m0 (c - 10) % 24)

/-- QL_TIMEOUT (R435): 5 s without an OSMC message or an ESMC PDU, which a crosscut candidate does not wait for. -/
def execQlTimeout (c : Fin 14) (s : State) : Host.Outcome State Fault Refusal :=
  if c.val < 6 ∨ s.crosscutCand c = true then .next s
  else .next ((s.wrs .m0 c [(.candQlTimeout, 1), (.candQlRun, 0)]).timUpdate)

/-- One candidate's measurement (R442 to R444), thresholds in steps of 0.05 ppm. -/
def State.measure (s : State) (c : Nat) (off : BitVec 16) : State :=
  if !s.on .candActive .m0 c then s else
  let a := off.toInt.natAbs
  let b := blkId .m0 Dom.timing
  let warn := decide (s.rd .timWarnThr * 5 ≤ a)
  let s := s.wr .candFreqOff .m0 c off.toNat
  let s := if warn && !s.on .candWarned .m0 c then (s.wr .candSoftWarn .m0 c 1).raise Reason.freqWarn b else s
  let s := s.wr .candWarned .m0 c (b2n warn)
  if s.on .candQualified .m0 c then
    if s.rd .timDisqThr * 5 ≤ a then
      let s := (s.wrs .m0 c [(.candQualified, 0), (.candRun, 0), (.candRequalLeftS, s.requalS)]).raise Reason.freqDisq b
      if s.rd .timSelCand = c then s.wrP .timSecVoid 1 else s
    else s
  else
    let run := if a < min (s.rd .timRequalThr) (s.rd .timDisqThr) * 5 then s.rd .candRun .m0 c + 1 else 0
    if s.requalS * 10 ≤ run then
      let s := (s.wrs .m0 c [(.candQualified, 1), (.candRun, 0), (.candRequalLeftS, 0)]).raise Reason.freqQual b
      if s.rd .timSelCand = c then s.wrP .timFollow 0 else s
    else
      let s := s.wrs .m0 c [(.candRun, run), (.candRequalLeftS, ceilDiv (s.requalS * 10 - run) 10)]
      if s.rd .timSelCand = c ∧ s.on .timFollow = true ∧ s.rd .timDisqThr * 5 ≤ a then
        (s.wr .candWtrDue .m0 c 1).wrP .timFollow 0
      else s

/-- FREQ_MEASURE_UPDATE (R442 to R444): the offsets by candidate, in 0.01 ppm; none is taken while XO_IN is lost (R445). -/
def execFreqMeasureUpdate (offs : List (BitVec 16)) (s : State) : Host.Outcome State Fault Refusal :=
  if s.on .timXoLost then .next s else
  .next ((offs.zipIdx.filter fun p => decide (p.2 < 14)).foldl (fun s p => s.measure p.2 p.1) s).timUpdate

/-- A candidate's wait ends (R439). -/
def State.waitEnds (s : State) (c : Nat) : State := (s.wrs .m0 c [(.candWtrRunning, 0), (.candWtrLeftS, 0)]).timUpdate

/-- WTR_EXPIRE (R439). -/
def execWtrExpire (c : Fin 14) (s : State) : Host.Outcome State Fault Refusal :=
  if s.on .candWtrRunning .m0 c then .next (s.waitEnds c) else .next s

/-- WTR_CLEAR (R439, R469). -/
def execWtrClear (c : Fin 14) (s : State) : Host.Outcome State Fault Refusal :=
  .next (s.writeReg .m0 .candWtrClear c fun s => s.waitEnds c)

/-- HOLDOFF_EXPIRE (R440): the selector acts; the input that was lost waits to restore when it returns (R439). -/
def execHoldoffExpire (s : State) : Host.Outcome State Fault Refusal :=
  if s.on .timHold then .next ((s.wrP .timHold 0).wr .candWtrDue .m0 (s.rd .timSelCand) 1).timUpdate else .next s

/-- TIM_SWITCH (R446, R447): the phase is absorbed and the switch completes; what waited for it is considered now. An input that
returned within its hold-off was no switch (assumption 72). -/
def execTimSwitch (s : State) : Host.Outcome State Fault Refusal :=
  if !s.on .timSwitching then .next s else
  let t := s.wrs .m0 0 [(.timSwitching, 0), (.timReturn, 0), (.timOld, 15)]
  .next (if s.on .timReturn then t else (t.inc .timSwitches .m0).raise Reason.timSwitch (blkId .m0 Dom.timing)).timUpdate

/-- XO_LOST (R445). -/
def execXoLost (s : State) : Host.Outcome State Fault Refusal :=
  if s.on .timXoLost then .next s else
  let s := (s.wrP .timXoLost 1).raise Reason.xoLost (blkId .m0 Dom.timing)
  .next (if s.rd .timSelCand = 15 then s.timLose.showQl else s)

/-- The DPLL follows its input: it is not held by a hold-off or a switch (R440, R446). -/
def State.dpllFollows (s : State) : Bool := !s.on .timHold && !s.on .timSwitching

/-- The selected candidate lies within the pull-in range of ±20 ppm, as it was last measured (R449). -/
def State.pullsIn (s : State) : Bool := decide ((toInt 16 (s.rd .candFreqOff .m0 (s.rd .timSelCand))).natAbs ≤ 2000)

/-- DPLL_LOCKED (R440, R446, R449, R450). -/
def execDpllLocked (s : State) : Host.Outcome State Fault Refusal :=
  if s.rd .timTstate = 1 ∧ s.dpllFollows = true ∧ s.pullsIn = true then .next (s.timTo 2).showQl else .next s

/-- DPLL_PHASE_ERROR (R440, R446, R450). -/
def execDpllPhaseError (s : State) : Host.Outcome State Fault Refusal :=
  if s.rd .timTstate = 2 ∧ s.dpllFollows = true then .next (s.timTo 1).showQl else .next s

/-- HISTORY_SECOND (R451): the average of a locked second is kept, up to 30 of them; the second in which the reference
failed is not. -/
def execHistorySecond (avg : BitVec 64) (s : State) : Host.Outcome State Fault Refusal :=
  if s.rd .timTstate ≠ 2 ∨ s.on .timHold = true then .next s
  else if s.on .timSecVoid then .next (s.wrP .timSecVoid 0)
  else .next { s.wrP .timHistS (min 30 (s.rd .timHistS + 1)) with hist := (avg.toInt :: s.hist).take 30 }

/-- TIM_PSTEP (R453): the pending phase step, saturating. -/
def execTimPstep (v : BitVec 32) (s : State) : Host.Outcome State Fault Refusal :=
  .next (s.writeReg .m0 .timPstep 0 fun s =>
    let p := clampInt 32 (toInt 32 (s.rd .timPstepPending) + v.toInt)
    s.wrs .m0 0 [(.timPstepPending, ofInt 32 p), (.timStepBusy, b2n (p != 0))])

/-- PHASE_STEP_DONE (R453). -/
def execPhaseStepDone (s : State) : Host.Outcome State Fault Refusal :=
  .next (s.wrs .m0 0 [(.timPstepPending, 0), (.timStepBusy, 0)])

/-- pps_valid of a pulse input. -/
def ppsValid (p : Nat) : Fld := if p = 0 then .timPps0Valid else .timPps1Valid

/-- The outputs that follow the internal second have a new position (R460, R462). -/
def State.ppsShift (s : State) : State := (s.wr .ppsMoved .m0 0 1).wr .ppsMoved .m0 1 1

/-- PPS_IN_EDGE (R456 to R458): `spaced` says that the edge lies 1 s ± 1 µs after the input's previous edge, `onTime` that
it lies in the window of a valid input. -/
def execPpsInEdge (p : Fin 2) (spaced onTime : Bool) (s : State) : Host.Outcome State Fault Refusal :=
  let v := ppsValid p
  let chosen := s.rd .timPpsSel == p.val
  if !s.on v then
    let run := if spaced then s.rd .ppsRunIn .m0 p + 1 else 1
    if 3 ≤ run then
      let s := ((s.wrs .m0 p [(.ppsRunIn, 0), (.ppsAgree, 0)]).wrP v 1).raiseField v .m0
      .next (if chosen then s.ppsShift else s)
    else .next (s.wr .ppsRunIn .m0 p run)
  else if onTime then .next (s.wr .ppsAgree .m0 p 0)
  else
    let run := if spaced && s.rd .ppsAgree .m0 p != 0 then s.rd .ppsAgree .m0 p + 1 else 1
    if run < 3 then .next (s.wr .ppsAgree .m0 p run)
    else
      let s := s.wr .ppsAgree .m0 p 0
      .next (if chosen then ((s.inc .timPpsJumps .m0).raise Reason.ppsJump (blkId .m0 Dom.timing)).ppsShift else s)

/-- PPS_IN_MISSING (R457). -/
def execPpsInMissing (p : Fin 2) (s : State) : Host.Outcome State Fault Refusal :=
  let v := ppsValid p
  if s.on v then .next (((s.wrs .m0 p [(.ppsRunIn, 0), (.ppsAgree, 0)]).wrP v 0).raiseField v .m0) else .next s

/-- A clock output may run at a frequency (R464). -/
def clkInRange (hz : Nat) : Bool := decide (1000 ≤ hz) && decide (hz ≤ 800000000)

/-- INTERNAL_SECOND (R439, R459, R464): the tally is latched, waits count down, clock outputs take their frequencies. -/
def execInternalSecond (s : State) : Host.Outcome State Fault Refusal :=
  let s := (s.wrP .ppsTallyLive s.tally).wrP .timPpsTallyOff s.sfOff
  let s := (List.range 14).foldl (fun s c =>
    if s.on .candWtrRunning .m0 c then s.wr .candWtrLeftS .m0 c (max 1 (s.rd .candWtrLeftS .m0 c - 1)) else s) s
  .next ((List.range 4).foldl (fun s c =>
    s.wrs .m0 c [(.clkUse, if clkInRange (s.rd .clkFreqHz .m0 c) then s.rd .clkFreqHz .m0 c else 0), (.clkRealigning, 0)]) s)

/-- PPS_REALIGN (R461, R468): PPS_OUT2 and PPS_OUT3 only. -/
def execPpsRealign (p : Fin 4) (s : State) : Host.Outcome State Fault Refusal :=
  .next (s.writeReg .m0 .ppsRealign p fun s =>
    if p.val < 2 then s else s.wrs .m0 p [(.ppsUse, s.rd .ppsOffset .m0 p), (.ppsMoved, 1)])

/-- CLK_REALIGN (R464): at the next internal second. -/
def execClkRealign (c : Fin 4) (s : State) : Host.Outcome State Fault Refusal :=
  .next (s.writeReg .m0 .clkRealign c fun s => s.wr .clkRealigning .m0 c 1)

/-- A client selector written (R470): its candidate is inactive for the moment and is judged afresh, unqualified; no level of the
new lane has been received yet (R435). -/
def State.cselWrite (s : State) (n lane : Nat) (en : Bool) : State :=
  if s.rd .cselLane .m0 n = lane ∧ s.on .cselSelEn .m0 n = en then s else
  let s := s.wrs .m0 n [(.cselLane, lane), (.cselSelEn, b2n en)]
  let c := 10 + n
  let s := s.wrs .m0 c [(.candRxQl, 0xF), (.candQlTimeout, 0), (.candQlRun, 0)]
  let s := if s.on .candActive .m0 c then s.candDown c else s
  if s.candMayBe c then s.candUp c else s

/-- CLK_SEL_WRITE (R470). -/
def execClkSelWrite (n : Fin 4) (lane : BitVec 6) (en : Bool) (s : State) : Host.Outcome State Fault Refusal :=
  .next (s.writeReg .m0 .cselLane n fun s => s.cselWrite n lane.toNat en)

/-- PPS_TALLY_READ (R459, R467, R655). -/
def execPpsTallyRead (s : State) : Host.Outcome State Fault Refusal :=
  .next (s.readReg .m0 .timPpsTallyOff 0 fun s =>
    (s.wr48 .timPpsTallySfLo .timPpsTallySfHi .m0 0 (s.rd .ppsTallyLive / sfLen), s.rd .timPpsTallyOff))

/-- A pulse output may pulse (R463): enabled, and not squelched while unlocked. -/
def State.ppsOpen (s : State) (p : Nat) : Bool :=
  s.on .ppsEn .m0 p && (!s.on .ppsSquelchUnlocked .m0 p ||
    (s.rd .timTstate == 2 && (decide (2 ≤ p) || s.on (ppsValid (s.rd .timPpsSel)))))

/-- PPS_OUT_PULSE (R460 to R463): the output reaches its position; after a move the first pulse keeps 500 ms from the last
one. -/
def execPpsOutPulse (p : Fin 4) (s : State) : Host.Outcome State Fault Refusal :=
  if !s.ppsOpen p then .next s
  else if s.on .ppsMoved .m0 p && s.on .ppsEver .m0 p && decide (s.tally < s.rd .ppsLast .m0 p + s.rq * 125000000) then .next s
  else .next (s.wrs .m0 p [(.ppsLast, s.tally), (.ppsEver, 1), (.ppsMoved, 0), (.ppsPulse, s.rd .ppsWidth .m0 p)])

/-- A clock output runs (R464). -/
def State.clkRuns (s : State) (c : Nat) : Bool :=
  s.on .clkEn .m0 c && s.rd .clkUse .m0 c != 0 &&
    (match s.rd .clkSquelch .m0 c with
      | 0 => true
      | 1 => s.rd .timTstate != 0
      | _ => s.rd .timTstate == 2)

/-- What writes to M0's timing registers bring about at once (R441, R454, R462, R464): `old` is the state before. -/
def State.timWritten (s old : State) : State :=
  let s := if s.rd .timPpsSel ≠ old.rd .timPpsSel ∧ s.on (ppsValid (s.rd .timPpsSel)) = true then s.ppsShift else s
  let s := (List.range 2).foldl (fun s p =>
    if s.rd .ppsOffset .m0 p ≠ old.rd .ppsOffset .m0 p then
      s.wrs .m0 p [(.ppsUse, s.rd .ppsOffset .m0 p), (.ppsMoved, 1)] else s) s
  let s := (List.range 4).foldl (fun s c =>
    if s.rd .clkFreqHz .m0 c ≠ old.rd .clkFreqHz .m0 c ∧ clkInRange (s.rd .clkFreqHz .m0 c) = false then
      (s.wr .clkUse .m0 c 0).raiseField .clkFreqHz .m0 c else s) s
  s.timUpdate

end Sys2Proof.Machine
end

