-- ==== Sys2Proof/Machine/Lanes.lean ====
section
/-! DEFINITION. Client lanes, test patterns, and the crosscut link with its protection (R366 to R392). -/

namespace Sys2Proof.Machine

/-- The block of a lane: its client domain (R360). -/
def laneBlk (d : Die) (l : Nat) : Nat := blkId d (laneDom l) l

/-- The port failure event, naming the port by its status register (R363). -/
def State.portEvent (s : State) (d : Die) (l : Nat) : State := s.raiseField .portAlignLock d l

/-- The greatest rate offset to which a lane's clock recovery locks, in 0.1 ppm (R366). -/
def State.cdrRange (s : State) (d : Die) (l : Nat) : Nat :=
  if (s.portOf d l).any fun f => s.rd .portMode d f == 2 then 200 else 1000

/-- CDR_LOCK_CHANGE (R363, R366, R369): `ppm` is the offset of the received data from the lane's rate, in 0.1 ppm, signed; no lock
is found beyond the loop's range. A loss in TRAINED trains again, and fails an Ethernet or FlexO port. -/
def execCdrLockChange (m : Fin 2) (l : Fin 24) (locked : Bool) (ppm : BitVec 16) (s : State) : Host.Outcome State Fault Refusal :=
  let d := millAt m
  if !s.laneRuns d l || s.on .laneCdrLock d l == locked || (locked && decide (s.cdrRange d l < ppm.toInt.natAbs)) then .next s else
  let s := (s.wr .laneCdrLock d l (b2n locked)).raiseField .laneCdrLock d l
  if locked then .next s
  else
    let s := if s.rd .laneTrainState d l = 2 then s.wr .laneTrainState d l 1 else s
    match s.portOf d l with
    | some f => .next (if s.rd .portMode d f = 3 then s else (s.portEvent d f).pmWatch)
    | none => .next s

/-- LANE_TRAINED (R369). -/
def execLaneTrained (m : Fin 2) (l : Fin 24) (s : State) : Host.Outcome State Fault Refusal :=
  let d := millAt m
  if s.rd .laneTrainState d l = 1 then .next (s.wr .laneTrainState d l 2) else .next s

/-- LANE_TRAIN_FAIL (R369). -/
def execLaneTrainFail (m : Fin 2) (l : Fin 24) (s : State) : Host.Outcome State Fault Refusal :=
  let d := millAt m
  if s.rd .laneTrainState d l = 1 then
    .next (((s.wr .laneTrainState d l 3).inc .laneTrainFailures d l).raise Reason.laneTrainFail (laneBlk d l))
  else .next s

/-- LANE_RETRAIN (R369). -/
def execLaneRetrain (m : Fin 2) (l : Fin 24) (s : State) : Host.Outcome State Fault Refusal :=
  let d := millAt m
  if s.rd .laneTrainState d l = 3 then .next (s.wr .laneTrainState d l 1) else .next s

/-- LANE_TRAIN_REQUEST (R368): a request on one coefficient, 0 hold, 1 increment, 2 decrement; `beyond` says that it would
leave the range of the lane's rate class. -/
def execLaneTrainRequest (m : Fin 2) (l : Fin 24) (coef : Fin 5) (req : Fin 3) (beyond : Bool) (s : State) :
    Host.Outcome State Fault Refusal :=
  let d := millAt m
  let i := l.val * 8 + coef
  if s.rd .laneTrainState d l ≠ 1 then .next s
  else if req = 0 then .next (s.wr .laneCoefSts d i 0)
  else if beyond then .next (s.wr .laneCoefSts d i (if req = 1 then 2 else 3))
  else .next (s.wrs d i [(.laneCoef, s.rd .laneCoef d i + (if req = 1 then 1 else 255)), (.laneCoefSts, 1)])

/-- A lane's checker runs (R370, R371). -/
def State.chkOn (s : State) (d : Die) (l : Nat) : Bool := s.on .laneChkEn d l && s.rd .laneChkPat d l != 7

/-- What the checker has counted since the last command (R371). -/
def State.prbsCount (s : State) (d : Die) (l errs nbits : Nat) : State :=
  if s.on .laneChkLock d l then (s.inc .prbsErrs d l errs).inc .prbsBits d l nbits else s

/-- PRBS_LOCK (R371). -/
def execPrbsLock (m : Fin 2) (l : Fin 24) (s : State) : Host.Outcome State Fault Refusal :=
  let d := millAt m
  if s.laneRuns d l && s.chkOn d l then .next (s.wr .laneChkLock d l 1) else .next s

/-- PRBS_LOCK_LOST (R371): `errs` and `nbits` counted since the last command. -/
def execPrbsLockLost (m : Fin 2) (l : Fin 24) (errs nbits : BitVec 48) (s : State) : Host.Outcome State Fault Refusal :=
  let d := millAt m
  if s.on .laneChkLock d l then
    .next ((s.prbsCount d l errs.toNat nbits.toNat).wrs d l [(.laneChkLock, 0), (.laneChkLost, 1)])
  else .next s

/-- PRBS_ERR_READ (R371, R389, R655): the read latches the four count registers. -/
def execPrbsErrRead (m : Fin 2) (l : Fin 24) (errs nbits : BitVec 48) (s : State) : Host.Outcome State Fault Refusal :=
  let d := millAt m
  let s := s.prbsCount d l errs.toNat nbits.toNat
  .next (s.readReg d .lanePrbsErrLo l fun s =>
    ((s.wr48 .lanePrbsErrLo .lanePrbsErrHi d l (s.rd .prbsErrs d l)).wr48 .lanePrbsBitsLo .lanePrbsBitsHi d l
      (s.rd .prbsBits d l), s.rd .prbsErrs d l % 2 ^ 32))

/-- A write of inj_single or inj_burst: discarded with an event while one runs (R372). -/
def State.inject (s : State) (d : Die) (f : Fld) (l n : Nat) : State :=
  s.writeReg d f l fun s =>
    if s.on .laneInjBusy d l then s.raiseField f d l else s.wrs d l [(.laneInjBusy, 1), (.injLeft, n)]

/-- INJ_SINGLE (R372). -/
def execInjSingle (m : Fin 2) (l : Fin 24) (s : State) : Host.Outcome State Fault Refusal :=
  .next (s.inject (millAt m) .laneInjSingle l 1)

/-- INJ_BURST (R372): burst_len bits, 0 taken as 1. -/
def execInjBurst (m : Fin 2) (l : Fin 24) (s : State) : Host.Outcome State Fault Refusal :=
  .next (s.inject (millAt m) .laneInjBurst l (max 1 (s.rd .laneBurstLen (millAt m) l)))

/-- INJ_DONE (R372). -/
def execInjDone (m : Fin 2) (l : Fin 24) (s : State) : Host.Outcome State Fault Refusal :=
  .next (s.wrs (millAt m) l [(.laneInjBusy, 0), (.injLeft, 0)])

/-- ALIGN_LOCK_CHANGE (R363, R364, R371): `corrected` and `uncorrectable` codewords of the port since the last command. A port one
of whose lanes a checker takes is not fed, and does not align. -/
def execAlignLockChange (m : Fin 2) (l : Fin 24) (locked : Bool) (corrected uncorrectable : Nat) (s : State) :
    Host.Outcome State Fault Refusal :=
  let d := millAt m
  let fed := (List.range (s.portWidth d l)).all fun k => !s.on .laneChkEn d (l + k)
  if (s.rd .portMode d l ≠ 1 ∧ s.rd .portMode d l ≠ 2) ∨ s.laneRuns d l = false ∨ (locked = true ∧ fed = false) then .next s else
  let s := s.codewords d l corrected uncorrectable
  if s.on .portAlignLock d l = locked then .next s else
  let s := s.wr .portAlignLock d l (b2n locked)
  .next (if locked then s else (s.portEvent d l).pmWatch)

/-- The link comes UP when every lane is in lock and deskewed and a STATUS block has come from the expected partner, and stays so
until a lane loses lock (R377); a change raises XC_LINK, and UP clears partner_lost (R386). -/
def State.linkEval (s : State) (d : Die) : State :=
  let ls := s.linkLanes d
  let up := !ls.isEmpty && (ls.all fun l => s.on .laneBlockLock d l) &&
    (s.on .xcLinkUp d || ((ls.all fun l => s.on .laneDeskewed d l) && s.on .xcStatusOk d))
  if s.on .xcLinkUp d = up then s else
  let s := (s.wr .xcLinkUp d 0 (b2n up)).raise Reason.xcLink (blkId d Dom.otn)
  if up then (List.range 32).foldl (fun s p => s.wr .xcSofSeen d p 0) (s.wr .xcPartnerLost d 0 0)
  else (s.inc .xcLinkDowns d).wr .xcStatusOk d 0 0

/-- BLOCK_LOCK (R371, R376): a lane of the link whose checker is off. -/
def execBlockLock (m : Fin 2) (l : Fin 24) (s : State) : Host.Outcome State Fault Refusal :=
  let d := millAt m
  if s.laneRuns d l && s.onLink d l && !s.on .laneChkEn d l then .next ((s.wr .laneBlockLock d l 1).linkEval d) else .next s

/-- BLOCK_LOCK_LOST (R376, R377). -/
def execBlockLockLost (m : Fin 2) (l : Fin 24) (s : State) : Host.Outcome State Fault Refusal :=
  let d := millAt m
  if !s.on .laneBlockLock d l then .next s else
  let s := ((s.wrs d l [(.laneBlockLock, 0), (.laneDeskewed, 0)]).inc .laneLockLosses d l).linkEval d
  .next (if (s.linkLanes d).any fun k => s.on .laneBlockLock d k then s
    else (s.wr .xcOutAt d 0 s.tally).wr .xcStatusOk d 0 0)

/-- ALIGN_BLOCK (R377): deskew reaches 128 blocks a lane. -/
def execAlignBlock (m : Fin 2) (l : Fin 24) (pos : Byte) (skew : Nat) (s : State) : Host.Outcome State Fault Refusal :=
  let d := millAt m
  if s.on .laneBlockLock d l then
    .next ((s.wrs d l [(.lanePos, pos.toNat), (.laneDeskewed, b2n (decide (skew ≤ 128)))]).linkEval d)
  else .next s

/-- Some lane of the link is in block lock, so blocks can arrive. -/
def State.linkHears (s : State) (d : Die) : Bool := (s.linkLanes d).any fun l => s.on .laneBlockLock d l

/-- The client selectors that name a lane of the die's crosscut link (R367, R432). -/
def State.linkSelectors (s : State) (d : Die) : List Nat :=
  (List.range 4).filter fun n => s.on .cselSelEn .m0 n &&
    millAt (s.rd .cselLane .m0 n / 24) == d && s.onLink d (s.rd .cselLane .m0 n % 24)

/-- STATUS_BLOCK (R377, R379, R435). -/
def execStatusBlock (m : Fin 2) (id : BitVec 12) (ql : BitVec 4) (tstate : BitVec 3) (s : State) :
    Host.Outcome State Fault Refusal :=
  let d := millAt m
  if !s.linkHears d then .next s else
  let s := s.wrs d 0 [(.xcPartnerTstate, tstate.toNat), (.xcPartnerQl, ql.toNat), (.xcPartnerIdSeen, id.toNat)]
  let s := if id.toNat = s.rd .xcPartnerId d then s.wr .xcStatusOk d 0 1 else s
  .next ((s.linkSelectors d).foldl (fun s n => (s.wr .candRxQl .m0 (10 + n) ql.toNat).timUpdate) (s.linkEval d))

/-- TIME_BLOCK (R379): the package tally at arrival less the carried count, in SF. -/
def execTimeBlock (m : Fin 2) (_ : BitVec 12) (count : BitVec 48) (_ : BitVec 3) (s : State) :
    Host.Outcome State Fault Refusal :=
  let d := millAt m
  if s.linkHears d then .next (s.wr48 .xcToffLo .xcToffHi d 0 (ofInt 48 ((s.sf : Int) - count.toNat))) else .next s

/-- COORD_BLOCK (R383, R384): `owner`, `take` and `leg` are byte 2. An agreement keeps this end's role, the other being the
opposite one, and both on_loss values. Two owners: the one whose role is its on-shift role yields. -/
def execCoordBlock (m : Fin 2) (p : Fin 32) (owner take _leg : Bool) (seq ack : BitVec 16) (s : State) :
    Host.Outcome State Fault Refusal :=
  let d := millAt m
  if !(s.linkHears d && s.on .pairEn d p) then .next s else
  let s := s.wr .pairRxSeq d p seq.toNat
  let mine := s.on .pairRoleActive d p
  if mine != owner then
    if ack.toNat = s.rd .pairSeq d p then
      .next (s.wrs d p [(.pairAgreed, 1), (.pairAgRole, b2n mine), (.pairAgLoss, s.rd .pairOnLoss d p), (.pairAgFarLoss, b2n take)])
    else .next (s.wr .pairAgreed d p 0)
  else
    let s := (s.wr .pairAgreed d p 0).raise Reason.xcRoleConflict (blkId d Dom.otn p)
    .next (if mine && !s.on .pairTaken d p then s.pairRole d p 0 true else s)

/-- BAD_CTRL (R378). -/
def execBadCtrl (m : Fin 2) (s : State) : Host.Outcome State Fault Refusal :=
  .next (if s.linkHears (millAt m) then s.inc .xcBadCtrl (millAt m) else s)

/-- The overhead bytes of an ODU frame of four rows of 3,824 columns, in the order of R348. -/
def oduOverhead (frame : List Byte) : List Byte :=
  let at_ (row : Nat) (cols : List Nat) : List Byte := cols.map fun c => frame.getD (row * 3824 + c) 0
  ([1, 2, 3].flatMap fun r => at_ r (List.range 14)) ++ at_ 0 [14, 15] ++ [1, 2, 3].flatMap fun r => at_ r [14, 15]

/-- XC_DATA_BLOCK (R380): 15 bytes of the frame on a pair's channel; sof begins a frame of 15,296 bytes, of which 1,020 blocks
come. The overhead of the last whole frame is kept, for a STANDBY end sends it on its line (R382). -/
def execXcDataBlock (m : Fin 2) (p : Fin 32) (sof : Bool) (bytes : List Byte) (s : State) : Host.Outcome State Fault Refusal :=
  let d := millAt m
  if !s.on .xcLinkUp d then .next s else
  let k := d.code * 32 + p
  let old := if sof then [] else (Cells.find k s.xcBuf).getD []
  let s : State := if sof then s.wrs d p [(.xcSofAt, s.tally), (.xcSofSeen, 1)] else s
  if !s.on .xcSofSeen d p then .next s else
  let new := (old ++ bytes.take 15).take 15296
  let buf := Cells.put k new s.xcBuf
  .next { s with xcBuf := if old.length < 15296 ∧ new.length = 15296 then Cells.put (65536 + k) (oduOverhead new) buf else buf }

/-- A control block sent on a die's link, by its type and pair: the last one of each is kept. -/
def State.sendBlock (s : State) (d : Die) (kind p : Nat) (body : List Nat) : State :=
  let bytes : List Byte := (kind :: body).map (BitVec.ofNat 8) ++ List.replicate (15 - body.length) 0
  { s with xcSent := Cells.put ((d.code * 256 + kind) * 32 + p) bytes s.xcSent }

/-- The source of the selected candidate, of which a switch in progress leaves one (R446, R454): DNU goes to it. -/
def State.sourceLane (s : State) (d : Die) : Bool :=
  (s.linkSelectors d).any fun n => s.rd .timSelCand == 10 + n || s.rd .timOld == 10 + n

/-- Some lane of the die's link drives its signal, so that blocks leave (R365). -/
def State.linkSends (s : State) (d : Die) : Bool := (s.linkLanes d).any fun l => s.laneDriven d l

/-- XC_TIME_SEND (R379): at own SF boundaries whose count is a multiple of 16. -/
def execXcTimeSend (m : Fin 2) (s : State) : Host.Outcome State Fault Refusal :=
  let d := millAt m
  let id := s.rd .chipPkgId
  if s.linkSends d = false ∨ s.sf % 16 ≠ 0 then .next s
  else .next (s.sendBlock d 0x66 0 ([id / 256, id % 256] ++ (leBytes 6 s.sf).reverse.map BitVec.toNat ++ [s.rd .timTstate]))

/-- XC_STATUS_SEND (R378, R379, R454). -/
def execXcStatusSend (m : Fin 2) (s : State) : Host.Outcome State Fault Refusal :=
  let d := millAt m
  let id := s.rd .chipPkgId
  let ql := if s.sourceLane d then 0xF else s.rd .timOutQl
  if s.linkSends d = false then .next s
  else .next (s.sendBlock d 0x78 0 [id / 256, id % 256, ql + 16 * s.rd .timTstate])

/-- XC_COORD_SEND (R383). -/
def execXcCoordSend (m : Fin 2) (p : Fin 32) (s : State) : Host.Outcome State Fault Refusal :=
  let d := millAt m
  let b2 := s.rd .pairRoleActive d p + 2 * s.rd .pairOnLoss d p + 4 * s.rd .pairSelLeg d p
  let seq := s.rd .pairSeq d p
  let ack := s.rd .pairRxSeq d p
  if s.linkSends d = true ∧ s.on .pairEn d p = true then
    .next (s.sendBlock d 0x4B p [p, b2, seq / 256, seq % 256, ack / 256, ack % 256])
  else .next s

/-- What one pair does when the partner is lost (R387). -/
def State.pairLost (s : State) (d : Die) (p : Nat) : State :=
  if s.on .pairAgreed d p && !s.on .pairAgRole d p && s.on .pairAgLoss d p then
    (((s.wr .pairSelLeg d p 0).pairRole d p 1 true).wr .pairTookOver d p 1).raise Reason.xcTakeover (blkId d Dom.otn p)
  else if s.on .pairRoleActive d p then s.pairSwitch d p 0
  else s

/-- XC_PARTNER_LOST (R386, R387): every lane of the link has been out of block lock for xc_lost_us µs. -/
def execXcPartnerLost (m : Fin 2) (s : State) : Host.Outcome State Fault Refusal :=
  let d := millAt m
  let wait := max 1 (s.rd .xcLostUs d) * s.rq * 250
  if (s.linkLanes d).isEmpty || s.linkHears d || s.on .xcPartnerLost d || decide (s.tally < s.rd .xcOutAt d + wait) then .next s
  else
    let s := (s.wr .xcPartnerLost d 0 1).raise Reason.xcPartnerLost (blkId d Dom.otn)
    .next (((List.range 32).filter fun p => s.on .pairEn d p).foldl (fun s p => s.pairLost d p) s)

end Sys2Proof.Machine
end

