-- ==== Sys2Proof/Machine/Line.lean ====
section
/-! DEFINITION. How a carrier's payload bits lie on its symbols: the payload stream of an SF, its line frames and the content
slots of an epoch (R209, R210, R240, R243, R256, R282 to R285), reckoned from class, h, code, M and the SF count at both ends. -/

namespace Sys2Proof.Machine

/-- Payload and overhead symbols of an SF (R214). -/
abbrev sfSyms : Nat := 1031940

/-- The first payload and overhead symbol of line frame `l` of an SF: each 64 symbols after the training block hold 63 (R214,
R282). -/
def lfFirst (l : Nat) : Nat := 63 * (256 * l - 4)

/-- The carrier symbol of payload and overhead symbol g of an SF, for N subcarriers (R214). -/
def carrierSym (n g : Nat) : Nat :=
  let q := g / 63
  256 + 64 * q + (if g % 63 < q % n then g % 63 else g % 63 + 1)

/-- The line frame of a payload and overhead symbol. -/
def lfOfSym (g : Nat) : Nat := lastWith (fun l => decide (lfFirst l ≤ g)) 64

/-- A shaping block begins at symbol g of an SF of residue `s` modulo 64: a block holds the amplitudes of 256 symbols, and 1,031,940
leaves 4 modulo 256 (R209, R210). -/
def blockStarts (s g : Nat) : Bool := (4 * (s % 64) + g) % 256 == 0

/-- Shaping blocks of a polarisation that begin before symbol g of the SF (R210). -/
def blocksBefore (s g : Nat) : Nat := ceilDiv (4 * (s % 64) + g) 256 - ceilDiv (4 * (s % 64)) 256

/-- Check slots in use among the first `i` sign positions of the SF (R243, R244). -/
def checksBefore (cls code s i : Nat) : Nat :=
  let b := 252 * (s % phasePeriod cls code)
  let j := i / 16380
  floorQ cls code (b + j) - floorQ cls code b + min (checkBits cls code s j) (ceilDiv (i % 16380 * ceilQ cls code) 16380)

/-- Payload stream bits that an SF consumes before its symbol g (R256), for its residues modulo 64 and modulo D: both polarisations'
shaping blocks at their first amplitude, and a bit for each payload sign position. -/
def streamBitsAt (r : LineRate) (shape phase g : Nat) : Nat :=
  2 * (r.h - 512) * blocksBefore shape g + 4 * g - checksBefore r.cls r.code phase (4 * g)

/-- Payload stream bits that SF s consumes before its symbol g (R256). -/
def streamBits (r : LineRate) (s g : Nat) : Nat := streamBitsAt r s s g

/-- The length of line frame `l` of an SF in payload stream bits, for the SF's residues modulo 64 and modulo D (R282). -/
def lfLength (r : LineRate) (shape phase l : Nat) : Nat :=
  streamBitsAt r shape phase (lfFirst (l + 1)) - streamBitsAt r shape phase (lfFirst l)

/-- The line frame that holds stream bit x of an SF, and the bit's offset in it (R282). -/
def lfOfBit (r : LineRate) (s x : Nat) : Nat × Nat :=
  let l := lastWith (fun l => decide (streamBits r s (lfFirst l) ≤ x)) 64
  (l, x - streamBits r s (lfFirst l))

/-- Payload-area bits of an SF (R283). -/
def areaBits (r : LineRate) (s : Nat) : Nat := streamBits r s sfSyms - 768

/-- Payload-area bits of an SF before its symbol g (R283). -/
def areaBefore (r : LineRate) (s g : Nat) : Nat :=
  streamBits r s g - ((List.range 64).map fun l =>
    min 12 (streamBits r s (min g (lfFirst (l + 1))) - streamBits r s (min g (lfFirst l)))).sum

/-- Payload-area bits of an epoch, P_E (R285). -/
def epochSlots (r : LineRate) (s : Nat) : Nat := ((List.range 64).map fun i => areaBits r (s - s % 64 + i)).sum

/-- Payload-area bits of an epoch before SF s (R285). -/
def slotsBefore (r : LineRate) (s : Nat) : Nat := ((List.range (s % 64)).map fun i => areaBits r (s - s % 64 + i)).sum

/-- Content bits of an epoch before payload-area bit i (R285): slot i carries one where this count grows. -/
def contentBefore (r : LineRate) (rq s i : Nat) : Nat := i * epochContent (slicesOf r.m) r.m rq / max 1 (epochSlots r s)

/-- Content bits that the symbols from `a` up to `b` of SF s carry (R285). -/
def contentIn (r : LineRate) (rq s a b : Nat) : Nat :=
  contentBefore r rq s (slotsBefore r s + areaBefore r s b) - contentBefore r rq s (slotsBefore r s + areaBefore r s a)

/-- Payload word `w` (0 to 951) of a frame lies in an available tributary slot of slice i: the slots take the words of 20 frames in
turn (R221, R319, R323; assumption 66). -/
def wordAvail (m omfi i w : Nat) : Bool := decide (20 * i + (omfi * 952 + w) % 20 < m)

/-- Content bits of an OTUCn-M frame of M slots: every slice's first word of each row less the alignment overhead, and the payload
words of available slots (R284, R323). -/
def frameContent (m omfi : Nat) : Nat :=
  456 * slicesOf m + 128 * ((List.range (slicesOf m)).map fun i =>
    ((List.range 952).filter (wordAvail m omfi i)).length).sum

/-- The bits of a byte, most significant first. -/
def byteBits (b : Byte) : List Nat := msbBits 8 b.toNat

/-- The content bits of an OTUCn-M frame from the frames of its slices: 16-byte words in turn in slice order, row by row, the words
of unavailable slots and the first 7 bytes of each slice left out (R284, R323). -/
def frameBits (m omfi : Nat) (slices : List (List Byte)) : List Nat :=
  (List.range (4 * 239)).flatMap fun w =>
    (slices.take (slicesOf m)).zipIdx.flatMap fun e =>
      let bytes := (e.1.drop (16 * w)).take 16
      if w % 239 = 0 then (if w = 0 then bytes.drop 7 else bytes).flatMap byteBits
      else if wordAvail m omfi e.2 (w / 239 * 238 + w % 239 - 1) then bytes.flatMap byteBits else []

/-- A frame's place in the multiframe of 20 and its MFAS, as its first slice carries them (R307, R323; assumption 66). -/
def frameTags (slices : List (List Byte)) : Nat × Nat :=
  let b := slices.headD []
  ((b.getD (3 * 3824 + 15) 0).toNat % 20, (b.getD 6 0).toNat)

/-- Where the OTUCn-M frames stand after `k` more content bits: bits sent of the frame in progress, its place in the multiframe, its
MFAS. -/
def walkFrames (m : Nat) : Nat → Nat → Nat × Nat × Nat → Nat × Nat × Nat
  | 0, _, p => p
  | fuel + 1, k, (a, o, f) =>
    if frameContent m o ≤ a + k then walkFrames m fuel (a + k - frameContent m o) (0, (o + 1) % 20, (f + 1) % 256)
    else (a + k, o, f)

end Sys2Proof.Machine
end

