-- ==== Sys2Proof/Machine/Fixed.lean ====
section
/-! DEFINITION. Logarithm, exponential and root in fixed point, for the rules that state a real number (R162, R187, R219,
R272). The precision is the model's (assumption 64). -/

namespace Sys2Proof.Machine

/-- `k` more binary places of log2 of x / 2^32, for x from 2^32 up to 2^33. -/
def logFrac : Nat → Nat → Nat
  | 0, _ => 0
  | k + 1, x =>
    let y := x * x / 2 ^ 32
    if 2 ^ 33 ≤ y then 2 ^ k + logFrac k (y / 2) else logFrac k y

/-- ln n in 1/65,536, for n at least 1. -/
def lnFix (n : Nat) : Nat :=
  let e := Nat.log2 n
  (e * 65536 + logFrac 16 (n * 2 ^ 32 / 2 ^ e)) * 45426 / 65536

/-- A number in 1/2^32 squared `k` times over. -/
def squared : Nat → Nat → Nat
  | 0, x => x
  | k + 1, x => squared k (x * x / 2 ^ 32)

/-- e^(−x) in 1/2^32, for x in 1/2^32: the series of x / 2^16 to its square, then 16 squarings. -/
def expNeg (x : Nat) : Nat :=
  let y := x / 2 ^ 16
  squared 16 (2 ^ 32 - y + y * y / 2 ^ 33)

/-- e^x in 1/2^32, for a signed x in 1/2^32. -/
def expFix (x : Int) : Nat := if x ≤ 0 then expNeg x.natAbs else 2 ^ 64 / max 1 (expNeg x.natAbs)

/-- A ratio in 0.01 dB: 1000 log10 (num / den), 434.294 ln. -/
def centiBel (num den : Nat) : Int := ((lnFix (max 1 num) : Int) - lnFix (max 1 den)) * 434294 / (1000 * 65536)

/-- The ratio, in 1/2^32, of a level in 0.01 dB: ln 10 / 1000 is 9,889,528 / 2^32. -/
def ofCentiBel (x : Int) : Nat := expFix (x * 9889528)

/-- The continued fraction q + 1/(q + 2/(q + 3/(…))) to 40 places, in 1/2^32, for q in 1/2^32. -/
def millsFrac (q : Nat) : Nat := (List.range 40).foldr (fun k c => q + (k + 1) * 2 ^ 64 / max 1 c) q

/-- −ln of the tail of the normal distribution beyond Q, in 1/65,536, for Q of q in 0.01 dB: Q²/2 + ln √(2π) + ln of the continued
fraction. -/
def tailLog (q : Int) : Int :=
  (ofCentiBel q : Int) / 2 ^ 17 + 60224 + lnFix (max 1 (millsFrac (expFix (q * 4944764)))) - lnFix (2 ^ 32)

/-- The greatest q in 0.01 dB with a tail of at least `num` / `den`, from −1 dB on, searched by halves (R593). -/
def qSearch (num den : Nat) : Nat → Int → Int
  | 0, q => q
  | k + 1, q =>
    let t := q + (2 ^ k : Nat)
    if tailLog t ≤ (lnFix (max 1 den) : Int) - lnFix (max 1 num) then qSearch num den k t else qSearch num den k q

/-- The greatest p below 2^24 with (1 − 2p/2^24)^a at least `num` / `den`, searched by halves: `k` places of p are still to be
found, `p` holds those found. -/
def rootSearch (a num den : Nat) : Nat → Nat → Nat
  | 0, p => p
  | k + 1, p =>
    let q := p + 2 ^ k
    if num * 2 ^ (24 * a) ≤ (2 ^ 24 - 2 * q) ^ a * den then rootSearch a num den k q else rootSearch a num den k p

end Sys2Proof.Machine
end

