-- ==== Sys2Proof/Machine/Nonlinear.lean ====
section
/-! DEFINITION. Nonlinear compensation (R159 to R163): where the active steps lie, what each compensates and how far it turns
the phase. -/

namespace Sys2Proof.Machine

/-- The pieces of fibre that `s` steps cover on `S` spans, from the receiver end, each as the spans or the part of one span it
covers: a numerator and a divisor (R160). -/
def stepPieces (S s : Nat) : List (Nat × Nat) :=
  if s ≤ S then (List.range s).map fun j => ((j + 1) * S / s - j * S / s, 1)
  else (List.range S).flatMap fun i =>
    let c := (i + 1) * s / S - i * s / S
    (List.range c).map fun _ => (1, c)

/-- The effective length, in 2^-32 km, of a piece: whole spans each of `len` (0.25 km), or one part in `den` of a span, at a loss of
`att` (0.001 dB/km), whose α per km is `att` × 988,952 / 2^32 (R162). -/
def effLength (att len num den : Nat) : Nat :=
  let x := att * len * 247238 / den
  num * (if att = 0 then len * 2 ^ 32 / (4 * den) else (2 ^ 32 - expNeg x) * 2 ^ 32 / (att * 988952))

/-- The launch power in 2^-32 W from 0.05 dBm: ln 10 / 200 is 49,446,660 / 2^32 (R162). -/
def launchWatts (p : Int) : Nat := expFix (p * 49446660) / 1000

/-- One step: its share of the dispersion, in 0.005 ns/nm / 65,536, and the magnitude of its rotation at mean power, in 2^-32
rad: ξ γ L_eff P 8/9 (R161, R162). -/
def nlcStep (S len att gamma xi : Nat) (pwr cd : Int) (q : Nat × Nat) : NlcStep :=
  ⟨q.1, q.2, -cd * 65536 * q.1 / (q.2 * S : Nat), xi * gamma * effLength att len q.1 q.2 * launchWatts pwr * 8 / (32 * 100 * 9 * 2 ^ 32)⟩

/-- The plan of a carrier's active steps (R160 to R162). -/
def State.nlcPlan (s : State) (n steps : Nat) : NlcPlan :=
  let d := faceOf n
  let S := s.rd .nlcSpanCount d
  ⟨(stepPieces S steps).map (nlcStep S (s.rd .nlcSpanLen d) (s.rd .nlcAtten d) (s.rd .nlcGamma d) (s.rd .nlcXiCurrent d)
    (toInt 10 (s.rd .nlcLaunchPwr d)) (s.rdInt .cdcCdEst d)), s.rd .nlcFilt d⟩

/-- Nonlinear steps run only in TRACK and with spans (R159); together they compensate −cd_est, and the CDC block the
remainder: nothing while a step runs (R161). ξ is nlc_xi unless it is automatic (R163). -/
def State.nlcUpdate (s : State) (n : Nat) : State :=
  let d := faceOf n
  let a := if s.rd .acqState d = 7 ∧ 1 ≤ s.rd .nlcSpanCount d then s.rd .nlcStepsGranted d else 0
  let s := if s.on .nlcXiAuto d then s else s.wr .nlcXiCurrent d 0 (s.rd .nlcXi d)
  let s := s.wrs d 0 [(.nlcStepsActive, a), (.nlcActive, b2n (a != 0)), (.cdcShare, if a = 0 then s.rd .cdcValue d else 0)]
  { s with nlc := Cells.put n (s.nlcPlan n a) s.nlc }

/-- ξ of a carrier takes its trial step of 1/32 (R163): the same way as the last one where the SNR estimate has risen since,
the other way where it has not (assumption 65). -/
def State.xiStep (s : State) (n : Nat) : State :=
  let d := faceOf n
  if !s.on .nlcXiAuto d then s else
  let snr := s.rd .monSnrDb .m0 n
  let up := if s.rd .xiSnr d < snr then s.on .xiUp d else !s.on .xiUp d
  let x := s.rd .nlcXiCurrent d
  (s.wrs d 0 [(.xiUp, b2n up), (.xiSnr, snr), (.nlcXiCurrent, if up then min 63 (x + 1) else x - 1)]).nlcUpdate n

end Sys2Proof.Machine
end

