-- ==== Sys2Proof/Machine/Demap.lean ====
section
/-! DEFINITION. The demapper (R185 to R189): LLR words of a symbol from the shaping prior and the noise variance of its stream,
and that variance estimated over each LF. -/

namespace Sys2Proof.Machine

/-- The stream of a polarisation and subcarrier (R170). -/
def streamIx (pol sub : Nat) : Nat := pol * 16 + sub

/-- The metric of a signed amplitude for a received dimension, in 1/65,536 nat: the logarithm of its prior n_a / 512 less the squared
distance over twice the noise variance (R187). -/
def ampMetric (na var : Nat) (y a : Int) : Int :=
  (lnFix na : Int) - lnFix 512 - (y - 256 * a) * (y - 256 * a) * 65536 / (2 * max 1 var : Nat)

/-- Max-log of two metrics with its correction (R187). -/
def maxLog (a b : Int) : Int := max a b + Config.maxLogTable (a - b).natAbs

/-- Max-log over the amplitudes that pass; none where no amplitude in use passes. -/
def maxOver (cls : Nat) (comp : List Nat) (var : Nat) (y : Int) (p : Int → Bool) : Option Int :=
  let pts := (List.range (ampsOf cls)).flatMap fun i =>
    if comp.getD i 0 = 0 then [] else
      ([(2 * i + 1 : Int), -(2 * i + 1 : Int)].filter p).map fun a => ampMetric (comp.getD i 0) var y a
  match pts with
  | [] => none
  | m :: l => some (l.foldl maxLog m)

/-- The word of one label bit, 0 for the amplitudes that `zero` passes (R185): a bit that the prior fixes has the greatest
magnitude. -/
def bitWord (cls : Nat) (comp : List Nat) (llrStep var : Nat) (y : Int) (zero : Int → Bool) : BitVec 4 :=
  match maxOver cls comp var y zero, maxOver cls comp var y (fun a => !zero a) with
  | some a, some b => llrWord (llrStep * 1024) (a - b)
  | none, some _ => 15#4
  | _, none => 7#4

/-- The words of one dimension: sign, then amplitude bits, most significant first (R189, R206). -/
def dimWords (cls : Nat) (comp : List Nat) (llrStep var : Nat) (y : Int) : List (BitVec 4) :=
  bitWord cls comp llrStep var y (fun a => decide (0 < a)) ::
    (List.range (bitsPerPol cls / 2 - 1)).map fun b =>
      bitWord cls comp llrStep var y fun a => (ampBitList cls a.natAbs).getD b 0 == 0

/-- The squared distance of a received dimension from the nearest amplitude in use: its hard decision's error (R187). -/
def dimError (cls : Nat) (comp : List Nat) (y : Int) : Nat :=
  (((List.range (ampsOf cls)).filter fun i => comp.getD i 0 != 0).map fun i => ((y.natAbs : Int) - 256 * (2 * i + 1)).natAbs ^ 2).foldl
    (fun m e => match m with
      | none => some e
      | some a => some (min a e)) (none : Option Nat) |>.getD 0

/-- A squared error of a stream counted for its LF; the first one of another LF closes the estimate of the LF before (R187). -/
def State.noiseAdd (s : State) (d : Die) (i lf err : Nat) : State :=
  let c := s.rd .noiseCnt d i
  if s.rd .noiseLf d i = lf then s.wrs d i [(.noiseSum, s.rd .noiseSum d i + err), (.noiseCnt, c + 1)]
  else s.wrs d i [(.noiseEst, if c = 0 then s.rd .noiseEst d i else s.rd .noiseSum d i / c), (.noiseSum, err), (.noiseCnt, 1),
    (.noiseLf, lf)]

/-- The label words of one symbol and its share of the noise estimates (R185, R187, R189); g is its index among the payload
symbols of SF `sf`. -/
def State.demapSym (s : State) (n : Nat) (cls : Nat) (comp : List Nat) (nsub sf g : Nat) (y : RxSym) : State × List (BitVec 4) :=
  let d := faceOf n
  let t := carrierSym nsub g
  let lf := sf * 64 + t / lfLen
  let q := s.rd .crLlrStep d
  let x0 := streamIx 0 (t % nsub)
  let y0 := streamIx 1 (t % nsub)
  let vx := s.rd .noiseEst d x0
  let vy := s.rd .noiseEst d y0
  let w := dimWords cls comp q vx y.xi ++ dimWords cls comp q vx y.xq ++ dimWords cls comp q vy y.yi ++ dimWords cls comp q vy y.yq
  let s := (s.noiseAdd d x0 lf (dimError cls comp y.xi)).noiseAdd d x0 lf (dimError cls comp y.xq)
  ((s.noiseAdd d y0 lf (dimError cls comp y.yi)).noiseAdd d y0 lf (dimError cls comp y.yq), w)

/-- The label words of the symbols of a position from index g on. -/
def State.demap (s : State) (n cls : Nat) (comp : List Nat) (nsub sf : Nat) : Nat → List RxSym → State × List (List (BitVec 4))
  | _, [] => (s, [])
  | g, y :: l =>
    let a := s.demapSym n cls comp nsub sf g y
    let b := a.1.demap n cls comp nsub sf (g + 1) l
    (b.1, a.2 :: b.2)

end Sys2Proof.Machine
end

