-- ==== Sys2Proof/Machine/Inner.lean ====
section
/-! DEFINITION. The inner decoder's work on a position (R243 to R252, R263, R264, R271, R272): the LLR words on the variables, one
layered min-sum pass over the checks, hard decisions, and what they say of the checks. -/

namespace Sys2Proof.Machine

/-- The place of a position in its carrier's chain: its SF times 252 plus its index (R240). -/
def Pos.place (p : Pos) : Nat := p.sf * 252 + p.j

/-- The code of a position as its decoder uses it (R242, R252): class, code and whether the phase is known. -/
structure DecCode where
  cls : Nat
  code : Nat
  known : Bool
  llrStep : Nat

/-- The inner parity checks of the code. -/
def DecCode.r (c : DecCode) : Nat := innerChecks c.cls c.code

/-- The rate of a position's SF. -/
def Pos.rate (p : Pos) : LineRate := ⟨p.cls, p.code, p.m, p.h⟩

/-- The code that decodes a position. -/
def State.decCode (s : State) (p : Pos) : DecCode :=
  ⟨p.cls, p.code, s.on .decPhaseKnown (millOf p.n) (p.n % 2), s.rd .crLlrStep (faceOf p.n)⟩

/-- A word's value in message steps: a magnitude q enters as q × Δ (R185, R263). -/
def DecCode.value (c : DecCode) (w : BitVec 4) : Int :=
  let m := min 31 (Config.messageOf ((w.toNat % 8) * c.llrStep))
  if 8 ≤ w.toNat then -(m : Int) else m

/-- The value of a bit known to be 0: beyond every message (R247). -/
abbrev certainZero : Int := 2 ^ 20

/-- The word of bit `b` of sign position g's dimension. -/
def Pos.word (p : Pos) (cls g b : Nat) : BitVec 4 := ((p.llrs.getD (g / 4) []).getD (g % 4 * (bitsPerPol cls / 2) + b) 0)

/-- The sign position of the swing slot. -/
def swingSlot (cls code : Nat) : Nat := slotPos cls code (floorQ cls code 1)

/-- The values that a position's variables enter the decoder with (R245, R247, R252): each slot's word feeds the variable in it; the
swing information bit is a certain 0 where it is not sent, an erasure while the phase is unknown. -/
def DecCode.varValues (c : DecCode) (p : Pos) : List Int :=
  ((List.range 16380).flatMap fun g =>
    (match signUse c.cls c.code g with
      | .payload | .outer _ => [c.value (p.word c.cls g 0)]
      | .parity _ | .swing => []) ++
    (List.range (bitsPerPol c.cls / 2 - 1)).map fun b => c.value (p.word c.cls g (b + 1))) ++
  (if !swings c.cls c.code then []
    else if !c.known then [0]
    else if checkCase c.cls c.code p.sf p.j then [certainZero]
    else [c.value (p.word c.cls (swingSlot c.cls c.code) 0)])

/-- The values that its inner parity bits enter with (R244, R247, R252): a p_(r−1) that is not sent, or whose slot is not known, is
an erasure. -/
def DecCode.parValues (c : DecCode) (p : Pos) : List Int :=
  ((List.range 16380).flatMap fun g =>
    match signUse c.cls c.code g with
    | .parity _ => [c.value (p.word c.cls g 0)]
    | .payload | .outer _ | .swing => []) ++
  (if !swings c.cls c.code then []
    else if c.known && checkCase c.cls c.code p.sf p.j then [c.value (p.word c.cls (swingSlot c.cls c.code) 0)]
    else [0])

/-- A position with its values loaded, unless it holds some already (R247). -/
def DecCode.load (c : DecCode) (p : Pos) : Pos :=
  if p.post.isEmpty then { p with post := c.varValues p, par := c.parValues p } else p

/-- The positions that a position's checks reach: itself and those before it in its chain, none for one before the anchor (R246,
R248); before a join they are erasures (R251). -/
def State.reached (s : State) (c : DecCode) (p : Pos) : List Pos :=
  (List.range 3).map fun e =>
    if e = 0 then c.load p
    else if p.anchor < e then { p with j := 0, post := [], par := [] }
    else match (s.pool ++ s.poolPast).find? fun q => q.n == p.n && q.place + e == p.place with
      | some q => c.load q
      | none => { p with j := (p.j + 252 - e) % 252, post := List.replicate (innerVars c.cls c.code) 0 }

/-- The edges of check k (R246): the position 0 to 2 before and the variable, and for the inner parity bits 3 and the bit's
number. In the last position of a chain the edges folded back to it stand too (R250). -/
def checkEdges (last : Bool) (r k : Nat) (ps : List Pos) : List (Nat × Nat) :=
  (ps.zipIdx.flatMap fun q =>
    ((List.range q.1.post.length).filter fun u => edgeCheck u q.1.j q.2 r == k ||
      last && (tailChecks u q.1.j q.2 r).contains k).map fun u => (q.2, u)) ++
  ((3, k) :: if k = 0 then [] else [(3, k - 1)])

/-- The value at the end of an edge. -/
def edgeValue (vals : List (List Int)) (e : Nat × Nat) : Int := (vals.getD e.1 []).getD e.2 0

/-- A value held in the range of 6-bit messages (R263). -/
def msgClamp (v : Int) : Int := max (-31) (min 31 v)

/-- The message of a check along edge i: the product of the other signs and the least of the other magnitudes less the offset
(R263). -/
def minSum (ins : List Int) (i : Nat) : Int :=
  let others := (ins.zipIdx.filter fun e => e.2 != i).map (·.1)
  let m := others.foldl (fun m v => min m v.natAbs) 31 - Config.minSumOffset
  if (others.filter (· < 0)).length % 2 = 1 then -(m : Int) else m

/-- One check of a layered pass (R263): the messages read from and returned along every edge, the values updated at once. -/
def checkPass (es : List (Nat × Nat)) (vals : List (List Int)) (old : List Int) : List (List Int) × List Int :=
  let ins := es.zipIdx.map fun e => msgClamp (edgeValue vals e.1 - old.getD e.2 0)
  let new := (List.range es.length).map (minSum ins)
  ((es.zipIdx).foldl (fun vals e =>
    vals.set e.1.1 ((vals.getD e.1.1 []).set e.1.2 (edgeValue vals e.1 - old.getD e.2 0 + new.getD e.2 0))) vals, new)

/-- A layered pass over the checks from k on (R263). -/
def layeredPass (last : Bool) (r : Nat) (ps : List Pos) (old : List (List Int)) :
    Nat → Nat → List (List Int) → List (List Int) × List (List Int)
  | 0, _, vals => (vals, [])
  | n + 1, k, vals =>
    let a := checkPass (checkEdges last r k ps) vals (old.getD k [])
    let b := layeredPass last r ps old n (k + 1) a.1
    (b.1, a.2 :: b.2)

/-- The hard decision of a value: a negative one is a 1 (R185). -/
def hard (v : Int) : Nat := if v < 0 then 1 else 0

/-- The checks of a position that the present hard decisions leave unsatisfied (R246, R264). -/
def State.unsatisfied (s : State) (c : DecCode) (p : Pos) : Nat :=
  let ps := s.reached c p
  let vals := ps.map (·.post) ++ [(c.load p).par]
  ((List.range c.r).filter fun k =>
    ((checkEdges p.last c.r k ps).map fun e => hard (edgeValue vals e)).sum % 2 == 1).length

/-- One iteration on a position (R263): its own values and messages, and the values of the positions before it. -/
def State.iterate (s : State) (c : DecCode) (p : Pos) : Pos × List (Nat × List Int) :=
  let ps := s.reached c p
  let a := layeredPass p.last c.r ps p.msgs c.r 0 (ps.map (·.post) ++ [(c.load p).par])
  ({ p with post := a.1.getD 0 [], par := a.1.getD 3 [], msgs := a.2 },
    [1, 2].map fun e => (p.place - e, a.1.getD e []))

/-- The position `e` places after this one in the queue. -/
def State.posAfter (s : State) (p : Pos) (e : Nat) : Option Pos := s.pool.find? fun q => q.n == p.n && q.place == p.place + e

/-- The positions after this one in its chain that have arrived, up to two (R264). -/
def State.following (s : State) (p : Pos) : List Pos :=
  if p.last then []
  else match s.posAfter p 1 with
    | none => []
    | some a => a :: if a.last then [] else (s.posAfter p 2).toList

/-- The positions that a converged position waits for are here, or its chain has none to come (R264). -/
def State.followed (s : State) (p : Pos) : Bool :=
  p.last || !s.on .decChainRunning (millOf p.n) (p.n % 2) ||
    match s.following p with
    | [] => false
    | [a] => a.last
    | _ => true

/-- Every check of a position, and of those after it that have arrived, is satisfied by the present hard decisions (R264). -/
def State.allSatisfied (s : State) (c : DecCode) (p : Pos) : Bool :=
  (p :: s.following p).all fun q => s.unsatisfied c q == 0

/-- The decided sign bit and magnitude of each dimension of a position, its inner parity slots left at 0 (R206, R244, R245). -/
def decDims (c : DecCode) (case_ : Bool) (vars : List Nat) : Nat → Nat → List Nat → List (Nat × Nat)
  | 0, _, _ => []
  | n + 1, g, l =>
    let a := bitsPerPol c.cls / 2 - 1
    let s : Nat × List Nat := match signUse c.cls c.code g with
      | .payload | .outer _ => (l.headD 0, l.drop 1)
      | .parity _ => (0, l)
      | .swing => (if case_ then 0 else vars.getLastD 0, l)
    (s.1, ampOf c.cls (s.2.take a)) :: decDims c case_ vars n (g + 1) (s.2.drop a)

/-- The dimensions of a position as decided now: of its channel words where no iteration has run (R268). -/
def DecCode.dims (c : DecCode) (p : Pos) : List (Nat × Nat) :=
  let v := (c.load p).post.map hard
  decDims c (checkCase c.cls c.code p.sf p.j) v 16380 0 v

/-- Channel sign decisions of a position that differ from its decisions now (R272): a value that enters as an erasure or a certain
bit is no channel decision. -/
def DecCode.changed (c : DecCode) (p : Pos) : Nat :=
  let q := c.load p
  let diff (a b : List Int) : Nat := ((a.zip b).filter fun e => e.1 != 0 && e.1 != certainZero && hard e.1 != hard e.2).length
  diff (c.varValues p) q.post + diff (c.parValues p) q.par

/-- p × N of R272 for a position not released as converged, in 2^-24 errors: the greatest p with (1 − 2p)^d at least 1 − 2s, for s the
share of checks unsatisfied after the first iteration; with half of them or more, p is 1/2. -/
def DecCode.estimate (c : DecCode) (p : Pos) : Nat :=
  let r := c.r
  (if r ≤ 2 * p.unsat then 2 ^ 23 else rootSearch (meanDegree c.code) ((r - 2 * p.unsat) ^ 100) (r ^ 100) 23 0) * posBits c.cls

end Sys2Proof.Machine
end

