-- ==== Sys2Proof/Machine/LineTx.lean ====
section
/-! DEFINITION. The transmit line of a carrier (R206 to R220, R239 to R258, R282 to R287, R323): content to payload stream, stream to
shaping blocks and sign positions, inner and outer codes, symbols with training and pilots. -/

namespace Sys2Proof.Machine

/-- What codes an SF: its rate, the symbol rate, its count and its overhead. -/
structure TxSf where
  rate : LineRate
  rq : Nat
  sf : Nat
  oh : BitVec 256

/-- The next bit of the payload stream of an SF (R283, R285, R287): an overhead word bit, or a content or stuff bit scrambled. -/
def streamBit (e : TxSf) (x : Nat) (t : TxLine) : Nat × TxLine :=
  let p := lfOfBit e.rate e.sf x
  if p.2 < 12 then (lfWord p.1 e.oh / 2 ^ (11 - p.2) % 2, t)
  else
    let m := x - 12 * (p.1 + 1)
    let i := slotsBefore e.rate e.sf + m
    let g := nextPrbs (if m = 0 then 2 ^ 31 - 1 else t.scr)
    if contentBefore e.rate e.rq e.sf (i + 1) = contentBefore e.rate e.rq e.sf i then (g.2, { t with scr := g.1 })
    else (xorBit (t.content.headD 0) g.2, { t with scr := g.1, content := t.content.drop 1 })

/-- `k` bits of the payload stream from bit x on. -/
def streamTake (e : TxSf) : Nat → Nat → TxLine → List Nat × TxLine
  | 0, _, t => ([], t)
  | k + 1, x, t =>
    let b := streamBit e x t
    let r := streamTake e k (x + 1) b.2
    (b.1 :: r.1, r.2)

/-- The number that bits spell, the first most significant (R212). -/
def bitsNum (l : List Nat) : Nat := l.foldl (fun a b => 2 * a + b) 0

/-- The amplitudes of a block of k bits (R209, R211, R212). -/
def shaped (r : LineRate) (l : List Nat) : List Nat := shapeBlock 512 (composition r.cls r.h) (bitsNum l)

/-- Positions in a segment of the outer code (R255). -/
def segLen (cls : Nat) : Nat := if cls = 0 then 63 else 42

/-- The check bit of an outer block that slot `i` of a segment carries (R257): row k, column 1,488 + q in slot 24 k + q. -/
def outerCheck (block : List (List Nat)) (i : Nat) : Nat := (block.getD (i / 24) []).getD (1488 + i % 24) 0

/-- Column k of a block; of no block, zeros (R255, R258). -/
def outerColumn (block : List (List Nat)) (k : Nat) : List Nat := (List.range 1512).map fun i => (block.getD i []).getD k 0

/-- The block of a segment's payload bits, row by row, unused cells 0, with the check bits that follow each row's component word
(R254 to R256). -/
def outerBlock (before : List (List Nat)) (bits : List Nat) : List (List Nat) :=
  (List.range 1512).map fun k =>
    let row := (List.range 1488).map fun c => bits.getD (1488 * k + c) 0
    row ++ msbBits 24 (bchCheck (outerColumn before k ++ row))

/-- The sign of sign position g of position j, and the payload bits left: none where an inner parity bit is still to come (R244,
R256, R257). -/
def signOf (e : TxSf) (outer : List (List Nat)) (j g : Nat) (l : List Nat) : Option Nat × List Nat :=
  match signUse e.rate.cls e.rate.code g with
  | .payload => (some (l.headD 0), l.drop 1)
  | .outer t => (some (outerCheck outer (j % segLen e.rate.cls * outerSlots e.rate.cls + t)), l)
  | .parity _ => (none, l)
  | .swing => if checkCase e.rate.cls e.rate.code e.sf j then (none, l) else (some (l.headD 0), l.drop 1)

/-- The four dimensions of one symbol period after another of position j, X.I, X.Q, Y.I, Y.Q, from its payload bits; the blocks that
begin at a symbol take their bits first, X before Y (R207, R209, R210, R241, R256). -/
def symsOf (e : TxSf) (outer : List (List Nat)) (j : Nat) : Nat → Nat → List Nat → List Nat → List Nat →
    List (Option Nat × Nat) × List Nat × List Nat
  | 0, _, _, ax, ay => ([], ax, ay)
  | n + 1, p, l, ax, ay =>
    let k := e.rate.h - 512
    let start := blockStarts e.sf (posLen * j + p)
    let ax := if start then shaped e.rate (l.take k) else ax
    let l := if start then l.drop k else l
    let ay := if start then shaped e.rate (l.take k) else ay
    let l := if start then l.drop k else l
    let a := signOf e outer j (4 * p) l
    let b := signOf e outer j (4 * p + 1) a.2
    let c := signOf e outer j (4 * p + 2) b.2
    let d := signOf e outer j (4 * p + 3) c.2
    let rest := symsOf e outer j n (p + 1) d.2 (ax.drop 2) (ay.drop 2)
    ((a.1, ax.headD 1) :: (b.1, ax.getD 1 1) :: (c.1, ay.headD 1) :: (d.1, ay.getD 1 1) :: rest.1, rest.2)

/-- The inner parity bits in their slots, p_(r−1) in the swing slot of a check-case position (R244). -/
def withParity (r : LineRate) (par : List Nat) (dims : List (Option Nat × Nat)) : List (Nat × Nat) :=
  dims.zipIdx.map fun d =>
    match d.1.1, signUse r.cls r.code d.2 with
    | some b, _ => (b, d.1.2)
    | none, .parity k => (par.getD k 0, d.1.2)
    | none, _ => (par.getD (innerChecks r.cls r.code - 1) 0, d.1.2)

/-- The payload bits of a position that count toward its segment are those it consumes (R256). A position coded: `last` says that
the inner chain ends with it (R250). -/
def TxLine.code (t : TxLine) (e : TxSf) (last : Bool) : TxLine :=
  let j := t.next
  let r := e.rate
  let x := streamBits r e.sf (posLen * j)
  let q := streamTake e (streamBits r e.sf (posLen * (j + 1)) - x) x t
  let t := q.2
  let y := symsOf e t.outer j posLen 0 q.1 t.ampX t.ampY
  let swing := ((y.1.zipIdx.find? fun d => signUse r.cls r.code d.2 == .swing).bind fun d => d.1.1).getD 0
  let vars := posVars r.cls r.code (y.1.map fun d => (d.1.getD 0, d.2)) swing
  let prev := (j, vars) :: t.prev
  let par := encodePosition (innerChecks r.cls r.code) prev last
  let seg := t.seg ++ q.1
  let ends := (j + 1) % segLen r.cls = 0
  { t with
    next := j + 1, ampX := y.2.1, ampY := y.2.2, prev := if last then [] else prev.take 2
    queue := t.queue ++ withParity r par y.1
    outer := if ends then outerBlock t.outer seg else t.outer
    seg := if ends then [] else seg }

/-- Positions coded up to the one that holds symbol `stop` − 1 of the SF. -/
def TxLine.codeUpTo (t : TxLine) (e : TxSf) (stop : Nat) (chainEnds : Bool) : Nat → TxLine
  | 0 => t
  | fuel + 1 => if posLen * t.next < stop then (t.code e (chainEnds && t.next == 251)).codeUpTo e stop chainEnds fuel else t

/-- The four sign generators at an SF boundary: training X and Y, pilots X and Y (R217). -/
def pilotSeeds : List Nat := [0x1F3D, 0x62C1, 0x2AAA, 0x5555]

/-- A training or pilot symbol of amplitude a from generators i and i + 1, which step for I and then Q (R216, R217). -/
def knownSym (a i : Nat) (g : List Nat) : List Int × List Nat :=
  let x1 := nextSign (g.getD i 0)
  let x2 := nextSign x1.1
  let y1 := nextSign (g.getD (i + 1) 0)
  let y2 := nextSign y1.1
  ([pointOf (x1.2, a), pointOf (x2.2, a), pointOf (y1.2, a), pointOf (y2.2, a)], (g.set i x2.1).set (i + 1) y2.1)

/-- Carrier symbols in order from symbol t (R214): training, pilots, and the payload dimensions in turn. -/
def carrierSyms (nsub amp : Nat) : Nat → Nat → List Nat → List (Nat × Nat) → List (List Int) × List Nat
  | 0, _, g, _ => ([], g)
  | n + 1, t, g, dims =>
    if t < 256 ∨ isPilot nsub t = true then
      let k := knownSym amp (if t < 256 then 0 else 2) g
      let rest := carrierSyms nsub amp n (t + 1) k.2 dims
      (k.1 :: rest.1, rest.2)
    else
      let rest := carrierSyms nsub amp n (t + 1) g (dims.drop 4)
      ((dims.take 4).map pointOf :: rest.1, rest.2)

/-- Dimensions of PRBS31 bits: a sign bit and amplitude bits each (R20). -/
def prbsDims (cls : Nat) : Nat → Nat → List (Nat × Nat) × Nat
  | 0, g => ([], g)
  | n + 1, g =>
    let a := nextPrbs g
    let b := nextPrbs a.1
    let c := nextPrbs b.1
    let rest := prbsDims cls n (if cls = 0 then b.1 else c.1)
    ((a.2, ampOf cls (if cls = 0 then [b.2] else [b.2, c.2])) :: rest.1, rest.2)

/-- The scale from a point to the DAC code, in 1/65,536, for which the RMS of the code over an SF is `rms` (R219): each polarisation's
dimension holds 1,031,940 shaped amplitudes and 16,636 of the pilots'. -/
def txScale (r : LineRate) (amp rms : Nat) : Nat :=
  Nat.sqrt (rms * rms * 2 ^ 32 * (512 * 2 ^ 20) / max 1 (sfSyms * compEnergy (composition r.cls r.h) + 512 * 16636 * (amp * amp)))

/-- The subcarriers' centres in kHz (R218), for a roll-off in hundredths and a rate in quarters of a GBd. -/
def subCentres (n rolloff rq : Nat) : List Int :=
  (List.range n).map fun (s : Nat) => (2 * (s : Int) - ((n : Int) - 1)) * ((100 + rolloff) * rq * 250000 : Nat) / (200 * n : Nat)

/-- A line frame of symbols with its signal (R218, R219). -/
def lineFrameOf (r : LineRate) (rq nsub rolloff amp rms sf lf : Nat) (filled : Bool) (syms : List (List Int)) : LineFrame :=
  ⟨sf, lf, filled, syms, txScale r amp rms, subCentres nsub rolloff rq, (100 + rolloff) * rq * 2500,
    if 12 < rolloff then rq * 250000 * 9 / 16 else 0⟩

end Sys2Proof.Machine
end

