-- ==== Sys2Proof/Machine/Outer.lean ====
section
/-! DEFINITION. The dematcher and the outer decoder of a carrier (R210, R213, R252, R254 to R260): decided positions to payload
bits, segments to blocks, up to four passes of component decoding, and release. -/

namespace Sys2Proof.Machine

/-- Two errors at most located by the syndromes S1 and S3 of a word of `len` bits, as exponents; none where no such pattern fits
(R254). -/
def bchLocate (s1 s3 len : Nat) : Option (List Nat) :=
  if s1 = 0 ∧ s3 = 0 then some []
  else
    let cube (x : Nat) : Nat := gfMul 12 x (gfMul 12 x x)
    let one := (List.range len).find? fun i => gfPow i == s1 && cube (gfPow i) == s3
    match one with
    | some i => some [i]
    | none => ((List.range len).flatMap fun i => (List.range i).map fun j => (i, j)).find? (fun e =>
        gfPow e.1 ^^^ gfPow e.2 == s1 && cube (gfPow e.1) ^^^ cube (gfPow e.2) == s3) |>.map fun e => [e.1, e.2]

/-- The syndrome of a word at α^k: its first bit is the coefficient of the highest power (R254). -/
def bchSyndrome (k : Nat) (w : List Nat) : Nat :=
  (w.zipIdx.filter fun e => e.1 == 1).foldl (fun a e => a ^^^ gfPow (k * (w.length - 1 - e.2) % 4095)) 0

/-- The bits of a component word that its decoding flips, as indices (R254, R259). -/
def bchFlips (w : List Nat) : List Nat :=
  ((bchLocate (bchSyndrome 1 w) (bchSyndrome 3 w) w.length).getD []).map fun e => w.length - 1 - e

/-- Component word k of a block: column k of the block before, then row k (R255). -/
def componentWord (before : OuterBlk) (b : OuterBlk) (k : Nat) : List Nat := outerColumn before.rows k ++ b.rows.getD k []

/-- A cell of a block may be flipped: not a payload cell that R256 sets to 0. -/
def OuterBlk.free (b : OuterBlk) (row col : Nat) : Bool := decide (1488 ≤ col) || decide (1488 * row + col < b.used)

/-- A cell flipped. -/
def OuterBlk.flip (b : OuterBlk) (row col : Nat) : OuterBlk :=
  { b with rows := b.rows.set row (flipAt (b.rows.getD row []) col 1) }

/-- Component word k of a block decoded (R259): a correction that would touch a cell set to 0 or a released bit is not made
(assumption 68). The blocks after it, and the bits corrected. -/
def decodeWord (fixed : Bool) (before b : OuterBlk) (k : Nat) : OuterBlk × OuterBlk × Nat :=
  let fl := bchFlips (componentWord before b k)
  let ok := fl.all fun i => if i < 1512 then !fixed && before.free i k else b.free k (i - 1512)
  if !ok then (before, b, 0)
  else
    let r := fl.foldl (fun (e : OuterBlk × OuterBlk) i =>
      if i < 1512 then (e.1.flip i k, e.2) else (e.1, e.2.flip k (i - 1512))) (before, b)
    (r.1, r.2, fl.length)

/-- A pass over the blocks of the window (R259): each with the one before it; the first one's earlier block is released. The newest
block has no check bits yet. -/
def decodePass : Bool → OuterBlk → List OuterBlk → List OuterBlk × Nat
  | _, before, [] => ([before], 0)
  | _, before, [last] => ([before, last], 0)
  | fixed, before, b :: l =>
    let r := (List.range 1512).foldl (fun (e : OuterBlk × OuterBlk × Nat) k =>
      let x := decodeWord fixed e.1 e.2.1 k
      (x.1, x.2.1, e.2.2 + x.2.2)) (before, b, 0)
    let t := decodePass false r.2.1 l
    (r.1 :: t.1, r.2.2 + t.2)

/-- Up to four passes (R259). -/
def decodePasses : Nat → Option OuterBlk → List OuterBlk → List OuterBlk × Nat
  | 0, _, l => (l, 0)
  | n + 1, before, l =>
    let a := match before, l with
      | some b, l => ((decodePass true b l).1.drop 1, (decodePass true b l).2)
      | none, b :: l => decodePass false b l
      | none, [] => ([], 0)
    let r := decodePasses n before a.1
    (r.1, a.2 + r.2)

/-- Blocks in the decoder's window: the last six segments, or nine (R259). -/
def outerWindow (cls : Nat) : Nat := if cls = 0 then 6 else 9

/-- A segment whose payload bits are all here becomes a block: its check bits complete the block before (R255 to R257). -/
def RxLine.addBlock (x : RxLine) (g : OuterSeg) : RxLine :=
  let pay := x.bits.take g.used
  let fill (b : OuterBlk) : OuterBlk :=
    { b with rows := b.rows.zipIdx.map fun r => r.1.take 1488 ++ (g.checks.drop (24 * r.2)).take 24 }
  let new : OuterBlk := ⟨(List.range 1512).map fun k => (List.range 1512).map fun c =>
    if c < 1488 ∧ 1488 * k + c < g.used then pay.getD (1488 * k + c) 0 else 0, g.used⟩
  { x with bits := x.bits.drop g.used, segs := x.segs.drop 1
           blocks := x.blocks.dropLast ++ (x.blocks.getLast?.map fill).toList ++ [new] }

/-- Component words of a block with errors left (R259). -/
def badWords (before b : OuterBlk) : Nat := ((List.range 1512).filter fun k => bchBad (componentWord before b k)).length

/-- One segment step of the outer decoder (R259): passes, then the oldest block of a full window is released. The corrected bits and
the uncorrected words; the first block after a join has no earlier column and counts once (assumption 68). -/
def RxLine.step (x : RxLine) (cls : Nat) : RxLine × Nat × Nat :=
  let p := decodePasses 4 x.before x.blocks
  if p.1.length ≤ outerWindow cls then ({ x with blocks := p.1 }, p.2, 0)
  else match p.1 with
    | [] => (x, 0, 0)
    | b :: l => ({ x with blocks := l, before := some b, out := (b.rows.flatMap (·.take 1488)).take b.used },
        p.2, match x.before with
          | some a => badWords a b
          | none => 1)

/-- Segments whose bits are all here are taken one after another. -/
def RxLine.settle (cls : Nat) : Nat → RxLine → Nat → Nat → RxLine × Nat × Nat
  | 0, x, c, u => (x, c, u)
  | n + 1, x, c, u =>
    match x.segs with
    | [] => (x, c, u)
    | g :: _ =>
      if x.bits.length < g.used then (x, c, u)
      else
        let r := (x.addBlock g).step cls
        RxLine.settle cls n r.1 (c + r.2.1) (u + r.2.2)

/-- The low k bits of a block's rank, most significant first (R213). -/
def dematch (cls h : Nat) (block : List Nat) : List Nat :=
  msbBits (h - 512) ((rankBlock (composition cls h) block).1 % 2 ^ (h - 512))

/-- The shaping blocks in progress end: their bits go out before the sign bits since they began (R213, R256). The count of blocks
that dm_mismatch counts. -/
def RxLine.endBlock (x : RxLine) : RxLine × Nat :=
  if !x.inBlock then ({ x with bits := x.bits ++ x.signs, signs := [], ampX := [], ampY := [] }, 0)
  else ({ x with
      bits := x.bits ++ dematch x.blkCls x.blkH x.ampX ++ dematch x.blkCls x.blkH x.ampY ++ x.signs, signs := [], ampX := [], ampY := [] },
    b2n (dmMismatch x.blkCls x.blkH x.ampX) + b2n (dmMismatch x.blkCls x.blkH x.ampY))

/-- The payload sign bits among a symbol's dimensions, the first at sign position g (R244, R256). -/
def paySigns (r : LineRate) (case_ : Bool) (g : Nat) (dims : List (Nat × Nat)) : List Nat :=
  dims.zipIdx.flatMap fun d => match signUse r.cls r.code (g + d.2) with
    | .payload => [d.1.1]
    | .swing => if case_ then [] else [d.1.1]
    | .outer _ | .parity _ => []

/-- The symbols of a decided position taken in turn, `phase` the residue of their SF modulo 64 (R210, R213). The mismatched blocks. -/
def RxLine.takeSyms (r : LineRate) (case_ : Bool) (phase j : Nat) : Nat → Nat → List (Nat × Nat) → RxLine × Nat → RxLine × Nat
  | 0, _, _, x => x
  | n + 1, p, dims, x =>
    let x := if blockStarts phase (posLen * j + p) then
        let e := x.1.endBlock
        ({ e.1 with inBlock := true, blkCls := r.cls, blkH := r.h }, x.2 + e.2)
      else x
    let d := dims.take 4
    let y := { x.1 with
      ampX := if x.1.inBlock then x.1.ampX ++ (d.take 2).map (·.2) else []
      ampY := if x.1.inBlock then x.1.ampY ++ (d.drop 2).map (·.2) else []
      signs := x.1.signs ++ paySigns r case_ (4 * p) d }
    RxLine.takeSyms r case_ phase j n (p + 1) (dims.drop 4) (y, x.2)

/-- The outer check bits of a decided position in slot order (R244, R257). -/
def outerChecks (r : LineRate) (dims : List (Nat × Nat)) : List Nat :=
  dims.zipIdx.filterMap fun d => match signUse r.cls r.code d.2 with
    | .outer _ => some d.1.1
    | .payload | .parity _ | .swing => none

/-- Payload bits of the segment that ends with position j of SF `sf`, whose residue modulo 64 is `phase` (R255, R256). -/
def segBits (r : LineRate) (phase sf j : Nat) : Nat :=
  streamBitsAt r phase sf (posLen * (j + 1)) - streamBitsAt r phase sf (posLen * (j + 1 - segLen r.cls))

/-- The segment in progress after a decided position: collected from its first position on (R255, R257). -/
def RxLine.takeChecks (x : RxLine) (r : LineRate) (phase sf j : Nat) (checks : List Nat) : RxLine :=
  let first := j % segLen r.cls = 0
  let cur := if first then some checks else x.seg.map (· ++ checks)
  let x := if first && x.seg.isNone then { x with bits := [], signs := [], inBlock := false } else x
  if (j + 1) % segLen r.cls ≠ 0 then { x with seg := cur }
  else match cur with
    | none => { x with seg := none }
    | some l => { x with seg := some [], segs := x.segs ++ [⟨segBits r phase sf j, l⟩] }

end Sys2Proof.Machine
end

