-- ==== Sys2Proof/Machine/Receive.lean ====
section
/-! DEFINITION. Receive signal processing (R149 to R204): acquisition, the dispersion value, nonlinear steps, and cycle
slips up to their records. -/

namespace Sys2Proof.Machine

/-- The acquisition state of a carrier (R190). -/
def State.acq (s : State) (n : Nat) : Nat := s.rd .acqState (faceOf n)

/-- The runs of SFs that acquisition counts (R190, R191, R195). -/
def acqRuns : List Fld := [.sigRun, .errLowRun, .errHighRun, .trainRun, .trainMiss, .cleanRun, .outlierSeen]

/-- A transition of the acquisition state, stamped with the tally (R192); the runs of SFs begin anew. -/
def State.acqTo (s : State) (n st : Nat) : State :=
  let d := faceOf n
  let s := if s.acq n = 7 then s.count d 0x6D else s
  let s := if st = 0 then s else s.count d (0x5F + st)
  (s.wrs d 0 [(.acqState, st), (.acqStamp, s.tally)]).zeros d 0 acqRuns

/-- SFs spent in the present acquisition state, in symbols. -/
def State.acqFor (s : State) (n : Nat) : Nat := s.tally - s.rd .acqStamp (faceOf n)

/-- The chain of a carrier may run (R150). -/
def State.rxReady (s : State) (n : Nat) : Bool :=
  let d := faceOf n
  s.hasCarrier n && s.on .rxEnable d && !s.on .viewStale d &&
    [Dom.convRx, Dom.cdc, Dom.eq, Dom.crdm].all fun k => s.domSt d k == 0 && !s.domInReset d k

/-- The Mill die's decoding chain ends or joins (R251): what the dematcher and outer decoder hold of it ends. -/
def State.chainStop (s : State) (n : Nat) : State :=
  let s := s.wrs (millOf n) (n % 2) [(.decChainRunning, 0), (.decPhaseKnown, 0)]
  { s with rxLine := Cells.del n s.rxLine, poolPast := s.poolPast.filter (·.n != n) }

/-- The deframer of a carrier leaves SYNC or a hunt for OFF when nothing is received (R302). -/
def State.frameOff (s : State) (n : Nat) : State :=
  let d := millOf n
  let s := s.wr .frmShapeLocked d (n % 2) 0
  if s.rd .frmState d (n % 2) = 3 then s else s.wr .frmState d (n % 2) 0

/-- The streams of a carrier (R170): two polarisations of up to 16 subcarriers. -/
abbrev streamCount : Nat := 32

/-- Slip candidates are discarded, and the pilots' phase errors with them (R177). -/
def State.dropCands (s : State) (n : Nat) : State :=
  let d := faceOf n
  let s := (List.range streamCount).foldl (fun s i => s.wrs d i [(.candOn, 0), (.candK, 0), (.candStart, 0)]) s
  { s with pilots := s.pilots.filter fun e => e.1 / streamCount != n }

/-- What ends with TRACK on both dies (R159, R177, R251, R301, R302). -/
def State.trackEnd (s : State) (n : Nat) : State := (((s.nlcUpdate n).dropCands n).chainStop n).frameOff n

/-- No warm restart is to come (R195). -/
def State.noWarm (s : State) (n : Nat) : State := s.wrs (faceOf n) 0 [(.acqWarm, 0), (.warmUntil, 0)]

/-- The acquisition state becomes OFF (R150, R192). -/
def State.acqOff (s : State) (n : Nat) : State := if s.acq n = 0 then s else ((s.acqTo n 0).noWarm n).trackEnd n

/-- The acquisition state follows R150: OFF while the chain may not run, cold at SIGNAL_DETECT on leaving OFF (R194). -/
def State.acqGate (s : State) (n : Nat) : State :=
  if s.rxReady n then if s.acq n = 0 then (s.acqTo n 1).noWarm n else s else s.acqOff n

/-- A carrier starts cold at SIGNAL_DETECT unless it is OFF (R194). -/
def State.acqCold (s : State) (n : Nat) : State := if s.acq n = 0 then s else ((s.acqTo n 1).noWarm n).trackEnd n

/-- Everything acquired is discarded (R193): dispersion, frequency, phase and noise estimates. -/
def State.discard (s : State) (n : Nat) : State :=
  let d := faceOf n
  let s := (List.range streamCount).foldl (fun s i =>
    s.zeros d i [.crEst, .crStep, .noiseEst, .noiseSum, .noiseCnt, .noiseLf]) s
  s.zeros d 0 [.cdcCdEst, .cdcValue, .cdcShare, .cdcFftActive, .crFreqOffset, .acqRateChange, .trainAt, .cdUpdSf]

/-- An acquisition failure (R190, R191): back to SIGNAL_DETECT, counted, the failed state recorded, ACQ_FAIL raised. The
next attempt is cold (R195). -/
def State.acqFailed (s : State) (n : Nat) : State :=
  let d := faceOf n
  let st := s.acq n
  let s := ((s.acqTo n 1).inc .acqFailures d).count d (0x65 + st)
  ((s.wr .acqLastFailState d 0 st).noWarm n).raise Reason.acqFail (blkId d Dom.crdm) st

/-- A carrier leaves TRACK (R195). -/
def State.leaveTrack (s : State) (n : Nat) : State :=
  let d := faceOf n
  let w := s.rd .acqWarmWindow d
  let s := (s.acqTo n 1).wrs d 0 [(.acqLockLost, 1), (.warmUntil, if w = 0 then 0 else s.sf + w * 64)]
  (s.raise Reason.rxLockLost (blkId d Dom.crdm)).trackEnd n

/-- A warm restart is possible: signal is back within the window (R195). -/
def State.warmOpen (s : State) (n : Nat) : Bool := decide (s.sf < s.rd .warmUntil (faceOf n))

/-- A warm restart enters TRAIN_LOCK with dispersion, frequency and taps kept (R195). -/
def State.warmStart (s : State) (n : Nat) : State :=
  ((s.acqTo n 5).count (faceOf n) 0x6E).wrs (faceOf n) 0 [(.acqWarm, 1), (.warmUntil, 0)]

/-- The dispersion an FFT size covers at 272 GBd, in 0.005 ns/nm (R153). -/
def fftCover : Nat → Nat
  | 1 => 4038 | 2 => 8078 | 3 => 16156 | _ => 32300

/-- A size covers a dispersion at a symbol rate (R153). -/
def fftCovers (size cd rq : Nat) : Bool := decide (cd * (rq * rq) ≤ fftCover size * (1088 * 1088))

/-- The smallest size that covers a dispersion (R154). -/
def fftFor (cd rq : Nat) : Nat := if fftCovers 1 cd rq then 1 else if fftCovers 2 cd rq then 2 else if fftCovers 3 cd rq then 3 else 4

/-- A range of dispersion held to ±160 ns/nm, which is 32,000 (R155). -/
def cdClip (mid : Int) (half : Nat) : Int × Int := (max (-32000) (mid - half), min 32000 (mid + half))

/-- The range a search covers, in 0.005 ns/nm (R155): in mode 0 everything, or 2 ns/nm either side of cd_est after a symbol-rate
change (R194). -/
def searchRange (mode : Nat) (rateChange : Bool) (est set : Int) (span : Nat) : Int × Int :=
  if mode = 0 then (if rateChange then cdClip est 400 else cdClip 0 32000) else cdClip set (span * 50)

/-- The greatest magnitude the search of a mode covers without a symbol-rate change, in 0.005 ns/nm (R155). -/
def searchSpan (mode cdSet cdSpan : Nat) : Nat :=
  let r := searchRange mode false 0 (toInt 16 cdSet) cdSpan
  max r.1.natAbs r.2.natAbs

/-- The range of the search that a carrier runs. -/
def State.cdRange (s : State) (n : Nat) : Int × Int :=
  let d := faceOf n
  searchRange (s.rd .cdcCdMode d) (s.on .acqRateChange d) (s.rdInt .cdcCdEst d) (toInt 16 (s.rd .cdcCdSet d)) (s.rd .cdcCdSpan d)

/-- The length of a dispersion search in SF for a number of coarse trials (R156). -/
def searchSf (coarse : Nat) : Nat := 16 * (ceilDiv coarse 16 + 7)

/-- The coarse trials of a range in 0.005 ns/nm: the multiples of 0.25 ns/nm in it (R156). -/
def coarseTrials (lo hi : Int) : Nat := (hi / 50 - -(-lo / 50) + 1).toNat

/-- A result that the two passes over a range can give (R153, R156): within 0.25 ns/nm of a coarse trial, and within what the block
compensates. -/
def searchFinds (r : Int × Int) (v : Int) : Bool :=
  decide (-(-r.1 / 50) * 50 - 50 ≤ v) && decide (v ≤ r.2 / 50 * 50 + 50) && decide (v.natAbs ≤ 32000)

/-- CD_SCAN begins with the size that covers the whole range, or the forced one (R154). -/
def State.scanStart (s : State) (n : Nat) : State :=
  let d := faceOf n
  let f := s.rd .cdcFft d
  let r := s.cdRange n
  (s.acqTo n 2).wr .cdcFftActive d 0 (if f ≠ 0 then f else fftFor (max r.1.natAbs r.2.natAbs) s.rq)

/-- SIGNAL_DETECTED (R190, R195): los 0 for 256 consecutive SF; within the warm window the restart is warm. -/
def execSignalDetected (n : Fin 4) (s : State) : Host.Outcome State Fault Refusal :=
  if s.acq n = 1 ∧ ¬ s.on .acqLos (faceOf n) then
    if s.warmOpen n then .next (s.warmStart n)
    else if 256 ≤ s.rd .sigRun (faceOf n) then .next (s.scanStart n)
    else .next s
  else .next s

/-- CD_SCAN_DONE (R154 to R157): once the search has lasted its time, a result that it can give is held, or cd_set at once in FIXED,
and the size for it plus 2 ns/nm is chosen. -/
def execCdScanDone (n : Fin 4) (cdEst : BitVec 16) (s : State) : Host.Outcome State Fault Refusal :=
  let d := faceOf n
  let fixed := s.rd .cdcCdMode d = 2
  let r := s.cdRange n
  if s.acq n ≠ 2 ∨ (¬ fixed ∧ (s.acqFor n < searchSf (coarseTrials r.1 r.2) * sfLen ∨ searchFinds r cdEst.toInt = false)) then .next s else
  let v := if fixed then s.rd .cdcCdSet d else cdEst.toNat
  let f := s.rd .cdcFft d
  .next ((s.acqTo n 3).wrs d 0 [(.cdcCdEst, v), (.cdcValue, v), (.cdcShare, v), (.acqRateChange, 0), (.cdUpdSf, s.sf),
    (.cdcFftActive, if f ≠ 0 then f else fftFor ((toInt 16 v).natAbs + 400) s.rq)])

/-- An offset FREQ_ACQ can find (R174): within ±5 GHz, or ±500 MHz of the hint. In 2.5 MHz units. -/
def State.freqInRange (s : State) (n : Nat) (off : Nat) : Bool :=
  let d := faceOf n
  if s.on .crFreqHintEn d then decide ((toInt 16 off - toInt 13 (s.rd .crFreqHint d)).natAbs ≤ 200)
  else decide ((toInt 16 off).natAbs ≤ 2000)

/-- FREQ_ACQ_DONE (R174, R190): an offset outside the search range is not found. -/
def execFreqAcqDone (n : Fin 4) (offset : BitVec 16) (s : State) : Host.Outcome State Fault Refusal :=
  if s.acq n = 3 ∧ s.freqInRange n offset.toNat then
    .next ((s.acqTo n 4).wr .crFreqOffset (faceOf n) 0 offset.toNat)
  else .next s

/-- EQ_CONVERGED (R168, R190): the error power has lain below the convergence limit for 512 SF, and `rateDiff`, the far symbol rate
less the local one in 0.1 ppm, within ±100 ppm. -/
def execEqConverged (n : Fin 4) (rateDiff : BitVec 16) (s : State) : Host.Outcome State Fault Refusal :=
  if s.acq n = 4 ∧ rateDiff.toInt.natAbs ≤ 1000 ∧ 512 ≤ s.rd .errLowRun (faceOf n) then .next (s.acqTo n 5) else .next s

/-- TRAIN_LOCK_DONE (R171, R190): the training block at one position in 4 SF, and the far transmitter's subcarriers and roll-off are
those of the receive set. -/
def execTrainLockDone (n : Fin 4) (farSub : Fin 8) (farRolloff : BitVec 7) (s : State) : Host.Outcome State Fault Refusal :=
  let d := faceOf n
  if s.acq n = 5 ∧ 4 ≤ s.rd .trainRun d ∧ farSub.val = s.rd .rxSubcarriers d ∧ farRolloff.toNat = s.rd .rxRolloff d
  then .next (s.acqTo n 6) else .next s

/-- The phase period of a carrier's receive set (R242). -/
def State.rxPeriod (s : State) (n : Nat) : Nat :=
  phasePeriod (s.rd .lrxClass (millOf n) (n % 2)) (s.rd .lrxCode (millOf n) (n % 2))

/-- A receive chain starts with anchor positions or joins the far chain (R251 to R253); the deframer hunts from offset 0
once the phase is known (R296, R302). The anchor positions are those of the new class or code (POSITION_COMPLETE); the outer
stream runs on over them (R258). -/
def State.chainStart (s : State) (n : Nat) (join : Bool) : State :=
  let d := millOf n
  let c := n % 2
  let far := s.on .farValid d c
  let known := s.rxPeriod n == 1 || far
  let s := (s.inc .decChainRestarts d c).wrs d c [(.decChainRunning, 1), (.decPhaseKnown, b2n known),
    (.decPhase, if far then s.rd .farLiveSf d c % s.rxPeriod n else 0)]
  let s : State := if join then
      { s.wrs d c [(.joinLeft, 16), (.chainJoin, 1), (.chainWait, 1), (.chainPos, 0), (.frmShapeLocked, 0), (.frmShapePhase, 0), (.sweepCand, 0),
          (.sweepRun, 0)]
        with rxLine := Cells.del n s.rxLine, poolPast := s.poolPast.filter (·.n != n) }
    else s
  if s.rd .frmState d c = 0 ∧ known then s.wrs d c [(.frmState, 1), (.huntPos, 0), (.huntSince, s.sf)] else s

/-- PHASE_LOCK_DONE (R190, R192): 64 SF without a pilot outlier; TRACK, with RX_LOCK; LLRs flow and the far chain is joined. -/
def execPhaseLockDone (n : Fin 4) (s : State) : Host.Outcome State Fault Refusal :=
  let d := faceOf n
  if s.acq n = 6 ∧ 64 ≤ s.rd .cleanRun d then
    .next (((((s.acqTo n 7).wr .acqWarm d 0 0).raise Reason.rxLock (blkId d Dom.crdm)).nlcUpdate n).chainStart n true)
  else .next s

/-- The limit of an acquisition state in SF (R190); none for SIGNAL_DETECT. -/
def acqLimit : Nat → Option Nat
  | 2 => some 4096 | 3 => some 2048 | 4 => some 16384 | 5 => some 2048 | 6 => some 1024 | _ => none

/-- ACQ_FAIL (R171, R174, R190): the state has reached its limit. -/
def execAcqFail (n : Fin 4) (s : State) : Host.Outcome State Fault Refusal :=
  match acqLimit (s.acq n) with
  | none => .next s
  | some k => if k * sfLen ≤ s.acqFor n then .next (s.acqFailed n) else .next s

/-- LOS_SET (R191, R195): the mean of the lanes' RMS codes has lain below los_thresh for 16 SF. -/
def execLosSet (n : Fin 4) (s : State) : Host.Outcome State Fault Refusal :=
  let d := faceOf n
  if s.on .acqLos d || decide (s.rd .losLow d < 16) then .next s else
  let s := ((s.wr .acqLos d 0 1).count d 0x6C).raiseField .acqLos d
  if s.acq n = 7 then .next (s.leaveTrack n) else if 2 ≤ s.acq n then .next (s.acqFailed n) else .next s

/-- LOS_CLEAR (R191, R195): 16 SF at or above los_thresh; signal regained within the window restarts warm. -/
def execLosClear (n : Fin 4) (s : State) : Host.Outcome State Fault Refusal :=
  let d := faceOf n
  if !s.on .acqLos d || decide (s.rd .losHigh d < 16) then .next s else
  let s := ((s.wr .acqLos d 0 0).count d 0x6C).raiseField .acqLos d
  if s.acq n = 1 ∧ s.warmOpen n then .next (s.warmStart n) else .next s

/-- ACQ_RESTART (R193): the write takes effect at the next SF boundary, which OVR_SF_LATCH closes. -/
def execAcqRestart (n : Fin 4) (s : State) : Host.Outcome State Fault Refusal :=
  .next (s.writeReg (faceOf n) .acqRestart 0 fun s => s.wr .acqRestartPend (faceOf n) 0 1)

/-- The LOS judgement of an SF (R191): the mean of the four lanes' RMS codes against los_thresh. -/
def State.losTick (s : State) (n : Nat) (rms : List (BitVec 8)) : State :=
  let d := faceOf n
  let low := decide ((rms.map (·.toNat)).sum < 4 * s.rd .acqLosThresh d)
  let s := s.wrs d 0 (if low then [(.losLow, min 16 (s.rd .losLow d + 1)), (.losHigh, 0)]
    else [(.losHigh, min 16 (s.rd .losHigh d + 1)), (.losLow, 0)])
  s.wr .sigRun d 0 (if s.acq n = 1 ∧ ¬ s.on .acqLos d then min 256 (s.rd .sigRun d + 1) else 0)

/-- The runs of the equaliser and the training search (R190, R195). -/
def State.eqTick (s : State) (n : Nat) (rx : RxReport) : State :=
  let d := faceOf n
  let s := s.wrs d 0 [(.errLowRun, if rx.errLow then min 512 (s.rd .errLowRun d + 1) else 0),
    (.errHighRun, if rx.errHigh then min 16 (s.rd .errHighRun d + 1) else 0)]
  let s := if rx.errHigh then s.count d 0x75 else s
  let s := match rx.training with
    | none => s.wrs d 0 [(.trainRun, 0), (.trainMiss, min 8 (s.rd .trainMiss d + 1))]
    | some p => s.wrs d 0 [(.trainMiss, 0), (.trainAt, p.toNat),
        (.trainRun, if s.rd .trainAt d = p.toNat then min 4 (s.rd .trainRun d + 1) else 1)]
  let s := if s.acq n = 7 then s.wr .crFreqOffset d 0 rx.freq.toNat else s
  s.wrs d 0 [(.cleanRun, if s.on .outlierSeen d then 0 else min 64 (s.rd .cleanRun d + 1)), (.outlierSeen, 0)]

/-- What an SF boundary brings to a carrier's receiver (R167, R175, R190, R191, R193, R195). -/
def State.rxTick (s : State) (n : Nat) (rx : RxReport) : State :=
  let d := faceOf n
  let s := if s.on .fgCal d then s else (s.losTick n rx.rms).eqTick n rx
  let s := s.wr .eqFrozen d 0 (s.rd .eqFreeze d)
  if s.on .acqRestartPend d then (((s.wr .acqRestartPend d 0 0).acqCold n).discard n).nlcUpdate n else s

/-- The nonlinear steps of an SF counted: those run, and those granted and idle (R602). -/
def State.stepTick (s : State) (d : Die) : State :=
  let a := s.rd .nlcStepsActive d
  (s.count d 0x73 a).count d 0x74 (s.rd .nlcStepsGranted d - a)

/-- OVR_SF_LATCH (R109, R116, R125, R191): the latches of a Face die at an SF boundary. `peaks` holds the greatest code
magnitude of each ADC lane over the SF, `clips` the clipped samples of each DAC lane, `rx` what the receiver measured. -/
def execOvrSfLatch (n : Fin 4) (peaks : List (Fin 129)) (clips : List (BitVec 16)) (rx : RxReport) (s : State) :
    Host.Outcome State Fault Refusal :=
  let d := faceOf n
  if !s.hasCarrier n then .next s else
  let s := (List.range 4).foldl (fun s a => s.ovrLatch d a (peaks.getD a 0).val) s
  let s := (List.range 4).foldl (fun s a =>
    let k := (clips.getD a 0).toNat
    ((s.wr .dacClipSf d a k).count d (0x50 + 4 * a) k).count d (0x51 + 4 * a) (min 1 k)) s
  .next (((s.dacTick d).stepTick d).rxTick n rx)

/-- RX_LOCK_LOST (R167, R195): los; 8 SF without the training block; an offset above 6 GHz; 16 SF above the divergence limit. -/
def execRxLockLost (n : Fin 4) (cause : LockLoss) (s : State) : Host.Outcome State Fault Refusal :=
  let d := faceOf n
  let holds : Bool := match cause with
    | .los => s.on .acqLos d
    | .training => decide (8 ≤ s.rd .trainMiss d)
    | .freq => decide (2400 < (s.rdInt .crFreqOffset d).natAbs)
    | .divergence => decide (16 ≤ s.rd .errHighRun d)
  if s.acq n = 7 ∧ holds = true then .next (s.leaveTrack n) else .next s

/-- CD_EST_UPDATE (R157, R167): every 256 SF once the search has ended, the CDC value plus the residual that the equaliser's taps
show; frozen taps show none anew. -/
def execCdEstUpdate (n : Fin 4) (residual : BitVec 16) (s : State) : Host.Outcome State Fault Refusal :=
  let d := faceOf n
  if 3 ≤ s.acq n ∧ s.rd .cdUpdSf d + 256 ≤ s.sf then
    let s := s.wr .cdUpdSf d 0 s.sf
    if s.on .eqFrozen d then .next s
    else .next ((s.wrInt .cdcCdEst d 0 (s.rdInt .cdcValue d + residual.toInt)).nlcUpdate n)
  else .next s

/-- The subcarriers of a carrier's receive set (R169). -/
def State.subcarriers (s : State) (n : Nat) : Nat := 2 ^ min 4 (s.rd .rxSubcarriers (faceOf n))

/-- A phase in 2π / 65,536, and a quarter turn in it. -/
abbrev quarterTurn : Nat := 16384

/-- The multiple of π/2 nearest to a phase change (R177). -/
def turnsOf (jump : BitVec 16) : Nat := (jump.toNat + quarterTurn / 2) / quarterTurn % 4

/-- A phase lies within ±π/4 of k × π/2 (R177, R178). -/
def nearTurn (phase : BitVec 16) (k : Nat) : Bool :=
  decide ((phase - BitVec.ofNat 16 (k * quarterTurn)).toInt.natAbs ≤ quarterTurn / 2)

/-- SLIP_CANDIDATE (R170, R177, R178, R180): the refinement of a stream changes by more than π/4 between two symbols. The first of
several between two pilots gives the start, all give the rotation. -/
def execSlipCandidate (n : Fin 4) (pol : Fin 2) (sub : Fin 16) (jump : BitVec 16) (start : BitVec 20) (s : State) :
    Host.Outcome State Fault Refusal :=
  let d := faceOf n
  let i := streamIx pol sub
  if s.acq n ≠ 7 ∨ s.rd .crDdWin d = 0 ∨ s.subcarriers n ≤ sub.val ∨ jump.toInt.natAbs ≤ quarterTurn / 2 then .next s
  else if s.on .candOn d i then .next (s.wr .candK d i (s.rd .candK d i + turnsOf jump))
  else .next (s.wrs d i [(.candOn, 1), (.candK, turnsOf jump), (.candStart, start.toNat)])

/-- The pilot errors of a stream with a new one, newest first, and the estimate averaged over the cr_pilot_win pilots centred on the
pilot half a window back, with its change from the one before, by which it runs between pilots (R176). -/
def State.pilotError (s : State) (n i : Nat) (err : BitVec 16) : State :=
  let d := faceOf n
  let key := n * streamCount + i
  let l := (err.toInt :: (Cells.find key s.pilots).getD []).take 63
  let w := s.rd .crPilotWin d
  let s : State := { s with pilots := Cells.put key l s.pilots }
  if w = 0 ∨ l.length < w then s
  else
    let est := (l.take w).sum / (w : Int)
    (s.wrInt .crStep d i (est - s.rdInt .crEst d i)).wrInt .crEst d i est

/-- Symbol `t` fixes the phase of subcarrier `sub`: a training symbol or a pilot of it (R176, R214, R215). -/
def fixesPhase (nsub sub t : Nat) : Bool := (decide (t < 256) || isPilot nsub t) && t % nsub == sub % nsub

/-- PILOT_CHECK (R170, R176 to R180, R187, R190): `err` is the phase error of a pilot or training symbol against the estimate before
any jump, `dist` the squared distance of the restored point from its known value, `sf` and `pilot` its SF and symbol. An outlier is
counted in PHASE_LOCK and TRACK; a confirmed slip is counted and its record leaves in band. -/
def execPilotCheck (n : Fin 4) (pol : Fin 2) (sub : Fin 16) (err : BitVec 16) (dist : BitVec 32) (sf : BitVec 48) (pilot : BitVec 20)
    (s : State) : Host.Outcome State Fault Refusal :=
  let d := faceOf n
  let i := streamIx pol sub
  let nsub := s.subcarriers n
  if s.acq n < 6 ∨ nsub ≤ sub.val ∨ fixesPhase nsub sub pilot.toNat = false then .next s else
  let s := (s.pilotError n i err).noiseAdd d i (sf.toNat * 64 + pilot.toNat / lfLen) dist.toNat
  let k := s.rd .candK d i
  if !s.on .candOn d i then
    .next (if [1, 2, 3].any (nearTurn err) then ((s.inc .slipPilotOutliers d).count d 0x71).wr .outlierSeen d 0 1 else s)
  else
    let start := s.rd .candStart d i
    let s := s.wrs d i [(.candOn, 0), (.candK, 0), (.candStart, 0)]
    if nearTurn err k ∧ k ≠ 0 ∧ s.on .crSlipDetEn d then
      let stop := if start ≤ pilot.toNat then pilot.toNat else sfLen
      let at_ := if start ≤ pilot.toNat then sf.toNat else sf.toNat - 1
      let s := s.inc (if pol = 0 then .slipSlipsX else .slipSlipsY) d
      let s := (s.count d (0x6F + pol)).count d (0x76 + sub)
      .next { s with slipRecs := s.slipRecs ++ [⟨n, pol, sub, k, at_, start, stop⟩] }
    else .next (s.count d 0x72)

/-- SLIP_CLR (R204): clear_all clears the three outcome counters. -/
def execSlipClr (m c : Fin 2) (s : State) : Host.Outcome State Fault Refusal :=
  .next (s.writeReg (millAt m) .slipClearAll c fun s => s.zeros (millAt m) c [.slipCorrQueue, .slipRedecoded, .slipLate])

end Sys2Proof.Machine
end

