-- ==== Sys2Proof/Machine/Fec.lean ====
section
/-! DEFINITION. The decoder pool (R261 to R281), slip correction in the LLR queue (R181 to R184), and the FEC phase (R252,
R253). -/

namespace Sys2Proof.Machine

/-- The unit of a pool engine within its DEC domain (R261): engine e is unit e mod 17 of DEC domain e / 17. -/
def engUnit (e : Nat) : Nat := e % 17

/-- An engine under a canary test, its place taken by the spare. -/
def State.engTested (s : State) (d : Die) (e : Nat) : Bool :=
  s.canary.any fun c => c.die == d && c.kind == 1 && c.idx == e && c.mem == 0

/-- An engine takes positions: its domain in Run, not retired, not the spare, not under test (R261, R276, R277). -/
def State.engReady (s : State) (d : Die) (e : Nat) : Bool :=
  s.domSt d (e / 17) == 0 && !s.domInReset d (e / 17) && !s.on .decHold d (e / 17) &&
    !bit (s.rd .engRetired d (e / 17)) (engUnit e) && s.rd .engSpare d (e / 17) != engUnit e && !s.engTested d e

/-- The pool's status registers follow its engines and domains (R280). -/
def State.poolShow (s : State) (d : Die) : State :=
  let n := ((List.range 68).filter (s.engReady d)).length
  let run := ((List.range 4).map fun k => if s.domSt d k = 0 then 2 ^ k else 0).sum
  s.wrs d 0 [(.poolEnginesInService, n), (.poolDomainsRun, run)]

/-- A position begins its decoding anew from its channel LLRs (R183, R276, R609). -/
def Pos.fromLlrs (p : Pos) : Pos :=
  { p with iters := 0, converged := false, post := [], par := [], msgs := [], waits := false, unsat := 0, early := [] }

/-- The self-check failure of an engine (R276): the spare takes its place and its position restarts there; with no spare
left the engine stays in service. -/
def State.engFail (s : State) (d : Die) (e : Nat) : State :=
  let s := s.inc .selfchkFail d
  let k := e / 17
  if (s.canary.any fun c => c.die == d && c.kind == 1 && c.idx == e) = true then s
  else if s.rd .engSpare d k = 31 then
    ((s.wr .engSpareExhausted d k 1).raise Reason.spareExhausted (blkId d k) 1).canaryStart d 1 e true
  else
    let sp := k * 17 + s.rd .engSpare d k
    let s := (s.wrs d k [(.engSpare, 31), (.engSpareInUse, 1)]).canaryStart d 1 e
    let s : State := { s with
      pool := updateWhere (fun p => millOf p.n == d && p.phase == .decoding e)
        (fun p => { p.fromLlrs with phase := .decoding sp }) s.pool }
    s.poolShow d

/-- A carrier of the die is shedding (R267). -/
def State.carrierSheds (s : State) (n : Nat) : Bool := s.on .shedding (millOf n) (n % 2)

/-- Some carrier of the die is shedding (R280). -/
def State.dieSheds (s : State) (d : Die) : Bool := s.on .shedding d 0 || s.on .shedding d 1

/-- The count of unfinished positions and what it makes of the caps (R267, R281): judged at each arrival and at each
finish. A carrier that begins to shed wakes the parked DEC domains (R531). -/
def State.shedJudge (s : State) (n : Nat) (arrival : Bool) : State :=
  let d := millOf n
  let c := n % 2
  let u := (s.pool.filter fun p => p.n == n && p.phase != .finished).length
  let hm := s.rd .highAct d
  let lm := if hm ≤ s.rd .lowAct d then hm - 1 else s.rd .lowAct d
  let g := s.rd .decCapGrant d c
  let s := s.wrs d c [(.decUnfinished, u), (.decUnfinishedHwm, max u (s.rd .decUnfinishedHwm d c))]
  let sheds := (s.on .shedding d c && decide (lm ≤ u)) || decide (hm ≤ u)
  let cap := if !sheds then g
    else if arrival && decide (hm ≤ u) then
      max (max 1 (s.rd .shedMinAct d)) (g - 1 - (u - hm) / max 1 (s.rd .shedStepAct d))
    else s.rd .decCapEffective d c
  let s := if sheds && !s.on .shedding d c then s.wakeParked d else s
  let s := s.wrs d c [(.shedding, b2n sheds), (.decCapEffective, cap)]
  s.wr .poolShedding d 0 (b2n (s.dieSheds d))

/-- Tokens of one overtime iteration (R266). -/
def otCost (cls : Nat) : Nat := if cls = 0 then 2 else 3

/-- Overtime is available for one iteration of a position (R266). -/
def State.otOpen (s : State) (p : Pos) : Bool :=
  let d := millOf p.n
  s.on .otEnableAct d && decide (otCost p.cls ≤ s.rd .poolOtTokens d) && !s.dieSheds d

/-- Overtime credit for a re-decode (R270): tokens for cap_effective iterations, and time for them before the deadline. An
iteration takes 31.96 or 47.94 ns (R261). -/
def State.redecodeCredit (s : State) (p : Pos) : Bool :=
  let d := millOf p.n
  let cap := s.rd .decCapEffective d (p.n % 2)
  let iter := if p.cls = 0 then 3196 else 4794
  s.otOpen p && decide (cap * otCost p.cls ≤ s.rd .poolOtTokens d) &&
    decide (cap * iter * s.rq ≤ (p.done + 2 ^ 19 - s.tally) * 400)

/-- An iteration that runs on tokens is paid for (R266, R270). -/
def State.payOvertime (s : State) (p : Pos) : State :=
  let d := millOf p.n
  ((s.wr .poolOtTokens d 0 (s.rd .poolOtTokens d - otCost p.cls)).bump .decOtIterations d (p.n % 2)).count d (decAssay p.n + 38)

/-- Symbol periods of a carrier that its queue keeps correctable (R183). -/
abbrev slipWindow : Nat := 4096

/-- The symbols that a record names, as indices among the payload symbols of its SF (R183, R214). -/
def SlipRec.symbols (r : SlipRec) (nsub : Nat) : List Nat :=
  (streamSymbols nsub r.sub (max r.start (r.stop - slipWindow)) r.stop).map (payloadIndex nsub)

/-- The symbols of a record that lie in position j of its SF, as indices into the position (R183, R240). -/
def SlipRec.symbolsIn (r : SlipRec) (nsub j : Nat) : List Nat :=
  (r.symbols nsub).filterMap fun i => if i / posLen = j then some (i % posLen) else none

/-- A position's words with a record's symbols corrected, by the label layout of its own far SF (R181, R182). -/
def Pos.corrected (p : Pos) (r : SlipRec) (nsub : Nat) : Pos :=
  let idx := r.symbolsIn nsub p.j
  { p with llrs := p.llrs.zipIdx.map fun q => if idx.contains q.2 then unrotateSym r.pol r.k q.1 else q.1 }

/-- A record touches a position. -/
def SlipRec.touches (r : SlipRec) (p : Pos) (nsub : Nat) : Bool :=
  p.n == r.n && p.sf == r.sf && !(r.symbolsIn nsub p.j).isEmpty

/-- The place of the newest position that the queue of a carrier has taken; none before its first. -/
def State.newest (s : State) (n : Nat) : Option Nat :=
  ((s.poolPast ++ s.pool).filter (·.n == n)).getLast?.map (·.place)

/-- Part of a record lies in positions that still fill (R183). -/
def State.stillFills (s : State) (r : SlipRec) (nsub : Nat) : Bool :=
  (r.symbols nsub).any fun i => match s.newest r.n with
    | none => true
    | some k => decide (k < r.sf * 252 + i / posLen)

/-- One position that a record names (R183, R184, R270): corrected before an iteration has consumed it, decoded again on tokens, or
late. -/
def State.slipInto (s : State) (r : SlipRec) (nsub : Nat) (p : Pos) : State × Pos :=
  let d := millOf p.n
  let c := p.n % 2
  match p.phase with
  | .waiting => (s, p.corrected r nsub)
  | .decoding _ | .finished =>
    if s.redecodeCredit p then
      let s := if p.redecoded then s else (s.inc .slipRedecoded d c).count d (decAssay p.n + 37)
      let q := { (p.corrected r nsub).fromLlrs with redecoding := true, redecoded := true }
      if p.phase = .finished then (s, { q with phase := .waiting })
      else (s.payOvertime p, { q with overtime := p.overtime + 1 })
    else (if p.late then s else s.inc .slipLate d c, { p with late := true })

/-- A record applied to the positions it names. -/
def State.slipApply (s : State) (r : SlipRec) (nsub : Nat) : List Pos → State × List Pos
  | [] => (s, [])
  | p :: l =>
    let q := if r.touches p nsub then s.slipInto r nsub p else (s, p)
    let t := q.1.slipApply r nsub l
    (t.1, q.2 :: t.2)

/-- SLIP_RECORD (R181 to R184): the oldest record of the carrier reaches its Mill die. Symbols that no iteration has consumed are
corrected in the queue, those of a position that still fills when it is complete; the record then counts once. -/
def execSlipRecord (n : Fin 4) (s : State) : Host.Outcome State Fault Refusal :=
  match s.slipRecs.find? (·.n == n.val) with
  | none => .next s
  | some r =>
    let nsub := s.subcarriers n
    let s : State := { s with slipRecs := s.slipRecs.erase r }
    let fills := s.stillFills r nsub
    let waits := s.pool.any fun p => r.touches p nsub && p.phase == .waiting && !p.redecoding
    let s := if fills || waits then s.inc .slipCorrQueue (millOf n) (n % 2) else s
    let s : State := if fills then { s with slipFixes := s.slipFixes ++ [r] } else s
    let t := s.slipApply r nsub s.pool
    .next (State.shedJudge { t.1 with pool := t.2 } n false)

/-- The rate values of an announcement's key (R288). -/
def keyRate (key : Nat) : LineRate := ⟨key / 2 ^ 11 % 4, key / 2 ^ 9 % 4, key % 512, key / 2 ^ 13 % 2 ^ 11⟩

/-- The receive rate of a far SF as its LLRs come to the queue (R71, R76, R232): from the target of a receive swap to come, of a
commit or of an announcement last seen alive, the staged one, though the deframer reaches that SF later. -/
def State.rxRateAt (s : State) (n sf : Nat) : LineRate :=
  let d := millOf n
  let c := n % 2
  let key := s.rd .annStagedKey d c
  if s.on .lrxAnnStaged d c && s.rd .rtLastState d c == 1 && decide (key / 2 ^ 24 ≤ sf) then keyRate key
  else match s.commit with
    | none => s.rxRate .live n
    | some x =>
      let t := x.rx.getD n 0
      if x.goSent && x.rxLeft.contains n && t != 0 && decide (t ≤ sf) && s.on .farValid d c then s.rxRate .staged n
      else s.rxRate .live n

/-- Buffer slots of 256 bytes that the 4-bit words of a position fill (R21). -/
def posSlots (cls : Nat) : Nat := ceilDiv (posBits cls * 4) (8 * 256)

/-- Credits of a Face die's line-traffic queue spent or returned (R21, R23, R42): the die never waits on them, and never holds
more than were advertised. -/
def State.lineCredits (s : State) (d : Die) (f : Nat → Nat) : State :=
  s.wrFree .winzCreditsAvail d 0 (min (s.rdFree .winzCreditsMax d) (f (s.rdFree .winzCreditsAvail d)))

/-- The rate of a position that arrives, and whether it begins a chain of its own: its class or code is not that of the position
before (R248, R251). -/
def State.chainTurns (s : State) (n : Nat) (r : LineRate) : Bool :=
  match ((s.poolPast ++ s.pool).filter (·.n == n)).getLast? with
  | none => false
  | some q => q.cls != r.cls || q.code != r.code

/-- POSITION_COMPLETE (R21, R151, R187, R248, R251, R262, R267, R608): the last LLR of a position has arrived; its symbols are
demapped to words, the tag generator steps, and corrections that waited for it are applied. A joining chain takes its first
position at an SF boundary. -/
def execPositionComplete (n : Fin 4) (sf : BitVec 48) (j : Fin 252) (syms : List RxSym) (first : Nat) (s : State) :
    Host.Outcome State Fault Refusal :=
  let d := millOf n
  let c := n.val % 2
  if s.acq n ≠ 7 ∨ s.on .decChainRunning d c = false ∨ syms.length ≠ posLen ∨ (s.on .chainWait d c = true ∧ j.val ≠ 0) then .next s else
  let nsub := s.subcarriers n
  let r := s.rxRateAt n sf.toNat
  let next := s.rxRateAt n (sf.toNat + 1)
  let w := s.demap n r.cls (composition r.cls r.h) nsub sf.toNat (posLen * j) syms
  let s := w.1
  let joinLeft := s.rd .joinLeft d c
  let s := s.count d (decAssay n + 40) (min 1 joinLeft)
  let at_ := if s.chainTurns n r then 0 else if s.on .chainJoin d c then 2 else s.rd .chainPos d c
  let g := tagStep (s.rd .tagGen d) (s.tagBits d)
  let s := (s.wr .tagGen d 0 g.1).wrs d c [(.joinLeft, joinLeft - 1), (.chainWait, 0), (.chainPos, min 2 (at_ + 1)),
    (.chainJoin, b2n (s.on .chainJoin d c && !s.chainTurns n r))]
  let s := s.lineCredits (faceOf n) fun k => k - posSlots r.cls
  let p : Pos := ⟨n, sf.toNat, j, s.tally, w.2, .waiting, 0, 0, false, false, false, false, decide (0 < joinLeft), first,
    g.2 && s.on .tagEn d, 0, 0, 0, 0, r.cls, r.code, r.m, r.h, j.val == 251 && (next.cls != r.cls || next.code != r.code),
    at_, [], [], [], false, 0, []⟩
  let mine := s.slipFixes.filter fun r => r.touches p nsub
  let p := mine.foldl (fun p r => p.corrected r nsub) p
  let s : State := { s with pool := s.pool ++ [p] }
  .next (State.shedJudge { s with slipFixes := s.slipFixes.filter fun r => !(mine.contains r && !s.stillFills r nsub) } n true)

/-- The first position that passes replaced. -/
def replaceFirst (p : Pos → Bool) (f : Pos → Pos) : List Pos → List Pos
  | [] => []
  | a :: l => if p a then f a :: l else a :: replaceFirst p f l

/-- A position may be taken: complete and waiting, and with a token for its first iteration where it is decoded again (R262,
R270). -/
def State.takes (s : State) (d : Die) (p : Pos) : Bool :=
  millOf p.n == d && p.phase == .waiting && (!p.redecoding || s.otOpen p)

/-- POSITION_DISPATCH (R261, R262, R270): a free engine takes the oldest complete position of its die. -/
def execPositionDispatch (m : Fin 2) (engine : Fin 68) (s : State) : Host.Outcome State Fault Refusal :=
  let d := millAt m
  let busy := s.pool.any fun p => millOf p.n == d && p.phase == .decoding engine
  if busy || !s.engReady d engine then .next s
  else match s.pool.find? (s.takes d) with
    | none => .next s
    | some p =>
      let t := if p.redecoding then s.payOvertime p else s
      .next { t with
        pool := replaceFirst (s.takes d)
          (fun p => { p with phase := .decoding engine, engine := engine, start := s.tally, overtime := p.overtime + b2n p.redecoding })
          s.pool }

/-- The decisions of a position now, in line order (R271). -/
def Pos.decided (p : Pos) : List Nat := p.post.map hard

/-- One iteration of the position in an engine (R263, R270 to R272): its values and messages, and the values of the two before it where
they have not finished. After the first iteration its decisions are the early look, and its unsatisfied checks are kept. -/
def State.iterated (s : State) (here : Pos → Bool) (p : Pos) : State :=
  let c := s.decCode p
  let r := s.iterate c p
  let others (q : Pos) : Pos :=
    match (r.2.find? fun e => q.n == p.n && q.phase != .finished && e.1 == q.place).filter fun e => !e.2.isEmpty with
    | some e => { c.load q with post := e.2 }
    | none => q
  let q := { r.1 with iters := p.iters + 1 }
  let s : State := { s with pool := (replaceFirst here (fun _ => q) s.pool).map fun x => if here x then x else others x }
  let s := s.bump .decIterSum (millOf p.n) (p.n % 2)
  if p.iters = 0 then
    { s with pool := replaceFirst here (fun q => { q with unsat := s.unsatisfied c q, early := q.decided }) s.pool }
  else s

/-- A position finishes (R264), counted by its iterations, and as an early termination where et_min let it converge (R602). -/
def State.finishPos (s : State) (here : Pos → Bool) (p : Pos) (ok : Bool) : State :=
  let cap := s.rd .decCapEffective (millOf p.n) (p.n % 2)
  let d := millOf p.n
  let s := if 1 ≤ p.iters ∧ p.iters ≤ 32 then s.count d (decAssay p.n + p.iters - 1) else s
  let s := if ok ∧ p.iters = max 1 (s.rd .etMinAct d) then s.count d (decAssay p.n + 39) else s
  State.shedJudge { s with
    pool := replaceFirst here
      (fun p => { p with phase := .finished, converged := ok, waits := false, fin := s.tally, cap := cap }) s.pool } p.n false

/-- ITERATION_END (R263 to R266, R270, R271, R274): the iteration's work is done and judged. A position whose checks all hold with those
of the next two finishes, or waits for those two to arrive (assumption 69); else it runs on, with tokens beyond its cap, or finishes.
`misreport` is an engine that reports convergence without it: the domain's own checker finds it. -/
def execIterationEnd (m : Fin 2) (engine : Fin 68) (misreport : Bool) (s : State) : Host.Outcome State Fault Refusal :=
  let d := millAt m
  let here (p : Pos) : Bool := millOf p.n == d && p.phase == .decoding engine
  match s.pool.find? here with
  | none => .next s
  | some p =>
    let s := if p.waits then s else s.iterated here p
    let p := (s.pool.find? here).getD p
    let c := s.decCode p
    let old := decide (max 1 (s.rd .etMinAct d) ≤ p.iters)
    let holds := s.allSatisfied c p
    let more (ot : Bool) (s : State) : State :=
      { s with pool := replaceFirst here (fun p => { p with waits := false, overtime := p.overtime + b2n ot }) s.pool }
    if old && (misreport || (holds && s.followed p)) then
      if s.unsatisfied c p = 0 then .next (s.finishPos here p true) else .next ((s.finishPos here p false).engFail d engine)
    else if old && holds then .next { s with pool := replaceFirst here (fun p => { p with waits := true }) s.pool }
    else if max 8 (s.rd .iterMaxAct d) ≤ p.iters then .next (s.finishPos here p false)
    else if p.iters < s.rd .decCapEffective d (p.n % 2) ∧ ¬ p.redecoding then .next (more false s)
    else if s.otOpen p then .next (more true (s.payOvertime p))
    else .next (s.finishPos here p false)

/-- A position's outcome (R273). -/
def Pos.outcome (p : Pos) : Nat :=
  if p.phase ≠ .finished then 4
  else if p.late then 3
  else if !p.converged then 2
  else if 0 < p.overtime then 1
  else 0

/-- The counters of a release (R268, R273, R281). -/
def State.countRelease (s : State) (p : Pos) : State :=
  let d := millOf p.n
  let c := p.n % 2
  let s := (s.bump .decReleased d c).count d (decAssay p.n + 32 + p.outcome)
  if p.outcome = 2 then s.inc .decCapped d c else if p.outcome = 4 then s.inc .decShedBlocks d c else s

/-- A released position's share of the pre-FEC estimate (R272): decisions changed where it converged, else p × N. One shed before its
first iteration ended counts the checks that its channel decisions leave unsatisfied (assumption 68). -/
def State.countErrors (s : State) (p : Pos) : State :=
  let d := millOf p.n
  let c := s.decCode p
  let e := if p.outcome ≤ 1 then 2 ^ 24 * c.changed p else c.estimate p
  ((s.bump .berErrs d (p.n % 2) e).bump .berBits d (p.n % 2) (posBits p.cls)).pmCount (0x80 + p.n) 0 9 p.sf (·.position p.outcome e)

/-- The FEC phase test that a position makes (R252). -/
def DecCode.phaseTest (c : DecCode) (p : Pos) : PhaseTest :=
  let q := c.load p
  ⟨p.sf, p.j, hard (q.post.getLastD 0), (p.word c.cls (swingSlot c.cls c.code) 0).toNat / 8, hard (q.par.getLastD 0)⟩

/-- The shaping phase with which a released position goes through the dematcher (R210, R295, R301): its far SF modulo 64 where the phase is
locked or the far tally valid, else that of the candidate, which the deframer steps 3 × 2^19 symbol periods later (R260). -/
def State.shapePhaseOf (s : State) (p : Pos) : Nat :=
  let d := millOf p.n
  let c := p.n % 2
  if s.on .farValid d c || s.on .frmShapeLocked d c then p.sf % 64
  else (s.rd .frmShapePhase d c + if 126 ≤ p.j then 1 else 2) % 64

/-- What a released position gives the dematcher and the outer decoder (R210, R213, R252, R255 to R259): nothing until the FEC phase is
known, when it is a test of it. dm_mismatch counts while the shaping phase is locked (R295). -/
def State.passOn (s : State) (p : Pos) : State :=
  let d := millOf p.n
  let i := p.n % 2
  let c := s.decCode p
  let x := (Cells.find p.n s.rxLine).getD {}
  if !c.known then { s with rxLine := Cells.put p.n { x with tests := x.tests ++ [c.phaseTest p] } s.rxLine }
  else
    let r := p.rate
    let dims := c.dims p
    let phase := s.shapePhaseOf p
    let y := RxLine.takeSyms r (checkCase p.cls p.code p.sf p.j) phase p.j posLen 0 dims
      (x.takeChecks r phase p.sf p.j (outerChecks r dims), 0)
    let z := RxLine.settle p.cls y.1.segs.length y.1 0 0
    let s : State := { s with rxLine := Cells.put p.n z.1 s.rxLine }
    let s := if s.on .frmShapeLocked d i then (s.inc .lrxDmMismatch d i y.2).count d (decAssay p.n + 41) y.2 else s
    (((s.inc .decOuterCorr d i z.2.1).inc .decOuterUncorr d i z.2.2).count d (decAssay p.n + 42) z.2.1).count d (decAssay p.n + 43) z.2.2

/-- The tag record of a released position (R608, R609). -/
def State.tagPosition (s : State) (p : Pos) (unsat changed : Nat) : State :=
  if !p.tagged then s else
  let since (t : Nat) : List Byte := leBytes 4 (t - p.first)
  s.emit 0x00C (b2n (millOf p.n == .m1)) 0x03 p.first
    ([BitVec.ofNat 8 p.n, BitVec.ofNat 8 (p.outcome + 16 * b2n p.redecoded)] ++ leBytes 2 p.j ++ leBytes 6 p.sf ++
      [BitVec.ofNat 8 p.iters, BitVec.ofNat 8 p.overtime, BitVec.ofNat 8 p.cap, BitVec.ofNat 8 p.engine] ++ leBytes 2 unsat ++
      leBytes 2 changed ++ leBytes 2 0 ++ since p.done ++ since p.start ++ since p.fin ++ since s.tally ++
      since (p.done + 2 ^ 21))

/-- POSITION_RELEASE (R21, R213, R252, R259, R260, R268, R272): the carrier's oldest position, 2^19 symbol periods after it became
complete, with its present decisions; as SHED where it has not finished. The two released last stay for the checks of those after
them (R246). -/
def execPositionRelease (n : Fin 4) (s : State) : Host.Outcome State Fault Refusal :=
  match s.pool.find? (·.n == n.val) with
  | none => .next s
  | some p =>
    if s.tally < p.done + 2 ^ 19 then .next s else
    let c := s.decCode p
    let p' := if p.iters = 0 then { p with unsat := s.unsatisfied c p } else p
    let s := (((s.countRelease p).countErrors p').tagPosition p p'.unsat (c.changed p)).passOn p
    let s := s.lineCredits (faceOf n) fun k => k + posSlots p.cls
    let past := s.poolPast.filter (·.n == n.val)
    .next (State.shedJudge { s with
      pool := s.pool.erase p
      poolPast := s.poolPast.filter (·.n != n.val) ++ past.drop (past.length - 1) ++ [p] } n false)

/-- OT_TOKEN_RELOAD (R266, R279): at each SF boundary; the pool's configuration takes effect with it. -/
def execOtTokenReload (m : Fin 2) (s : State) : Host.Outcome State Fault Refusal :=
  let d := millAt m
  .next ((s.wr .poolOtTokens d 0 (s.rd .poolOtGrant d)).wrs d 0 [(.highAct, s.rd .poolHighMark d), (.lowAct, s.rd .poolLowMark d),
    (.shedStepAct, s.rd .poolShedStep d), (.shedMinAct, s.rd .poolShedMinIter d), (.iterMaxAct, s.rd .poolIterMaxOt d),
    (.otEnableAct, s.rd .poolOtEnable d), (.etMinAct, s.rd .poolEtMin d), (.katEnAct, s.rd .poolKatEn d),
    (.katPeriodAct, s.rd .poolKatPeriod d)])

/-- The next engine in turn that is in service, if one is. -/
def State.nextKat (s : State) (d : Die) : Option Nat :=
  ((List.range 68).map fun k => (s.rd .katNext d + k) % 68).find? (s.engReady d)

/-- The payload of a known-answer position (R275): the payload bits of a 16QAM-class DVC-25 position, from the generator of R217 seeded
with 0x1F3D. -/
def katPayload : List Nat := signs (innerVars 0 2 - outerSlots 0) 0x1F3D

/-- KAT_TEST (R275): the known-answer test due since the last multiple of kat_period × 256 SF, on the next engine in turn, whose answer is
`answer`; or skipped, where 256 SF have brought no opportunity (assumption 70). -/
def execKatTest (m : Fin 2) (answer : List Bool) (s : State) : Host.Outcome State Fault Refusal :=
  let d := millAt m
  let period := s.rd .katPeriodAct d * 256
  if !s.on .katEnAct d || period == 0 || s.rd .katServed d == s.sf / period * period + 1 then .next s
  else
    let done := s.wr .katServed d 0 (s.sf / period * period + 1)
    if 256 ≤ s.sf % period then .next (done.inc .selfchkKatSkipped d)
    else if s.dieSheds d then .next s
    else match s.nextKat d with
      | none => .next s
      | some e =>
        let s := done.wr .katNext d 0 ((e + 1) % 68)
        .next (if answer.map b2n = katPayload then s else s.engFail d e)

/-- The phase a window's mismatch counts give (R252): one at most 2, every other at least 16. -/
def adoptPhase (period : Nat) (m : List Nat) : Option Nat :=
  (List.range period).find? fun k => decide (m.getD k 0 ≤ 2) &&
    (List.range period).all fun j => j == k || decide (16 ≤ m.getD j 0)

/-- A test mismatches where its SF has residue s modulo D (R252). -/
def PhaseTest.mismatch (cls code s : Nat) (t : PhaseTest) : Bool :=
  if checkCase cls code s t.j then t.swing == 1 || t.slot != t.par else t.slot != t.swing

/-- The mismatch counts of a window of tests that ends with SF `last`, for each residue that this SF may have (R252). -/
def phaseCounts (cls code last : Nat) (l : List PhaseTest) : List Nat :=
  let period := phasePeriod cls code
  (List.range period).map fun k => (l.filter fun t => t.mismatch cls code (k + period - (last - t.sf) % period)).length

/-- Positions in a window of 4 SF (R252). -/
abbrev phaseWindow : Nat := 4 * 252

/-- FEC_PHASE_WINDOW (R51, R252, R253): four SF of tests judged. A phase adopted is that of the window's last SF, one ahead of the
deframer's (R260); with far_valid the far value stands, and a hunted phase that differs sets phase_conflict. -/
def execFecPhaseWindow (n : Fin 4) (s : State) : Host.Outcome State Fault Refusal :=
  let d := millOf n
  let c := n.val % 2
  let r := s.rxRate .live n
  let period := phasePeriod r.cls r.code
  let x := (Cells.find n.val s.rxLine).getD {}
  if s.on .decChainRunning d c = false ∨ period = 1 ∨ x.tests.length < phaseWindow then .next s else
  let last := (x.tests.getLast?.map (·.sf)).getD 0
  let s : State := { s with rxLine := Cells.put n.val { x with tests := [] } s.rxLine }
  match adoptPhase period (phaseCounts r.cls r.code last (x.tests.drop (x.tests.length - phaseWindow))) with
  | none => .next s
  | some k =>
    let k := (k + period - 1) % period
    let live := s.rd .farLiveSf d c
    if s.on .farValid d c then
      let s := s.wrs d c [(.decPhaseKnown, 1), (.decPhase, live % period)]
      .next (if k = live % period then s
        else (s.wr .decPhaseConflict d c 1).raise Reason.fecPhase (blkId d Dom.frame c) 0 0 (some live))
    else
      let s := s.wrs d c [(.decPhaseKnown, 1), (.decPhase, k)]
      .next (if s.rd .frmState d c = 0 then s.wrs d c [(.frmState, 1), (.huntPos, 0), (.huntSince, s.sf)] else s)

/-- The counters DEC_CNT_CLR clears, 0x08 to 0x20 (R281). -/
def decCounters : List Fld :=
  [.decReleased, .decIterSum, .decOtIterations, .decCapped, .decShedBlocks, .decOuterCorr, .decOuterUncorr]

/-- DEC_CNT_CLR (R281). -/
def execDecCntClr (m c : Fin 2) (s : State) : Host.Outcome State Fault Refusal := .next (s.writeReg (millAt m) .decClearAll c fun s => s.zeros (millAt m) c decCounters)

/-- UNFINISHED_HWM_READ (R281, R655): the read returns the word before the reset of the mark (R656). -/
def execUnfinishedHwmRead (m c : Fin 2) (s : State) : Host.Outcome State Fault Refusal :=
  let d := millAt m
  .next (s.readReg d .decUnfinishedHwm c fun s =>
    (s.wr .decUnfinishedHwm d c (s.rd .decUnfinished d c), s.wordOf d .decUnfinishedHwm c))

end Sys2Proof.Machine
end

