-- ==== Sys2Proof/Machine/Groups.lean ====
section
/-! DEFINITION. Line groups (R304 to R316): the reference and skew of each far SF, members leaving and returning, release. -/

namespace Sys2Proof.Machine

/-- A member's instance in a group's per-member fields. -/
def mem4 (g n : Nat) : Nat := g * 4 + n

/-- W of a group in symbol periods (R309); a group of one member has no skew buffer (R305). -/
def State.groupW (s : State) (g : Nat) : Nat := if (s.rxMembers g).length ≤ 1 then 0 else s.rd .lgSkewMaxSf .m0 g * sfLen

/-- A bit of a group's member mask. -/
def State.setMask (s : State) (f : Fld) (g n : Nat) (v : Bool) : State :=
  let m := s.rd f .m0 g
  s.wr f .m0 g (if bit m n = v then m else if v then m + 2 ^ n else m - 2 ^ n)

/-- A member of a group is in service (R316). -/
def State.inService (s : State) (g n : Nat) : Bool := bit (s.rd .lgInService .m0 g) n

/-- The home die of a group: the Mill die of member 0 (R314). -/
def State.homeDie (s : State) (g : Nat) : Die := ((s.rxMembers g).head?.map millOf).getD .m0

/-- The link that a member on the other Mill die needs is up (R314). -/
def State.memberLink (s : State) (g n : Nat) : Bool := millOf n == s.homeDie g || s.on .winzLinkUp .m0 2

/-- The group spans both Mill dies (R314). -/
def State.spans (s : State) (g : Nat) : Bool := (s.rxMembers g).any fun n => millOf n != s.homeDie g

/-- a_e of a far SF of a group, where it is recorded (R309). -/
def State.refAt (s : State) (g sf : Nat) : Option Nat :=
  (s.groupRef.find? fun e => e.1 == g && e.2.1 == sf).map (·.2.2)

/-- a_e of a far SF, carried from the latest one recorded where the SF itself is not (assumption 18). -/
def State.refNear (s : State) (g sf : Nat) : Option Int :=
  match s.refAt g sf with
  | some a => some (a : Int)
  | none => ((s.groupRef.filter fun e => e.1 == g).getLast?).map fun e => (e.2.2 : Int) + ((sf : Int) - e.2.1) * sfLen

/-- a_e of a far SF recorded; those more than W and 128 SF behind are dropped. On a group that spans both Mill dies the
release position leaves for the other die (R309, R314). -/
def State.setRef (s : State) (g sf a : Nat) : State :=
  let keep := s.rd .lgSkewMaxSf .m0 g + 128
  let s : State := { s with groupRef := (s.groupRef.filter fun e => e.1 != g || (e.2.1 != sf && decide (sf < e.2.1 + keep))) ++ [(g, sf, a)] }
  if s.spans g then { s with relMsgs := s.relMsgs ++ [(g, sf, a + s.groupW g)] } else s

/-- A reference chosen, or none (R309, R312). -/
def State.chooseRef (s : State) (g : Nat) (n : Option Nat) : State :=
  let s : State := { s with groupRef := s.groupRef.filter (·.1 != g) }
  let s := (List.range 4).foldl (fun s k => s.wr .lgResume .m0 (mem4 g k) 0) s
  match n with
  | none => s.wr .lgRefValid .m0 g 0
  | some n => s.wrs .m0 g [(.lgRefValid, 1), (.lgRefCarrier, n)]

/-- Events about a member name its FRAME domain and local carrier, the group in arg0 (assumption 14). -/
def State.raiseMember (s : State) (reason g n : Nat) (far : Option Nat) : State :=
  s.raise reason (blkId (millOf n) Dom.frame (n % 2)) g 0 far

/-- A member leaves service (R310). -/
def State.memberOut (s : State) (g n far : Nat) (skew : Bool) : State :=
  let s := (s.setMask .lgInService g n false).wrs .m0 (mem4 g n) [(.lgWas, 1), (.lgRun, 0), (.lgResume, 0)]
  let s := if skew then s.setMask .lgSkewDefect g n true else s
  let s := (s.inc .lgMemberExits .m0 g).raiseMember Reason.memberOut g n (some far)
  let s := if s.rd .lgInService .m0 g = 0 then s.wr .lgIdleSince .m0 g s.sf else s
  s.groupShow n

/-- A member enters service (R309, R311). -/
def State.memberEnter (s : State) (g n : Nat) : State :=
  ((s.setMask .lgInService g n true).wr .lgResume .m0 (mem4 g n) 0).groupShow n

/-- The member of a group is lost at once: its carrier left SYNC or far_valid cleared (R308, R310). -/
def State.memberLost (s : State) (n : Nat) : State :=
  match s.groupOf n with
  | none => s
  | some g =>
    let far := s.rd .farLiveSf (millOf n) (n % 2)
    let s := if s.inService g n then s.memberOut g n far false else s
    (s.wrs .m0 (mem4 g n) [(.lgRun, 0), (.lgResume, 0)]).wr .lgSigmaValid .m0 (mem4 g n) 0

/-- R308 is judged for one far SF of a member, its skew being known (R308 to R311). A member that has never left service
enters at its first far SF that meets R308 (assumption 18). -/
def State.judgeMember (s : State) (g n far : Nat) (sigma : Int) : State :=
  let i := mem4 g n
  let skewOk := decide (0 ≤ sigma ∧ sigma ≤ (s.groupW g : Int))
  let ok := s.on .ohIdsOk (millOf n) (n % 2) && s.memberLink g n && skewOk && s.rd .frmState (millOf n) (n % 2) == 3 &&
    s.on .farValid (millOf n) (n % 2)
  let run := s.rd .lgRun .m0 i
  let row := if s.rd .lgLastFar .m0 i + 1 = far ∨ run = 0 then min 127 (run + 1) else 1
  let s := s.wrs .m0 i [(.lgSkew, ofInt 70 sigma), (.lgSigma, ofInt 24 (sigma / 1024)), (.lgSigmaValid, 1), (.lgLastFar, far)]
  if s.inService g n then (if ok then s else s.memberOut g n far (!skewOk))
  else if !ok then s.wrs .m0 i [(.lgRun, 0), (.lgResume, 0)]
  else if !s.on .lgWas .m0 i then (s.wr .lgRun .m0 i row).memberEnter g n
  else
    let s := s.wr .lgRun .m0 i row
    if 64 ≤ row ∧ s.rd .lgResume .m0 i = 0 then s.wr .lgResume .m0 i ((far / 64 + 1) * 64) else s

/-- The member with the least last measured skew among those in service (R309). -/
def State.earliest (s : State) (g : Nat) : Option Nat :=
  ((s.rxMembers g).filter (s.inService g)).foldl (fun best n =>
    match best with
    | none => some n
    | some b => if toInt 70 (s.rd .lgSkew .m0 (mem4 g n)) < toInt 70 (s.rd .lgSkew .m0 (mem4 g b)) then some n else some b) none

/-- A far SF of a member has arrived: the reference is set, kept or taken over, and the member is judged (R309). -/
def State.memberArrival (s : State) (n far arr : Nat) : State :=
  match s.groupOf n with
  | none => s
  | some g =>
    let s := if s.on .lgRestart .m0 g then
        let r := s.earliest g
        ((s.wr .lgRestart .m0 g 0).chooseRef g r).wr .lgMuteUntil .m0 g (arr + s.groupW g)
      else s
    let s := if !s.on .lgRefValid .m0 g && s.on .ohIdsOk (millOf n) (n % 2) && s.memberLink g n then s.chooseRef g (some n) else s
    let live := (s.rxMembers g).filter (s.inService g)
    let ref := s.rd .lgRefCarrier .m0 g
    let s := if !s.on .lgRefValid .m0 g || (s.refAt g far).isSome then s
      else if ref = n ∧ (live.contains n = true ∨ live = []) then s.setRef g far arr
      else if !live.contains ref ∧ live.head? = some n then
        s.setRef g far ((arr : Int) - toInt 70 (s.rd .lgSkew .m0 (mem4 g n))).toNat
      else s
    if !s.on .lgRefValid .m0 g then s else
    match s.refNear g far with
    | none => s
    | some a => s.judgeMember g n far ((arr : Int) - a)

/-- MEMBER_IN (R311): the far SF at which a returning member's slices resume has come to its release. -/
def execMemberIn (n : Fin 4) (s : State) : Host.Outcome State Fault Refusal :=
  match s.groupOf n with
  | none => .next s
  | some g =>
    let r := s.rd .lgResume .m0 (mem4 g n)
    match s.refNear g r with
    | none => .next s
    | some a =>
      if r = 0 ∨ s.inService g n = true ∨ (s.tally : Int) < a + s.groupW g then .next s
      else .next (((s.inc .lgMemberReturns .m0 g).raiseMember Reason.memberIn g n (some r)).memberEnter g n)

/-- GROUP_RELEASE (R309): the content of the latest far SF whose R(s) has come is released for every member. -/
def execGroupRelease (g : Fin 4) (s : State) : Host.Outcome State Fault Refusal :=
  let due := s.groupRef.filter fun e => e.1 == g.val && decide (e.2.2 + s.groupW g ≤ s.tally)
  match due.getLast? with
  | none => .next s
  | some e => if s.on .lgRefValid .m0 g && decide (s.rd .lgMuteUntil .m0 g ≤ s.tally)
      then .next (s.wr .lgReleased .m0 g e.2.1) else .next s

/-- RELEASE_POSITION_MSG (R314): the oldest release position of a group reaches the other Mill die, over a link that is
up. -/
def execReleasePositionMsg (g : Fin 4) (s : State) : Host.Outcome State Fault Refusal :=
  match s.relMsgs.find? (·.1 == g.val) with
  | none => .next s
  | some m =>
    let s : State := { s with relMsgs := s.relMsgs.erase m }
    if s.on .winzLinkUp .m0 2 then .next (s.wr .lgFarRelease .m0 g m.2.1) else .next s

/-- REF_CLEAR (R312): no member in service for 256 far SFs, counted as SFs of the package tally (assumption 18). -/
def execRefClear (g : Fin 4) (s : State) : Host.Outcome State Fault Refusal :=
  if s.on .lgRefValid .m0 g && s.rd .lgInService .m0 g == 0 && decide (s.rd .lgIdleSince .m0 g + 256 ≤ s.sf)
  then .next (s.chooseRef g none) else .next s

/-- REF_RESTART (R312): ref_restart is written; the next far SF boundary sets a new reference. -/
def execRefRestart (g : Fin 4) (s : State) : Host.Outcome State Fault Refusal := .next (s.wr .lgRestart .m0 g 1)

end Sys2Proof.Machine
end

