-- ==== Sys2Proof/Machine/Mymos.lean ====
section
/-! DEFINITION. The Mymos line frame (R19, R20, R282 to R303): frames sent, the SF overhead sent and received, finding and
losing the frame, far tallies (R52 to R54), announced retunes and key changes (R231 to R235, R417). -/

namespace Sys2Proof.Machine

/-- A field placed in an SF overhead at bits lo to hi (R288). -/
def ohPut (lo hi v : Nat) : Nat := v % 2 ^ (hi + 1 - lo) * 2 ^ (255 - hi)

/-- The rate values of an announcement packed: h, class, code, M (R288). -/
def packRate (r : LineRate) : Nat := ((r.h * 4 + r.cls) * 4 + r.code) * 512 + r.m

/-- The carrier's Face die sends light of its own: enabled and powered (R119, R124). -/
def State.lineOn (s : State) (n : Nat) : Bool :=
  s.hasCarrier n && s.on .dacTxEnable (faceOf n) && s.domSt (faceOf n) Dom.txdsp == 0 && s.domSt (faceOf n) Dom.convTx == 0 &&
    !s.domInReset (faceOf n) Dom.txdsp

/-- The SF overhead that a carrier sends for the present SF (R229, R288 to R290, R305, R416). -/
def State.overheadOf (s : State) (n : Nat) (msg : Option Byte) (ptr mfas : Nat) : BitVec 256 :=
  let d := millOf n
  let c := n % 2
  let g := (s.txGroupOf .live n).getD n
  let mem := s.txMembers .live g
  let r := s.txRate .live n
  let st := s.rd .annTxState d c
  let t := s.rd .annTxTarget d c
  let st := if t ≤ s.sf then 0 else st
  let rt := if s.on .annTxRetune d c then st else 0
  let ky := if s.on .annTxKey d c then st else 0
  let v := s.rd .annTxVals d c
  let ann := if rt = 0 ∧ ky = 0 then 0 else
    ohPut 90 137 t + ohPut 138 153 (min 0xFFFF (t - s.sf)) + ohPut 154 177 v
  let body := ohPut 0 47 s.sf + ohPut 48 55 (s.rd .lgTxGroupId .m0 g) + ohPut 56 57 ((findPos (· == n) mem).getD 0) +
    ohPut 58 59 (mem.length - 1) + ohPut 60 61 r.cls + ohPut 62 72 r.h + ohPut 73 74 r.code + ohPut 75 83 r.m +
    ohPut 84 85 rt + ohPut 86 87 ky + ohPut 88 88 (s.rd .mymosKeyIdx d c) + ohPut 89 89 (b2n msg.isSome) + ann +
    ohPut 178 199 ptr + ohPut 200 207 mfas + ohPut 208 215 ((msg.getD 0).toNat)
  let w := BitVec.ofNat 256 body
  BitVec.ofNat 256 (body + overheadCrc w)

/-- A message FIFO's level and oldest byte as the registers show them (R293, R294, R315). -/
def State.msgShow (s : State) (n : Nat) : State :=
  let rx := s.msgRx.filter (·.1 == n)
  s.wrs (millOf n) (n % 2) [(.frmTxLevel, (s.msgTx.filter (·.1 == n)).length), (.frmMsgAvail, b2n (!rx.isEmpty)),
    (.frmMsgRxData, (rx.head?.map fun p => p.2.toNat).getD 0)]

/-- The oldest entry of a carrier's FIFO taken. -/
def popFor (n : Nat) (l : List (Nat × Byte)) : Option Byte × List (Nat × Byte) :=
  match l.find? (·.1 == n) with
  | none => (none, l)
  | some p => (some p.2, l.erase p)

/-- What a carrier's transmitter holds. -/
def State.txLineOf (s : State) (n : Nat) : TxLine := (Cells.find n s.txLine).getD {}

/-- Content bits handed to the carrier by frames that its slices have completed (R284, R323). -/
def TxLine.feed (t : TxLine) (m : Nat) (frames : List (List (List Byte))) : TxLine :=
  let t := match t.content, t.frameAt, frames with
    | [], 0, f :: _ => { t with omfi := (frameTags f).1, mfas := (frameTags f).2 }
    | _, _, _ => t
  { t with content := t.content ++ frames.flatMap fun f => frameBits m (frameTags f).1 f }

/-- The transmit chain at an SF boundary (R210, R248, R258): it runs on where every line frame of the SF before was sent unfilled. After
a pause of the DACs the inner chain is new, after any other interruption the outer one too, and a shaping block already in progress
then holds amplitudes that nothing fixes (assumption 66). -/
def State.lineBegin (s : State) (n : Nat) (r : LineRate) : State × TxLine :=
  let t := s.txLineOf n
  if t.whole && t.sf + 1 == s.sf && t.lf == 63 then (s, { t with next := 0 })
  else
    let x := s.fresh
    let y := x.2.fresh
    let block (v : Nat) : List Nat := if s.sf % 64 = 0 then [] else shapeBlock 512 (composition r.cls r.h) (v % 2 ^ (r.h - 512))
    let t : TxLine := { omfi := t.omfi, mfas := t.mfas, outer := if t.paused then t.outer else [] }
    (if s.sf % 64 = 0 then s else y.2, { t with ampX := block x.1, ampY := block y.1 })

/-- The coded bits of a carrier come to its Face die: both dies hold a view that is not stale, OUTER and FRAME run, and the link is up
(R20, R78, R248). -/
def State.lineFed (s : State) (n : Nat) : Bool :=
  let d := millOf n
  !s.on .viewStale (faceOf n) && !s.on .viewStale d && s.on .winzLinkUp (faceOf n) 0 &&
    [Dom.outer, Dom.frame].all fun k => s.domSt d k == 0 && !s.domInReset d k

/-- The chain of a carrier ends with the present SF (R248, R250): the commit that has its go-ahead stops its transmission, or changes its
class, its code or the symbol rate, at the next one. -/
def State.chainEnds (s : State) (n : Nat) : Bool :=
  s.commit.any fun c =>
    let a := s.txRate .live n
    let b := s.txRate .staged n
    c.goSent && c.target == s.sf + 1 &&
      ((c.go.contains (millOf n) && (b.cls != a.cls || b.code != a.code)) ||
        (c.go.contains (faceOf n) && s.rdOff .dacTxEnable (faceOf n) == 0) || (c.go.contains .m0 && s.rq .staged != s.rq))

/-- The pointer to the first frame that starts in the SF after the one that begins here, and its MFAS (R288). -/
def State.otucPtr (s : State) (r : LineRate) (t : TxLine) : Nat × Nat :=
  let w := walkFrames r.m 64 (contentIn r s.rq s.sf 0 sfSyms) (t.frameAt, t.omfi, t.mfas)
  if w.1 = 0 then (0, w.2.2) else (frameContent r.m w.2.1 - w.1, (w.2.2 + 1) % 256)

/-- The announcement of a commit that swapped without this die ends at its target (R79, R229). -/
def State.annEnds (s : State) (n : Nat) : State :=
  let d := millOf n
  let c := n % 2
  if s.rd .annTxState d c = 1 ∧ s.rd .annTxTarget d c ≤ s.sf ∧ (s.commit.any fun c => c.txLeft.contains d) = false
  then s.wrs d c [(.annTxState, 0), (.ltxAnnouncing, 0)] else s

/-- The SF overhead is fixed with LF 0 (R288, R293). -/
def State.overheadBegins (s : State) (n : Nat) (r : LineRate) (t : TxLine) : State :=
  let s := s.annEnds n
  let p := popFor n s.msgTx
  let o := s.otucPtr r t
  let s : State := { s with msgTx := p.2, ohOut := Cells.put n (s.overheadOf n p.1 o.1 o.2) s.ohOut }
  let s := if p.1.isSome then s.count (millOf n) (frameAssay n + 7) else s
  (s.wr .msgSent (millOf n) (n % 2) (match p.1 with
    | none => 0
    | some b => 256 + b.toNat)).msgShow n

/-- A line frame leaves a carrier with the payload dimensions `dims` (R214 to R219). -/
def State.lineSent (s : State) (n : Nat) (r : LineRate) (t : TxLine) (filled : Bool) (dims : List (Nat × Nat)) : State :=
  let f := faceOf n
  let nsub := 2 ^ min 4 (s.rd .txSubcarriers f)
  let amp := 2 * s.rd .txPilotAmp f + 1
  let g := (carrierSyms nsub amp (t.lf * lfLen) 0 pilotSeeds []).2
  let syms := (carrierSyms nsub amp lfLen (t.lf * lfLen) g dims).1
  { s with
    txLine := Cells.put n t s.txLine
    lfOut := Cells.put n (lineFrameOf r s.rq nsub (s.rd .txRolloff f) amp (s.rd .txRms f) t.sf t.lf filled syms) s.lfOut }

/-- A line frame filled from the PRBS31 generator (R20): counted, with what was handed over discarded; the carrier's SF overhead does not
go out whole. -/
def State.lineFilled (s : State) (n : Nat) (r : LineRate) (t : TxLine) : State :=
  let f := faceOf n
  let g := prbsDims r.cls (4 * (lfFirst (t.lf + 1) - lfFirst t.lf)) (s.rd .prbs31 f)
  let s : State := { (s.wr .prbs31 f 0 g.2).inc .winzTxUnderrun f 0 with ohOut := Cells.del n s.ohOut }
  let s := (List.range 4).foldl (fun s a => s.count f (0x53 + 4 * a)) s
  s.lineSent n r { t with whole := false, content := [], frameAt := 0, queue := [] } true g.1

/-- A line frame coded and sent (R209, R246, R255, R285). -/
def State.lineCoded (s : State) (n : Nat) (r : LineRate) (t : TxLine) : State :=
  let s := if t.lf = 0 then s.overheadBegins n r t else s
  let e : TxSf := ⟨r, s.rq, s.sf, (Cells.find n s.ohOut).getD 0⟩
  let x := t.codeUpTo e (lfFirst (t.lf + 1)) (s.chainEnds n) 252
  let w := walkFrames r.m 64 (t.content.length - x.content.length) (t.frameAt, t.omfi, t.mfas)
  let k := 4 * (lfFirst (t.lf + 1) - lfFirst t.lf)
  s.lineSent n r { x with frameAt := w.1, omfi := w.2.1, mfas := w.2.2, queue := x.queue.drop k, whole := true } false (x.queue.take k)

/-- The coded-bit queue holds line frame `t.lf` (R20): the SF has been sent whole so far, and content is here for every position the
line frame reaches into. -/
def State.lineHolds (s : State) (n : Nat) (r : LineRate) (t : TxLine) (follows : Bool) : Bool :=
  follows && s.lineFed n &&
    decide (contentIn r s.rq s.sf (posLen * t.next) (posLen * ceilDiv (lfFirst (t.lf + 1)) posLen) ≤ t.content.length)

/-- TX_LINE_FRAME (R19, R20, R78, R119, R206 to R220, R240 to R258, R282 to R293, R307, R323): the line frame due at the tally is sent,
while the DACs do not pause. `frames` are the OTUCn-M frames of the carrier, slice by slice, that have been completed since the
last line frame. Without the content it needs, the rest of the SF is filled. -/
def execTxLineFrame (n : Fin 4) (frames : List (List (List Byte))) (s : State) : Host.Outcome State Fault Refusal :=
  if !s.lineOn n then .next s else
  let t := s.txLineOf n
  if s.on .dacPause (faceOf n) then
    .next { s with txLine := Cells.put n.val { t with paused := t.paused || t.whole, whole := false } s.txLine }
  else
    let lf := s.sfOff / lfLen
    let r := s.txRate .live n
    let follows := decide (lf = 0) || (t.whole && t.sf == s.sf && t.lf + 1 == lf)
    let b := if lf = 0 then s.lineBegin n r else (s, t)
    let t := { b.2.feed r.m frames with sf := s.sf, lf := lf }
    .next (if b.1.lineHolds n r t follows then b.1.lineCoded n r t else b.1.lineFilled n r t)

/-- A receive swap of the carrier is still to come whose target its far tally has not reached (R73, R75). -/
def Commit.awaits (c : Commit) (n live : Nat) : Bool :=
  c.goSent && c.rxLeft.contains n && c.rx.getD n 0 != 0 && decide (live < c.rx.getD n 0) && !c.predict.contains n &&
    !c.jumped.contains n

/-- The pending receive swap of a carrier whose far tally jumps to or past its target falls at the next boundary (R75). -/
def State.jumpPast (s : State) (n far : Nat) : State :=
  { s with commit := s.commit.map fun c =>
      if c.awaits n (s.rd .farLiveSf (millOf n) (n % 2)) && decide (c.rx.getD n 0 ≤ far) then { c with jumped := c.jumped ++ [n] }
      else c }

/-- The pending receive swap of a carrier whose far tally ends before its target falls at the predicted position (R73). -/
def State.predictFrom (s : State) (n : Nat) : State :=
  { s with commit := s.commit.map fun c =>
      if c.awaits n (s.rd .farLiveSf (millOf n) (n % 2)) then { c with predict := c.predict ++ [n] } else c }

/-- The far tally is no longer valid (R52, R54, R73): the member leaves its group. -/
def State.farClear (s : State) (n : Nat) : State :=
  if s.on .farValid (millOf n) (n % 2) then ((s.predictFrom n).wr .farValid (millOf n) (n % 2) 0).memberLost n else s

/-- Two consecutive counts set far_valid: the shaping phase locks and the FEC phase is the far count's (R52, R253, R295). -/
def State.farSet (s : State) (n far : Nat) (inPhase : Bool) : State :=
  let d := millOf n
  let c := n % 2
  let period := s.rxPeriod n
  let s := s.wrs d c [(.farValid, 1), (.frmShapePhase, far % 64)]
  let s := if inPhase then s.wr .frmShapeLocked d c 1 else s
  let s := if s.on .decPhaseKnown d c && s.rd .decPhase d c != far % period then
      (s.wr .decPhaseConflict d c 1).raise Reason.fecPhase (blkId d Dom.frame c) 0 0 (some far) else s
  s.wrs d c [(.decPhaseKnown, 1), (.decPhase, far % period)]

/-- The deframer hunts from an offset on (R296, R302), or is OFF where the carrier is not in TRACK. -/
def State.huntFrom (s : State) (n pos : Nat) (fresh : Bool) : State :=
  let d := millOf n
  let c := n % 2
  let s := if s.rd .frmState d c ≠ 1 ∧ s.acq n = 7 then s.count d (frameAssay n + 2) else s
  let s := s.wrs d c [(.frmState, if s.acq n = 7 then 1 else 0), (.huntPos, pos)]
  if fresh then s.wr .huntSince d c s.sf else s

/-- The group fields of a good overhead are those configured (R308). -/
def State.idsMatch (s : State) (n : Nat) (oh : BitVec 256) : Bool :=
  match s.groupOf n with
  | none => false
  | some g =>
    ohField oh 48 55 == s.rd .lgRxGroupId .m0 g && findPos (· == n) (s.rxMembers g) == some (ohField oh 56 57) &&
      ohField oh 58 59 + 1 == (s.rxMembers g).length

/-- The pages with a receive stream in a carrier's line group (R417). -/
def State.keyPages (s : State) (n : Nat) : List (Die × Nat) :=
  (((s.streams .live).filter fun e => s.on .strmRxEn e.1 e.2 && s.streamGroup e.1 e.2 == s.groupOf n).map
    fun e => (e.1, s.rd .strmPage e.1 e.2)).dedup

/-- A key change staged by a carrier (R51, R417): its pages are staged or have missed it; the events carry the far SF. -/
def State.stageKeys (s : State) (n target far : Nat) : State :=
  let s := s.wr .keyStagedAt (millOf n) (n % 2) target
  (s.keyPages n).foldl (fun s e =>
    let d := e.1
    let p := e.2
    if s.on .pageKeyStaged d p && s.rd .pageKeyTarget d p == target + 64 then s
    else if (s.key d p slotRxOff).isSome && !((s.key d p slotRxOn).isSome && s.keyIdx d p slotRxOn == s.keyIdx d p slotRxOff) then
      (s.wrs d p [(.pageKeyStaged, 1), (.pageKeyTarget, target + 64), (.pageKeyCarrier, n)]).raiseFns Reason.keyStaged
        (blkId d Dom.crypto) (s.pageFuncs d p) 0 0 (some far)
    else (s.wr .pageKeyMissed d p 1).raiseFns Reason.keyMissed (blkId d Dom.crypto) (s.pageFuncs d p) 0 0 (some far)) s

/-- A carrier's key staging dropped: the pages it staged keep their slots (R417). -/
def State.dropKeys (s : State) (n : Nat) : State :=
  let s := s.wr .keyStagedAt (millOf n) (n % 2) 0
  (s.pages.filter fun e => s.on .pageKeyStaged e.1 e.2 && s.rd .pageKeyCarrier e.1 e.2 == n).foldl
    (fun s e => s.wrs e.1 e.2 [(.pageKeyStaged, 0), (.pageKeyTarget, 0)]) s

/-- The receive rate fields, with the values an announcement of `key` stages (R231; the announced h is the applied h,
assumption 19). -/
def annFields (key : Nat) : List (Fld × Nat) :=
  [(.lrxEntH, key / 2 ^ 13 % 2 ^ 11), (.lrxClass, key / 2 ^ 11 % 4), (.lrxCode, key / 2 ^ 9 % 4), (.lrxM, key % 512), (.lrxAutoH, 0)]

/-- The announced values stand in the off-shift copy while they are staged (R76, R231). -/
def State.applyStaging (s : State) (n : Nat) : State :=
  if !s.on .lrxAnnStaged (millOf n) (n % 2) then s
  else (annFields (s.rd .annStagedKey (millOf n) (n % 2))).foldl (fun s e => s.wrOff e.1 (millOf n) (n % 2) e.2) s

/-- The announced fields of the off-shift copy back at the on-shift values (R233). -/
def State.liftStaging (s : State) (n : Nat) : State :=
  (annFields 0).foldl (fun s e => { s with offs := Cells.del (e.1.key (millOf n) (n % 2)) s.offs }) s

/-- A staged retune dropped (R233). -/
def State.dropRetune (s : State) (n : Nat) : State :=
  if !s.on .lrxAnnStaged (millOf n) (n % 2) then s
  else (s.liftStaging n).wrs (millOf n) (n % 2) [(.lrxAnnStaged, 0), (.annStagedKey, 0)]

/-- Event about a carrier's retune or frame: its FRAME domain and local carrier. -/
def State.raiseFrame (s : State) (reason n : Nat) (far : Option Nat := none) : State :=
  s.raise reason (blkId (millOf n) Dom.frame (n % 2)) 0 0 far

/-- An announced retune seen in three SFs alike: staged, or refused as invalid (R231, R234). -/
def State.stageRetune (s : State) (n key far : Nat) : State :=
  let d := millOf n
  let c := n % 2
  if (s.on .lrxAnnStaged d c && s.rd .annStagedKey d c == key) || s.rd .annInvalidKey d c == key then s
  else if rateInvalid false (key / 2 ^ 13 % 2 ^ 11) (key / 2 ^ 11 % 4) (key / 2 ^ 9 % 4) (key % 512) s.rq then
    (s.wrs d c [(.annInvalidKey, key), (.lrxRetuneMissed, 1)]).raiseFrame Reason.retuneInvalid n (some far)
  else
    ((s.wrs d c [(.annStagedKey, key), (.lrxAnnStaged, 1)]).applyStaging n).raiseFrame Reason.retuneStaged n (some far)

/-- The announcements of a good SF overhead (R231, R233, R238, R417). `follows` says that the SF before it was good too. -/
def State.sight (s : State) (n : Nat) (oh : BitVec 256) (far : Nat) (follows : Bool) : State :=
  let d := millOf n
  let c := n % 2
  let rt := if ohField oh 84 85 = 3 then 0 else ohField oh 84 85
  let ky := if ohField oh 86 87 = 3 then 0 else ohField oh 86 87
  let key := ohField oh 90 137 * 2 ^ 24 + ohField oh 154 177
  let target := ohField oh 90 137
  let run (f : Fld) (again : Bool) (is : Bool) : Nat := if !is then 0 else if follows && again then min 3 (s.rd f d c + 1) else 1
  let ar := run .annRun (s.rd .rtLastState d c == 1 && s.rd .annKey d c == key) (rt == 1)
  let cr := run .cancelRun (s.rd .rtLastState d c == 2) (rt == 2)
  let kr := run .keyAnnRun (s.rd .keyLastState d c == 1 && s.rd .keyAnnKey d c == key) (ky == 1)
  let kc := run .keyCancelRun (s.rd .keyLastState d c == 2) (ky == 2)
  let s := s.wrs d c [(.annRun, ar), (.cancelRun, cr), (.keyAnnRun, kr), (.keyCancelRun, kc), (.rtLastState, rt), (.keyLastState, ky),
    (.annKey, key), (.keyAnnKey, key)]
  let s := if rt = 0 then s else s.wrs d c [(.lrxAnnH, key / 2 ^ 13), (.lrxAnnClass, key / 2 ^ 11), (.lrxAnnCode, key / 2 ^ 9),
    (.lrxAnnM, key), (.lrxAnnTargetLo, target), (.lrxAnnTargetHi, target / 2 ^ 32)]
  let s : State := if rt = 1 ∧ !s.annTargets.contains (n, target) then { s with annTargets := s.annTargets ++ [(n, target)] } else s
  let s := if ar = 3 then s.stageRetune n key far else s
  let s := if cr = 3 ∧ s.on .lrxAnnStaged d c then (s.dropRetune n).wr .lrxAnnCancelSeen d c 1 else s
  let s := if kr = 3 ∧ s.rd .keyStagedAt d c ≠ target then s.stageKeys n target far else s
  if kc = 3 ∧ s.rd .keyStagedAt d c ≠ 0 then s.dropKeys n else s

/-- A message byte received (R294). -/
def State.msgArrives (s : State) (n : Nat) (b : Byte) : State :=
  let s := s.count (millOf n) (frameAssay n + 6)
  if (s.msgRx.filter (·.1 == n)).length < 64 then State.msgShow { s with msgRx := s.msgRx ++ [(n, b)] } n
  else s.wr .frmMsgOverflow (millOf n) (n % 2) 1

/-- Every candidate passes where the shaping carries nothing: h = 512 on the 16QAM class (R303). -/
def State.anyPhase (s : State) (n : Nat) : Bool := (s.rxRate .live n).cls == 0 && (s.rxRate .live n).h == 512

/-- The MFAS of a carrier's slices start from otuc_mfas (R324): unless their count, of the frame in progress or of that first one,
agrees with it. -/
def State.mfasFrom (s : State) (n mfas : Nat) : State :=
  let d := millOf n
  let x := n % 2 * 24
  let v := s.rd .sliceMfas d x
  if v = mfas ∨ (v + 1) % 256 = mfas then s
  else (List.range 24).foldl (fun s i => s.wr .sliceMfas d (x + i) mfas) s

/-- A good SF overhead used (R52, R54, R231, R291, R292, R294, R308, R324). -/
def State.goodOverhead (s : State) (n : Nat) (oh : BitVec 256) : State :=
  let d := millOf n
  let c := n % 2
  let far := ohField oh 0 47
  let seen := s.on .farAnnSeen d c
  let since := s.rd .ohSince d c
  let next := s.rd .farLastAnn d c + since + 1
  let inPhase := far % 64 == s.rd .frmShapePhase d c || s.anyPhase n
  let s := s.wrs d c [(.ohBad, 0), (.ohSince, 0), (.farAnnSeen, 1), (.farLastAnn, far), (.frmGroupIdSeen, ohField oh 48 55),
    (.frmMemberIdxSeen, ohField oh 56 57), (.frmMemberCntSeen, ohField oh 58 59), (.ohIdsOk, b2n (s.idsMatch n oh)),
    (.rxOtucPtr, ohField oh 178 199), (.rxOtucMfas, ohField oh 200 207)]
  let s := if seen && far != next then (s.jumpPast n far).farClear n
    else if seen && since == 0 && !s.on .farValid d c then s.farSet n far inPhase else s
  let s := s.mfasFrom n (ohField oh 200 207)
  let r := s.rxRate .live n
  let s := if (⟨ohField oh 60 61, ohField oh 73 74, ohField oh 75 83, ohField oh 62 72⟩ : LineRate) = r then s
    else (s.wr .frmDescMismatch d c 1).raiseFrame Reason.rateMismatch n (some far)
  let s := if ohField oh 89 89 = 1 then s.msgArrives n (BitVec.ofNat 8 (ohField oh 208 215)) else s
  s.sight n oh far (seen && since == 0 && far == next)

/-- A false sync (R299): counted, and the hunt goes on after the offset. -/
def State.falseSync (s : State) (n : Nat) : State :=
  let d := millOf n
  let c := n % 2
  (((s.inc .frmFalseSync d c).count d (frameAssay n + 3)).wrs d c [(.ohFirst, 0), (.farAnnSeen, 0)]).huntFrom n
    (s.rd .frmSyncOffset d c + 1) true

/-- The frame pointer of a carrier whose overhead failed, counted on from the last one by the frame length (R291; assumption 66). -/
def State.ptrOn (s : State) (n : Nat) : State :=
  let d := millOf n
  let c := n % 2
  let r := s.rxRate .live n
  let p := s.rd .rxOtucPtr d c
  let bits := contentIn r s.rq (s.rd .farLastAnn d c + s.rd .ohSince d c + 1) 0 sfSyms
  let len := max 1 (frameContent r.m 0)
  let k := ceilDiv (bits - p) len
  s.wrs d c [(.rxOtucPtr, p + k * len - bits), (.rxOtucMfas, s.rd .rxOtucMfas d c + k)]

/-- SF_OVERHEAD_RECEIVED (R291, R292, R299): a complete SF overhead from a carrier in SYNC. -/
def execSfOverheadReceived (n : Fin 4) (oh : BitVec 256) (s : State) : Host.Outcome State Fault Refusal :=
  let d := millOf n
  let c := n.val % 2
  if s.rd .frmState d c ≠ 3 then .next s else
  let first := s.on .ohFirst d c
  if overheadCrc oh ≠ ohField oh 240 255 then
    let s := ((s.ptrOn n).inc .frmOhCrcErrors d c).count d (frameAssay n + 1)
    let s := s.wrs d c [(.ohBad, min 15 (s.rd .ohBad d c + 1)), (.ohSince, s.rd .ohSince d c + 1),
      (.annRun, 0), (.cancelRun, 0), (.keyAnnRun, 0), (.keyCancelRun, 0)]
    .next (if first then s.falseSync n else s)
  else if first && !(ohField oh 0 47 % 64 == s.rd .frmShapePhase d c || s.anyPhase n) then .next (s.falseSync n)
  else .next ((s.wr .ohFirst d c 0).goodOverhead n oh)

/-- The far SF of the boundary that has come (R53, R73): after the last announced count, or by prediction; none where the
carrier knows neither. -/
def State.boundaryOf (s : State) (n : Nat) : Option Nat :=
  let d := millOf n
  let c := n % 2
  if s.on .farValid d c then some (s.rd .farLastAnn d c + s.rd .ohSince d c + 1)
  else if s.on .farHasArr d c then some (s.rd .farLiveSf d c + (s.tally - s.rd .farLiveArr d c + sfLen / 2) / sfLen)
  else none

/-- The last good SF overhead announced, and lay in the three SFs before a target (R232). A failed overhead is skipped
(assumption 19). -/
def State.announcedFor (s : State) (f : Fld) (n target : Nat) : Bool :=
  let d := millOf n
  let c := n % 2
  let last := s.rd .farLastAnn d c
  s.rd f d c == 1 && decide (target ≤ last + 3) && decide (last < target)

/-- The receive set swaps to the announced values (R232, R251). -/
def State.retune (s : State) (n key far : Nat) : State :=
  let d := millOf n
  let c := n % 2
  let was := s.rxRate .live n
  let s := s.liftStaging n
  let s := (s.wrs d c (annFields key)).wrs d c [(.lrxAnnStaged, 0), (.annStagedKey, 0)]
  let now := s.rxRate .live n
  let s := if was.cls = now.cls ∧ was.code = now.code then s else s.chainStart n false
  ((s.inc .lrxRetunesDone d c).raiseFrame Reason.retuneDone n (some far)).groupShow n

/-- The announced targets that a far SF has reached (R232, R233, R235, R417). -/
def State.targetsReached (s : State) (n far : Nat) : State :=
  let d := millOf n
  let c := n % 2
  let due := s.annTargets.filter fun e => e.1 == n && decide (e.2 ≤ far)
  let s : State := { s with annTargets := s.annTargets.filter fun e => !due.contains e }
  let s := due.foldl (fun s e =>
    let key := s.rd .annStagedKey d c
    if s.on .lrxAnnStaged d c && key / 2 ^ 24 == e.2 && s.announcedFor .rtLastState n e.2 then s.retune n key far
    else
      let s := if key / 2 ^ 24 = e.2 then s.dropRetune n else s
      ((s.wr .lrxRetuneMissed d c 1).inc .lrxRetunesMissed d c).raiseFrame Reason.retuneMissed n (some far)) s
  let t := s.rd .keyStagedAt d c
  if t = 0 ∨ far < t then s
  else if s.announcedFor .keyLastState n t then s.wr .keyStagedAt d c 0 else s.dropKeys n

/-- FAR_SF_ARRIVAL (R53, R295, R301): a far SF boundary at the deframer's output. While far_valid is 1 its number and
arrival position are recorded; the shaping and FEC phases step; announced targets are judged and the line group follows. -/
def execFarSfArrival (n : Fin 4) (s : State) : Host.Outcome State Fault Refusal :=
  let d := millOf n
  let c := n.val % 2
  if !s.on .decChainRunning d c then .next s else
  let k := s.boundaryOf n
  let valid := s.on .farValid d c
  let period := s.rxPeriod n
  let s := match valid, k with
    | true, some k => s.wrs d c [(.farLiveSf, k), (.farLiveArr, s.tally), (.farHasArr, 1), (.frmShapePhase, k % 64), (.decPhase, k % period)]
    | _, _ => s.wrs d c [(.frmShapePhase, s.rd .frmShapePhase d c + 1), (.sweepRun, min 7 (s.rd .sweepRun d c + 1)),
        (.decPhase, if s.on .decPhaseKnown d c then (s.rd .decPhase d c + 1) % period else 0)]
  match k with
  | none => .next s
  | some k =>
    let s := s.targetsReached n k
    .next (if valid then s.memberArrival n k s.tally else s)

/-- SHAPE_SWEEP_WINDOW (R295, R296): the window of four far SFs ends, after the boundary that ends it: the next candidate,
and the hunt starts at offset 0. -/
def execShapeSweepWindow (n : Fin 4) (s : State) : Host.Outcome State Fault Refusal :=
  let d := millOf n
  let c := n.val % 2
  if !s.on .decChainRunning d c || !s.on .decPhaseKnown d c || s.on .frmShapeLocked d c || s.on .farValid d c ||
    decide (s.rd .sweepRun d c < 4) then .next s else
  let k := (s.rd .sweepCand d c + 1) % 64
  let s := s.wrs d c [(.sweepCand, k), (.frmShapePhase, k), (.sweepRun, 0)]
  if s.rd .frmState d c = 1 ∨ s.rd .frmState d c = 2 then .next (s.huntFrom n 0 false) else .next s

/-- The length of line frame `l` of the SF `ahead` SFs after the one at the deframer, as a receive carrier reckons it (R282); from 64 on the
line frames of the SF after. -/
def State.rxLfLength (s : State) (n ahead l : Nat) : Nat :=
  let d := millOf n
  let c := n % 2
  let k := ahead + l / 64
  lfLength (s.rxRate .live n) (s.rd .frmShapePhase d c + k) (s.rd .decPhase d c + k) (l % 64)

/-- The bits of four line frames from `lf` on, each cut to its reckoned length (R282). -/
def State.cutLfs (s : State) (n ahead lf : Nat) (bits : List (List Bool)) : List (List Bool) :=
  bits.zipIdx.map fun e => e.1.take (s.rxLfLength n ahead (lf + e.2))

/-- FRAME_HUNT (R282, R296, R297): 4,096 offsets of line frame `lf`, from where the hunt stands, in the early-look bits of it and
the three after it, which lie 2 SF before the final data (R260, R298). -/
def execFrameHunt (n : Fin 4) (lf : Fin 64) (looks : List (List Bool)) (s : State) : Host.Outcome State Fault Refusal :=
  let d := millOf n
  let c := n.val % 2
  if s.rd .frmState d c ≠ 1 then .next s else
  let len := max 1 (s.rxLfLength n 2 lf)
  let p := s.rd .huntPos d c
  match ((List.range (min 4096 len)).map fun i => (p + i) % len).find? fun r => patternRun lf r (s.cutLfs n 2 lf looks) with
  | some r => .next (s.wrs d c [(.frmState, 2), (.huntCand, r), (.huntLf, lf)])
  | none => .next (s.wr .huntPos d c ((p + 4096) % len))

/-- MYMOS_SYNC (R298, R300): the final data of the candidate's four line frames. -/
def execMymosSync (n : Fin 4) (finals : List (List Bool)) (s : State) : Host.Outcome State Fault Refusal :=
  let d := millOf n
  let c := n.val % 2
  if s.rd .frmState d c ≠ 2 then .next s else
  let r := s.rd .huntCand d c
  if patternRun (s.rd .huntLf d c) r (s.cutLfs n 0 (s.rd .huntLf d c) finals) then
    let s := s.wrs d c [(.frmState, 3), (.frmSyncOffset, r), (.ohFirst, 1), (.ohBad, 0), (.ohSince, 0), (.farAnnSeen, 0), (.ohIdsOk, 0)]
    .next ((s.raiseFrame Reason.mymosSync n).groupShow n)
  else .next (s.huntFrom n (r + 1) false)

/-- Why loss of frame may be declared holds (R300). -/
def State.lofHolds (s : State) (n : Nat) : LofCause → Bool
  | .pattern lf finals => finals.length == 5 &&
      (s.cutLfs n 0 lf finals).zipIdx.all fun e => !hasPattern (lf + e.2) (s.rd .frmSyncOffset (millOf n) (n % 2)) e.1
  | .crc => decide (8 ≤ s.rd .ohBad (millOf n) (n % 2))
  | .track => s.acq n != 7

/-- MYMOS_LOF (R300, R310, R329): far_valid clears, the loss is recorded, the hunt resumes, and the slices fail. -/
def execMymosLof (n : Fin 4) (cause : LofCause) (s : State) : Host.Outcome State Fault Refusal :=
  let d := millOf n
  let c := n.val % 2
  if s.rd .frmState d c ≠ 3 || !s.lofHolds n cause then .next s else
  let far := if s.on .farValid d c then some (s.rd .farLiveSf d c) else none
  let s := (s.farClear n).huntFrom n (s.rd .frmSyncOffset d c + 1) true
  let s := ((s.wrs d c [(.frmLofSticky, 1), (.farAnnSeen, 0), (.ohFirst, 0)]).inc .frmLofCount d c).count d (frameAssay n + 4)
  .next ((s.raiseFrame Reason.mymosLof n far).groupShow n)

/-- SHAPE_UNLOCK (R301, R295): 64 SF of hunting without sync; the sweep begins again at its first candidate. -/
def execShapeUnlock (n : Fin 4) (s : State) : Host.Outcome State Fault Refusal :=
  let d := millOf n
  let c := n.val % 2
  if (s.rd .frmState d c = 1 ∨ s.rd .frmState d c = 2) ∧ s.on .frmShapeLocked d c ∧ s.rd .huntSince d c + 64 ≤ s.sf then
    .next ((s.wrs d c [(.frmShapeLocked, 0), (.frmShapePhase, 0), (.sweepCand, 0), (.sweepRun, 0)]).huntFrom n 0 true)
  else .next s

/-- The carrier of a Mill die's local carrier. -/
def carrierOf (m c : Fin 2) : Nat := 2 * m.val + c.val

/-- MSG_TX_WRITE (R293). -/
def execMsgTxWrite (m c : Fin 2) (byte : Byte) (s : State) : Host.Outcome State Fault Refusal :=
  let n := carrierOf m c
  .next (s.writeReg (millAt m) .frmMsgTxData c fun s =>
    if (s.msgTx.filter (·.1 == n)).length < 64 then State.msgShow { s with msgTx := s.msgTx ++ [(n, byte)] } n
    else s.raiseField .frmMsgTxData (millAt m) c)

/-- MSG_RX_READ (R315, R655): the word as it stands, then the byte is gone. -/
def execMsgRxRead (m c : Fin 2) (s : State) : Host.Outcome State Fault Refusal :=
  let n := carrierOf m c
  .next (s.readReg (millAt m) .frmMsgRxData c fun s =>
    (State.msgShow { s with msgRx := (popFor n s.msgRx).2 } n, s.wordOf (millAt m) .frmMsgRxData c))

/-- FRM_CNT_CLR (R315): the counters at 0x08 and 0x0C. -/
def execFrmCntClr (m c : Fin 2) (s : State) : Host.Outcome State Fault Refusal :=
  .next (s.writeReg (millAt m) .frmClearAll c fun s =>
    s.zeros (millAt m) c [.frmLofCount, .frmFalseSync, .frmOhCrcErrors])

end Sys2Proof.Machine
end

