-- ==== Sys2Proof/Machine/Domains.lean ====
section
/-! DEFINITION. What a power domain loses and regains: which part of the machine keeps which field (R505, R513, R515, R636,
R637, R641), the states that follow a domain's state, and a domain or die that goes down and returns. -/

namespace Sys2Proof.Machine

/-- The field number in a key of the register store. -/
def keyFld (k : Nat) : Nat := k % 65536 / 16
/-- The die code in a key. -/
def keyDie (k : Nat) : Nat := k % 16
/-- The instance in a key. -/
def keyInst (k : Nat) : Nat := k / 65536

/-- What loses a field: the reset of its domain, the loss of the die's shift store (R78, R513), a package reset, or only
the loss of the surface domain (R641, R685). -/
inductive Loss
  | domain (dom : Nat)
  | shiftStore
  | package
  | surface
  deriving DecidableEq, Repr

/-- What loses an internal scalar, by the code in its row: a domain, 16 the anchor, 17 and 18 the client domain of a lane
and of a lane's coefficient, 19 the shift store, 20 the package, 21 the surface domain, 22 the domain of the auxiliary
ADC. -/
def internalLoss (d : Die) (i code : Nat) : Loss :=
  match code with
  | 16 => .domain d.anchor
  | 17 => .domain (laneDom i)
  | 18 => .domain (laneDom (i / 8))
  | 19 => .shiftStore
  | 20 => .package
  | 21 => .surface
  | 22 => .domain (if d.isFace then Dom.auxm else Dom.timing)
  | k => .domain k

/-- Fields of the package window that the surface domain keeps: fuses, straps, the reset cause, and its clock's record
(R624, R641, R647, R685). -/
def surfaceFields : List Nat :=
  [Fld.tallySurfClkLost, .tallyOriginLost, .tallyWakeAdvanceLo, .tallyWakeAdvanceHi, .tallyWakeErrSf].map Fld.ctorIdx

/-- The stream registers that STREAM_BIND stages (R431). -/
def streamStaged : List Nat :=
  [Fld.strmTargetKind, .strmTarget, .strmPage, .strmTxEn, .strmRxEn, .strmRepSel, .strmNum, .strmFarId].map Fld.ctorIdx

/-- What loses the field of a key. -/
def lossOf (k : Nat) : Loss :=
  let d := (dieOfCode (keyDie k)).getD .m0
  let i := keyInst k
  let r := fldRowAt (keyFld k)
  let g := r.blk.info
  match g.win with
  | .internal => internalLoss d i r.off
  | .vf => .package
  | .pkg => if r.blk = .chip ∨ surfaceFields.contains (keyFld k) = true then .surface else .package
  | .any | .face | .mill | .bin | .faceMill =>
    if r.acc = .sh ∨ r.acc = .lk ∨ streamStaged.contains (keyFld k) = true ∨ r.blk = .fw then .shiftStore
    else if r.blk = .rep then .surface
    else if r.blk = .dom then .package
    else .domain ((domainAt d (g.base + i / g.n2 * g.s1 + i % g.n2 * g.s2 + r.off)).getD d.anchor)

/-- Fields back at their reset values, both copies. -/
def State.loseWhere (s : State) (p : Nat → Bool) : State :=
  { s with regs := s.regs.filter fun e => !p e.1, offs := s.offs.filter fun e => !p e.1
           freeRegs := s.freeRegs.filter fun e => !p e.1 }

/-- A memory's index over the package (R545). -/
def memIx (t : Die) (mem : Nat) : Nat := t.code * 64 + mem

/-- The memories of a die (R545). -/
def Die.mems (t : Die) : List Nat :=
  if t.isFace then [0, 1, 2, 3, 4, 5, 6] else if t.isMill then [0, 1, 2, 0x10] else [0x20]

/-- A memory's valid bits cleared: it reads as zeros (R553). -/
def State.loseMem (s : State) (t : Die) (mem : Nat) : State :=
  let x := memIx t mem
  { s with memory := s.memory.filter fun e => e.1 / 2 ^ 34 != x
           memValid := s.memValid.filter fun e => e.1 / 2 ^ 32 != x
           poison := s.poison.filter fun e => e.1 / 2 ^ 32 != x }

/-- The memories of a domain. -/
def domMems (t : Die) (dom : Nat) : List Nat := (Die.mems t).filter fun m => memDom t m == dom

/-- The cluster of a loop-engine domain (R512, R545, R648). -/
def clusterOf (t : Die) (dom : Nat) : Option Nat :=
  if t.isFace then (if 0x0A ≤ dom ∧ dom < 0x10 then some (dom - 0x0A) else none)
  else if t.isMill then (if dom = Dom.leA then some 0 else if dom = Dom.leB then some 1 else none)
  else none

/-- The domain of a cluster. -/
def clusterDom (t : Die) (c : Nat) : Nat := if t.isFace then 0x0A + c else Dom.leA + c

/-- Every key slot of a die empty (R402). -/
def State.loseKeys (s : State) (t : Die) : State :=
  let s : State := { s with keys := s.keys.filter fun e => e.1 / 1024 != t.code
                            la := updateWhere (fun o => o.op.desc.mill == t) (fun o => { o with dead := true }) s.la }
  s.loseWhere fun k => keyDie k == t.code && (keyFld k == Fld.pageSlotLoaded.ctorIdx || keyFld k == Fld.pageSlotKeyIdx.ctorIdx)

/-- The DKEK of a die lost (R402). -/
def State.loseKek (s : State) (t : Die) : State :=
  State.wr { s with keys := Cells.del (16384 + t.code) s.keys } .cryKekLoaded t 0 0

/-- A carrier's deframer stops with its domain: no far tally, no member, failed slices (R150, R308, R329). -/
def State.frameDown (s : State) (n : Nat) : State :=
  if s.rd .frmState (millOf n) (n % 2) = 0 ∧ !s.on .farValid (millOf n) (n % 2) ∧ !s.on .decChainRunning (millOf n) (n % 2) then s
  else (((s.farClear n).chainStop n).wrs (millOf n) (n % 2) [(.frmState, 0), (.frmShapeLocked, 0)]).groupShow n

/-- The carriers whose receive content a die carries. -/
def Die.carriersOf (d : Die) : List Nat :=
  if d.isFace then [d.carrier] else if d = .m0 then [0, 1] else if d = .m1 then [2, 3] else []

/-- FRAME or OUTER of a Mill die does not run. -/
def State.frameOut (s : State) (t : Die) : Bool :=
  [Dom.frame, Dom.outer].any fun k => decide (2 ≤ s.domSt t k) || s.domInReset t k

/-- What follows the state of a die's domains (R122, R124, R150, R159, R277, R365,
R661): recomputed after each change. -/
def State.gates (s : State) (t : Die) : State :=
  let s := s.wr .memMarchBusy t 0 (b2n (s.marches.any (·.die == t)))
  let s := if t.isBin then s.wrs t 0 [(.binArrayReady, b2n (!s.domDead t Dom.binArray && !s.domInReset t Dom.binArray)),
    (.binRingCtxHome, b2n (t == .b0))] else s
  if t.isFace then ((s.txdisUpdate t).acqGate t.carrier).nlcUpdate t.carrier
  else if t.isMill then
    let s := (s.portsShow t).pmWatch.poolShow t
    let s := (List.range 24).foldl (fun s l =>
      if (s.laneRuns t l && s.onLink t l) || !s.on .laneBlockLock t l then s else s.wrs t l [(.laneBlockLock, 0), (.laneDeskewed, 0)]) s
    let s := s.linkEval t
    if s.frameOut t then (Die.carriersOf t).foldl State.frameDown s else s
  else s

/-- Winze ports that lead from a die. -/
def State.linkPorts (s : State) (t : Die) : List Nat := (Die.portsOf t).filter fun p => s.on .winzLinkUp t p

/-- A die's links go down: by plan without events (R513), else each end raises one (R34). Requests outstanding to every die
behind them complete RESET_ABORTED. -/
def State.linksDown (s : State) (t : Die) (plan : Bool) : State :=
  (s.linkPorts t).foldl (fun s p =>
    let s := s.linkDrop t p
    let s := match farPort t p with
      | some (e, q) => if plan then s else (s.raiseField .winzLinkUp t p).raiseField .winzLinkUp e q
      | none => s
    (s.abortTo (fun d _ => (beyond t p).contains d) (some (nearPort t p))).dropFromCommit
      ((beyond t p).filter fun d => !(s.commit.any fun c => c.go.contains d))) s

/-- The key slots of a Mill die reloaded from the on-shift ones; a page with a staged key change keeps its RX slots (R59,
R413, R417). -/
def State.reloadKeys (s : State) (d : Die) : State :=
  (s.pages.filter (·.1 == d)).foldl (fun s e =>
    let s := s.copySlot d e.2 slotTxOn slotTxOff
    if s.on .pageKeyStaged d e.2 then s else s.copySlot d e.2 slotRxOn slotRxOff) s

/-- The off-shift copy of a die becomes its on-shift set, announced retunes staged again, and the held writes applied (R59,
R60, R76). -/
def State.reload (s : State) (d : Die) : State :=
  let s : State := { s with offs := s.offs.filter fun e => keyDie e.1 != d.code }
  let s := if d.isMill then (Die.carriersOf d).foldl State.applyStaging (s.reloadKeys d) else s
  (s.applyHeld d).wr .reloadDue d 0 0

/-- A die that missed a commit, or was reset, is stale when it returns: it carries no traffic, its slices fail, and its
off-shift copy is its on-shift set (R78). -/
def State.markStale (s : State) (d : Die) : State :=
  let was := s.on .viewStale d
  let s := (s.reload d).wrs d 0 [(.viewStale, 1), (.prepareSent, 0), (.prepareHeld, 0), (.cancelSent, 0), (.shiftAnswer, 0)]
  let s := if was then s else s.raise Reason.shiftStale (blkId d d.anchor)
  (s.gates d).sliceShow (if d.isMill then Die.carriersOf d else [])

/-- A die holds the go-ahead of the commit under way. -/
def State.holdsGo (s : State) (d : Die) : Bool := s.commit.any fun c => c.go.contains d

/-- Dies that have become live again show whether they missed a commit (R78, R79). -/
def State.returnDies (s : State) (ds : List Die) : State :=
  ds.foldl (fun s d =>
    if s.live d && s.rd .dieSeq d != s.rd .shiftSeq && !s.on .viewStale d && !s.holdsGo d then s.markStale d else s) s

/-- A link trains between two present dies whose port logic is powered and not in reset, neither held down by plan nor by a
trip (R34, R41, R513). -/
def State.trainable (s : State) (d : Die) (port : Nat) : Bool :=
  match farPort d port with
  | none => false
  | some (e, _) => !s.on .winzLinkUp d port &&
      [d, e].all fun t => s.has t && !s.dieInReset t && !s.domDead t t.anchor && !s.on .plannedDown t && !s.on .tripped t

/-- LINK_RETRAIN_DONE (R34, R40): the link delivers again; dies behind it that missed a commit are stale (R78). -/
def execLinkRetrainDone (d : Die) (port : Fin 4) (s : State) : Host.Outcome State Fault Refusal :=
  if s.trainable d port then .next ((s.linkRaise d port).returnDies (beyond d port)) else .next s

/-- A die's links train again, toward dies that are powered and not in reset (R34, R40, R513). -/
def State.linksUp (s : State) (t : Die) : State :=
  (Die.portsOf t).foldl (fun s p => if s.trainable t p then (s.linkRaise t p).returnDies (beyond t p) else s) s

/-- The requests that run or wait on a domain of a die: what the die itself held of them is gone (R36). -/
def State.purge (s : State) (t : Die) (dom : Nat → Bool) : State :=
  let crypto := dom Dom.crypto && t.isMill
  let aux := dom (if t.isFace then Dom.auxm else Dom.timing)
  let anchor := dom t.anchor
  let mine (o : Op) : Bool := o.desc.die == some t && dom o.desc.dom
  let gone (d : Die) (yes : Bool) : Bool := d == t && yes
  { s with
    pmSecs := s.pmSecs.filter fun x => !gone (if x.layer = 9 then millOf (x.source - 0x80) else millAt x.die) anchor
    spi := s.spi.filter fun r => !gone r.die aux
    spiActive := s.spiActive.filter fun r => !gone r.die aux
    kw := s.kw.filter fun o => !gone o.desc.mill crypto
    la := s.la.filter fun o => !gone o.op.desc.mill crypto
    zeroing := s.zeroing.filter fun o => !gone o.desc.mill crypto
    cipherOut := s.cipherOut.filter fun e => !gone (if e.1 / 512 = 0 then .m0 else .m1) crypto
    plainOut := s.plainOut.filter fun e => !gone (if e.1 / 512 = 0 then .m0 else .m1) crypto
    fwOps := s.fwOps.filter fun o => !mine o
    canary := s.canary.filter fun c => !gone c.die anchor
    loads := s.loads.filter fun l => !gone l.die anchor
    marches := s.marches.filter fun m => !gone m.die (dom (memDom t m.mem))
    surveys := s.surveys.filter fun v => !gone (faceOf v.n) anchor
    captures := s.captures.filter fun c => !gone (faceOf c.n) (dom (if bits c.op.desc.arg0.toNat 1 0 = 0 then Dom.convRx else Dom.convTx))
    auxQ := s.auxQ.filter fun e => !gone e.die aux
    auxWait := s.auxWait.filter fun e => !gone e.die aux
    auxRun := s.auxRun.filter fun e => !gone e.die aux
    pool := s.pool.filter fun p => !gone (millOf p.n) (anchor || dom Dom.outer)
    poolPast := s.poolPast.filter fun p => !gone (millOf p.n) (anchor || dom Dom.outer)
    rxLine := s.rxLine.filter fun e => !gone (millOf e.1) (anchor || dom Dom.outer)
    txLine := s.txLine.filter fun e => !gone (millOf e.1) (anchor || dom Dom.outer)
    lfOut := s.lfOut.filter fun e => !gone (faceOf e.1) (dom Dom.txdsp)
    nlc := s.nlc.filter fun e => !gone (faceOf e.1) (dom Dom.crdm)
    pilots := s.pilots.filter fun e => !gone (faceOf (e.1 / streamCount)) (dom Dom.crdm)
    slipRecs := s.slipRecs.filter fun r => !gone (faceOf r.n) (dom Dom.crdm)
    slipFixes := s.slipFixes.filter fun r => !gone (millOf r.n) anchor
    msgTx := s.msgTx.filter fun e => !gone (millOf e.1) anchor
    msgRx := s.msgRx.filter fun e => !gone (millOf e.1) anchor
    annTargets := s.annTargets.filter fun e => !gone (millOf e.1) anchor
    ttis := s.ttis.filter fun e => !(t.isMill && e.key / 1024 == t.code && dom Dom.otn)
    psis := s.psis.filter fun e => !(t.isMill && e.key / 1024 == t.code && dom Dom.otn)
    ttiSend := s.ttiSend.filter fun e => !(t.isMill && e.1 / 1024 == t.code && dom Dom.otn)
    xcBuf := s.xcBuf.filter fun e => !(e.1 % 65536 / 32 == t.code && dom Dom.otn)
    xcSent := s.xcSent.filter fun e => !(e.1 / 8192 == t.code && dom Dom.otn)
    insLast := s.insLast.filter fun e => !(t.isMill && e.1 / 1024 == t.code && dom Dom.otn)
    ohSent := s.ohSent.filter fun e => !(t.isMill && e.1 / 1024 == t.code && dom Dom.otn)
    ohRecv := s.ohRecv.filter fun e => !(t.isMill && e.1 / 1024 == t.code && dom Dom.otn) }

/-- The positions in the engines of a DEC domain wait again. -/
def State.returnPositions (s : State) (t : Die) (k : Nat) : State :=
  let here (p : Pos) : Bool := match p.phase with
    | .decoding e => millOf p.n == t && e / 17 == k
    | .waiting | .finished => false
  { s with pool := updateWhere here (fun p => { p.fromLlrs with phase := .waiting }) s.pool }

/-- The power request that runs aborts with reason RESET when an affected domain changes incarnation before ENTER (R522,
R639). -/
def State.powerReset (s : State) (hit : Die → Nat → Bool) : State :=
  match s.pwr with
  | none => s
  | some r =>
    match r.doms.find? fun e => hit e.die e.dom with
    | none => s
    | some e =>
      (s.abortedBy e.die e.dom 0x12 r.req.target).endEntry r .resetAborted true

/-- What a domain loses when its logic is reset or loses power (R636, R402): its fields, its part of the running work. A carrier's
acquisition is OFF before its state is lost (R150, R192). -/
def State.domainLost (s : State) (t : Die) (dom : Nat) : State :=
  let s := if t.isFace ∧ dom = Dom.crdm then s.acqOff t.carrier else s
  let s := (s.loseWhere fun k => keyDie k == t.code && lossOf k == .domain dom).purge t (· == dom)
  let s := if dom = Dom.crypto ∧ t.isMill = true then s.loseKeys t else s
  let s := if t.isMill ∧ dom < 4 then s.returnPositions t dom else s
  s

/-- What a die loses with all its domains and its shift store (R78, R637): both copies of every setting, its mapping
tables, its key slots and its memories. -/
def State.dieLost (s : State) (t : Die) : State :=
  let s := s.loseWhere fun k => keyDie k == t.code && (match lossOf k with
    | .domain _ | .shiftStore => true
    | .package | .surface => false)
  let s := ((s.purge t fun _ => true).loseKeys t).loseKek t
  let s := (Die.mems t).foldl (fun s m => s.loseMem t m) s
  { s with held := s.held.filter fun h => h.pkg || h.die != t
           assay := s.assay.filter fun e => e.1 / 4096 != t.code }

/-- A die goes down outside a power request: a reset, a trip or a lost rail (R34, R36, R626, R637, R638). -/
def State.dieDown (s : State) (t : Die) : State :=
  let s := (s.linksDown t false).abortTo (fun d _ => d == t) (portToward t)
  let s := (s.dropFromCommit [t]).powerReset fun d _ => d == t
  let s := ((Die.carriersOf t).filter s.hasCarrier).foldl (fun s n => if t.isMill then s.frameDown n else s.acqOff n) s
  let s := (s.dieLost t).reincarnate t 63
  t.domains.foldl (fun s k => s.reincarnate t k) s

/-- Engines of a die's clusters execute again (R631, R637). -/
def State.clustersRun (s : State) (t : Die) (doms : List Nat) : State :=
  doms.foldl (fun s k => match clusterOf t k with
    | some c => s.wr .fwRunning t c 1
    | none => s) s

/-- The die's sections of the image that booted, loaded (R631, R637): its clusters' code, and the value of the lockable field
of a Mill die (R658). -/
def State.loadSections (s : State) (t : Die) : State :=
  let s := t.domains.foldl (fun s k => match clusterOf t k with
    | some c => s.wrs t c [(.fwSvnRunning, s.rd .svnRunning), (.fwSvnLive, s.rd .svnRunning), (.fwStaged, 0), (.fwSwapping, 0)]
    | none => s) s
  match (s.bootImage.bind fun i => i.keyLimit) with
  | some v => if t.isMill then s.wr .cryKeyLimitLog2 t 0 v.toNat else s
  | none => s

/-- A die returns to Run with its reset settings: stale, its links trained (R78, R637). -/
def State.dieBack (s : State) (t : Die) : State :=
  let s := s.loadSections t
  let s := t.domains.foldl (fun s k => s.wr .domState t k 0) ((s.wr .inReset t 63 0).clustersRun t t.domains)
  let s := (Die.portsOf t).foldl (fun s p => s.wr .winzLocalIncarnation t p (s.rd .incarnation t 63)) s
  (s.linksUp t).markStale t

/-- A domain enters a state deeper than Run (R142, R402, R515, R585). -/
def State.enterDomain (s : State) (t : Die) (dom st : Nat) : State :=
  let s := s.wrs t dom [(.domState, st), (.domBusy, 0)]
  let s := match clusterOf t dom with
    | some c => if 2 ≤ st then s.wr .fwRunning t c 0 else s
    | none => s
  let s := if t.isMill ∧ dom < 4 then s.wr .decHold t dom 0 else s
  if st < 3 then s
  else
    let s := if t.isFace ∧ dom = Dom.auxm then
        (List.range 16).foldl (fun s c => s.wrs t c [(.biasCode, 0), (.biasHost, 0)]) s else s
    let s := if (t.isFace ∧ dom = Dom.auxm) ∨ (t = .m1 ∧ dom = Dom.timing) then s.wr .auxRefSettled t 0 0 else s
    let s := if t.isMill ∧ dom = Dom.crypto then (s.loseKeys t).loseKek t else s
    let s := if dom = t.anchor ∧ t ≠ .m0 then (s.linksDown t true).wr .plannedDown t 0 1 else s
    if st = 4 then (s.domainLost t dom) else s

/-- A domain returns to Run (R515, R525, R553): after Deep sleep or Off its memories are invalid and its converters
calibrated; after Off it has a new incarnation, and the anchor's exit resets the die's shift store. -/
def State.wakeDomain (s : State) (t : Die) (dom : Nat) : State :=
  let old := s.domSt t dom
  let s := s.wrs t dom [(.domState, 0), (.domBusy, 0)]
  if old = 0 then s else
  let s := s.clustersRun t [dom]
  if old < 3 then s else
  let s := (domMems t dom).foldl (fun s m => s.loseMem t m) s
  let s := if t.isFace ∧ dom ≤ Dom.convRx then s.fgEnd t else s
  let s := if old = 4 then (s.abortTo (fun d k => d == t && k == dom) (portToward t)).reincarnate t dom else s
  if dom ≠ t.anchor then s
  else if t = .m0 then s.linksUp t
  else
    let s := if old = 4 then ((s.dieLost t).loadSections t).reincarnate t 63 else s
    let s := s.wrs t 0 [(.plannedDown, 0), (.tripped, 0)]
    let s := s.linksUp t
    if old = 4 then s.markStale t else s

end Sys2Proof.Machine
end

