-- ==== Sys2Proof/Machine/Power.lean ====
section
/-! DEFINITION. The power handshake (R512 to R526), the tally's stop and resumption (R83 to R88), and the lamp board's clear. -/

namespace Sys2Proof.Machine

/-- The tally stops at an SF boundary and the surface domain counts ticks from it (R83, R685). -/
def State.stopTally (s : State) : State :=
  if !s.tallyOn then s else
  State.wrs { s with tallyOn := false, tally := s.sf * sfLen } .m0 0 [(.surfHeldSf, s.sf), (.surfTicks, 0), (.surfEverHeld, 1),
    (.surfRate, s.rd .symRate), (.stopSf, s.sf)]

/-- SFs that a number of ticks takes, in 2^-35 of an SF (R84): the rate is in quarters of a GBd. -/
def tickSf (ticks rq : Nat) : Nat := ticks * rq * 250000000

/-- The advance of R84 and R86. -/
def wakeAdvance (ticks rq : Nat) (lost : Bool) : Nat :=
  let a := max 1 (ceilDiv (tickSf ticks rq) (2 ^ 35))
  if lost then max 1 (ceilDiv (a * 5) 4) else a

/-- The error bound of R85 and R86; it stays at its greatest value (assumption 21). -/
def wakeErr (ticks rq ppm advance : Nat) (lost : Bool) : Nat :=
  min 0xFFFF (1 + ceilDiv (tickSf 1 rq) (2 ^ 35) +
    (if lost then ceilDiv advance 3 else ceilDiv (tickSf ticks rq * ppm) (2 ^ 35 * 1000000)))

/-- The tally resumes (R84 to R86). -/
def State.resumeTally (s : State) : State :=
  if s.tallyOn then s else
  let n := s.rd .surfTicks
  let rq := s.rd .surfRate
  let lost := s.on .surfOsc
  let adv := wakeAdvance n rq lost
  let sf := s.rd .surfHeldSf + adv
  let s := (s.wr48 .tallyWakeAdvanceLo .tallyWakeAdvanceHi .m0 0 adv).wrs .m0 0
    [(.tallyWakeErrSf, wakeErr n rq (s.rd .tallySurfPpm) adv lost), (.resumeSf, sf)]
  { s with tallyOn := true, tally := sf * sfLen }

/-- The domains that a package-scope request names (R516): all but M0's HOSTIF and TIMING. A die that a trip took to Off
stays out (R639). -/
def State.packageDoms (s : State) : List (Die × Nat) :=
  (Die.all.filter fun t => s.has t && !s.on .tripped t).flatMap fun t =>
    (t.domains.filter fun k => !(t == .m0 && (k == Dom.hostif || k == Dom.timing))).map fun k => (t, k)

/-- The domains that a PWR_REQ names, by its scope (R514, R517). -/
def State.namedDoms (s : State) (d : Desc) : List (Die × Nat) :=
  match bits d.arg0.toNat 4 3 with
  | 0 => s.grouped [(d.mill, d.dom)]
  | 1 => d.mill.domains.map fun k => (d.mill, k)
  | _ => s.packageDoms

/-- What makes a PWR_REQ malformed (R512, R517, R47, R56). -/
def powerBad (d : Desc) : Bool :=
  let a := d.arg0.toNat
  let scope := bits a 4 3
  bits d.target.toNat 5 0 != 0 || decide (128 ≤ a) || decide (5 ≤ bits a 2 0) || scope == 3 || (scope == 1 && d.dom != 0) ||
    (scope == 2 && d.target != 0) || (scope == 0 && !d.mill.domains.contains d.dom) || d.die.isNone ||
    (!bit a 6 && (d.sf != 0 || d.off != 0)) || d.off != 0 || !d.clearFrom 24

/-- PWR_REQ (R5, R506, R517, R518). -/
def execPwrReq (d : Desc) (s : State) : Host.Outcome State Fault Refusal :=
  let a := d.arg0.toNat
  let t := d.mill
  .next <| s.take 0x30 d (powerBad d) fun s =>
    if !s.has t then s.finish 0x30 d .targetUnpowered
    else if !s.dieInReset t && !(s.domDead t t.anchor && s.on .plannedDown t) && !s.reach t then
      (s.raise Reason.dieUnreachable (blkId t)).finish 0x30 d .retry
    else s.askPower ⟨some ⟨0x30, d⟩, bits a 2 0, s.namedDoms d, bit a 5, bits a 4 3 == 2,
      if bit a 6 then some d.sf.toNat else none⟩

/-- A carrier of the Mill die is enabled (R526, R531). -/
def State.carrierEnabled (s : State) (t : Die) : Bool :=
  (Die.carriersOf t).any fun n => s.hasCarrier n && (s.on .dacTxEnable (faceOf n) || s.on .rxEnable (faceOf n))

/-- A port that some lanes serve is in use. -/
def State.portsUsed (s : State) (t : Die) (lanes : List Nat) : Bool := lanes.any fun l => s.rd .portMode t l != 0

/-- The Mill die that an ore bin die serves. -/
def millOfBin (t : Die) : Die := if t = .b1 then .m1 else .m0

/-- A skew buffer of R313 is configured on a Mill die. -/
def State.skewUsed (s : State) (d : Die) : Bool :=
  (List.range 4).any fun g => decide (2 ≤ (s.rxMembers g).length) && (s.rxMembers g).any fun n => millOf n == d

/-- TRAFFIC (R526). -/
def State.trafficOn (s : State) (t : Die) (k : Nat) : Bool :=
  if t.isFace then
    let tx := s.on .dacTxEnable t
    let rx := s.on .rxEnable t
    if k = Dom.convTx ∨ k = Dom.txdsp ∨ k = Dom.auxm then tx
    else if k = Dom.convRx ∨ k = Dom.cdc ∨ k = Dom.eq ∨ k = Dom.crdm then rx
    else k == Dom.winz && (tx || rx)
  else if t.isMill then
    if k = Dom.outer ∨ k = Dom.frame ∨ k = Dom.otn then s.carrierEnabled t || s.portsUsed t (List.range 24)
    else if k = Dom.clntA then s.portsUsed t (List.range 12)
    else k == Dom.clntB && s.portsUsed t ((List.range 12).map (· + 12))
  else s.skewUsed (millOfBin t)

/-- ALWAYS_ON (R514, R516, R526). -/
def State.alwaysOn (s : State) (r : PwrReq) (t : Die) (k : Nat) : Bool :=
  (!r.pkg && t == .m0 && (k == Dom.hostif || k == Dom.timing || (decide (s.part ≤ 4) && k != 2 && k != 3))) ||
    (!r.pkg && t == .b0 && !s.rings.isEmpty) ||
    (t == .m1 && k == Dom.timing && [Die.m1, .f2, .f3, .b1].any fun e => s.has e && e.domains.any fun j =>
      !(e == .m1 && j == Dom.timing) && decide (s.domSt e j ≤ 2) && !(decide (3 ≤ r.target) && r.doms.contains (e, j)))

/-- A live firmware update of a cluster (R526, R643, R644). -/
def State.updating (s : State) (t : Die) (k : Nat) : Bool :=
  (clusterOf t k).any fun c => s.on .fwSwapping t c ||
    s.fwOps.any fun o => o.opcode == 0x32 && o.desc.die == some t && o.desc.dom == k

/-- The reason for which a domain refuses a request, in the order of R526; none where it does not (R141, R407, R513, R524). -/
def State.refusal (s : State) (r : PwrReq) (t : Die) (k : Nat) : Option Nat :=
  let limit (n : Nat) : Bool := decide (n < s.rd .carStepsGrant .m0 t.carrier) || decide (n < s.rd .carNlFloor .m0 t.carrier)
  if !r.force && s.trafficOn t k then some 0x01
  else if s.alwaysOn r t k then some 0x02
  else if t.isFace && k == 0x0A && [0, 1].any fun p => 2 ≤ s.rd .loopState t p then some 0x03
  else if t.isMill && k == Dom.crypto && decide (2 ≤ r.target) &&
      (s.streams .live).any fun e => e.1 == t && s.streamOn .live t e.2 then some 0x04
  else if t.isMill && decide (k < 4) && s.carrierEnabled t && s.domSt t k == 0 &&
      (List.range 4).all fun j => s.domSt t j != 0 || r.doms.contains (t, j) then some 0x05
  else if t.isFace && ((k == Dom.nlc0 && limit 0) || (k == Dom.nlc1 && limit 16)) then some 0x06
  else if k == t.anchor && t.domains.any fun j => j != k && decide (s.domSt t j < r.target) && !r.doms.contains (t, j) then some 0x07
  else if s.updating t k then some 0x09
  else none

/-- A domain must wait before it grants: a DEC domain until its engines are empty (R277, R520), an anchor asked for Deep
sleep or Off while its die is frozen (R526). -/
def State.mustWait (s : State) (target : Nat) (t : Die) (k : Nat) : Bool :=
  (t.isMill && decide (k < 4) && s.pool.any fun p => millOf p.n == t && (match p.phase with
    | .decoding e => e / 17 == k
    | .waiting | .finished => false)) ||
  (k == t.anchor && decide (3 ≤ target) && s.on .viewFrozen t)

/-- The entry of a domain in the request that runs replaced. -/
def PwrRun.setDom (r : PwrRun) (t : Die) (k : Nat) (ans : PwrAns) (seen : Bool) : PwrRun :=
  { r with doms := updateWhere (fun e => e.die == t && e.dom == k) (fun e => { e with ans := ans, seen := seen }) r.doms }

/-- The entry of a domain in the request that runs. -/
def PwrRun.find (r : PwrRun) (t : Die) (k : Nat) : Option PwrDom := r.doms.find? fun e => e.die == t && e.dom == k

/-- PWR_REQUEST (R519, R520): a domain receives REQUEST and answers; a DEC domain that does not refuse stops taking
positions. -/
def execPwrRequest (t : Die) (dom : Fin 16) (s : State) : Host.Outcome State Fault Refusal :=
  match s.pwr with
  | none => .next s
  | some r =>
    if !((r.find t dom).any fun e => e.ans == .none) || !s.reach t then .next s
    else
      match s.refusal r.req t dom with
      | some k => .next { s with pwr := some (r.setDom t dom (.refuse k) false) }
      | none =>
        let wait := s.mustWait r.req.target t dom
        let s : State := { s with pwr := some (r.setDom t dom (if wait then .delay else .grant) false) }
        .next (if t.isMill ∧ dom.val < 4 then (s.wr .decHold t dom 1).poolShow t else s)

/-- Every affected domain has granted, and the shift boss knows (R521). -/
def PwrRun.allGranted (r : PwrRun) : Bool := r.doms.all fun e => e.ans == .grant && e.seen

/-- PWR_ANSWER (R519, R521, R522): the shift boss receives an answer. A refusal ends the entry; the last grant sends ENTER
for the next SF boundary, but for at_tally, whose answers are due before position (boundary − 4):0. -/
def execPwrAnswer (t : Die) (dom : Fin 16) (s : State) : Host.Outcome State Fault Refusal :=
  match s.pwr with
  | none => .next s
  | some r =>
    match r.find t dom with
    | none => .next s
    | some e =>
      if e.seen || e.ans == .none || !s.reach t then .next s
      else if r.enter.isNone && r.req.boundary.any fun b => decide (b ≤ s.sf + 4) then .next (s.endEntry r .late false)
      else
      let r := r.setDom t dom e.ans true
      match e.ans with
      | .refuse k => .next ((s.refusedBy t dom k r.req.target).endEntry r .refused true)
      | .none | .delay | .grant =>
        .next { s with pwr := some { r with enter := if r.allGranted && r.req.boundary.isNone then some (s.sf + 1) else r.enter } }

/-- DOMAIN_GRANT (R277, R519, R520, R526): a domain that answered DELAY grants once what it waited for is over. -/
def execDomainGrant (t : Die) (dom : Fin 16) (s : State) : Host.Outcome State Fault Refusal :=
  match s.pwr with
  | none => .next s
  | some r =>
    if ((r.find t dom).any fun e => e.ans == .delay) && !s.mustWait r.req.target t dom
    then .next { s with pwr := some (r.setDom t dom .grant false) } else .next s

/-- PWR_TIMEOUT (R519, R522, R526): no final answer within 1,024 SF; for a frozen die the reason is SHIFT_FROZEN. -/
def execPwrTimeout (t : Die) (dom : Fin 16) (s : State) : Host.Outcome State Fault Refusal :=
  match s.pwr with
  | none => .next s
  | some r =>
    if decide (r.since + 1024 ≤ s.sf) && r.enter.isNone && (r.find t dom).any fun e => e.ans == .none || e.ans == .delay then
      let k := if dom.val = t.anchor ∧ 3 ≤ r.req.target ∧ s.on .viewFrozen t = true then 0x08 else 0x10
      .next ((s.abortedBy t dom k r.req.target).endEntry r .refused true)
    else .next s

/-- PWR_DEADLINE (R521): at (boundary − 4):0 of an at_tally request, ENTER, or RELEASE and LATE. -/
def execPwrDeadline (s : State) : Host.Outcome State Fault Refusal :=
  match s.pwr with
  | none => .next s
  | some r =>
    match r.req.boundary with
    | none => .next s
    | some b =>
      if r.enter.isSome || s.sf + 4 < b then .next s
      else if r.allGranted then .next { s with pwr := some { r with enter := some b } }
      else .next (s.endEntry r .late false)

/-- The states that follow the domains of every die. -/
def State.allGates (s : State) : State := (Die.all.filter s.has).foldl State.gates s

/-- The parked domains of a Mill die changed, with their event (R531, R539, R542). -/
def State.setParked (s : State) (t : Die) (l : List Nat) : State :=
  let v := ((List.range 4).map fun k => if l.contains k then 2 ^ k else 0).sum
  if v = s.rd .pmillDecParked .m0 t.code then s
  else (s.wr .pmillDecParked .m0 t.code v).raise Reason.decPark (blkId t) v

/-- What a request of the shift boss's own leaves on the lists of parked domains (R531). -/
def State.parkMarks (s : State) (r : PwrReq) : State :=
  [Die.m0, .m1].foldl (fun s t =>
    let mine := (r.doms.filter fun e => e.1 == t && decide (e.2 < 4)).map (·.2)
    if mine = [] then s
    else if r.target = 2 ∧ r.op = none then s.setParked t (s.parked t ++ mine)
    else s.setParked t ((s.parked t).filter (!mine.contains ·))) s

/-- PWR_ENTER (R513, R515, R516, R521): the domains enter in order at the boundary, then the completion follows. Package
Deep sleep and Off stop the tally. -/
def execPwrEnter (s : State) : Host.Outcome State Fault Refusal :=
  match s.pwr with
  | none => .next s
  | some r =>
    if !(r.enter.any fun b => decide (b ≤ s.sf)) then .next s else
    let s := r.doms.foldl (fun s e => s.enterDomain e.die e.dom r.req.target) { s with pwr := none }
    let s := (s.allGates.wrP .pwrHsBusy 0).parkMarks r.req
    let s := if r.req.pkg && decide (3 ≤ r.req.target) then s.stopTally else s
    let s := if r.req.pkg && r.req.target == 4 then s.wrP .pkgOff 1 else s
    let s := (s.hostMarks r.req).endRequest r.req .ok
    .next (s.nextRequests s.pwrQ)

/-- PWR_RELEASE (R522): the domain keeps its state; a DEC domain takes positions again. -/
def execPwrRelease (t : Die) (dom : Fin 16) (s : State) : Host.Outcome State Fault Refusal :=
  if !s.releases.contains (t, dom.val) || !s.reach t then .next s else
  let s : State := { s with releases := s.releases.filter (· != (t, dom.val)) }
  let s := s.wr .domBusy t dom 0
  .next (if t.isMill ∧ dom.val < 4 then (s.wr .decHold t dom 0).poolShow t else s)

/-- WAKE_SOURCE (R515, R523): a domain in Idle wakes by itself; one that has granted aborts with reason WAKE before
ENTER. -/
def execWakeSource (t : Die) (dom : Fin 16) (s : State) : Host.Outcome State Fault Refusal :=
  if !s.has t then .next s
  else .next (if s.domSt t dom = 1 then (s.wakeBy t dom).gates t else s.wakeBy t dom)

/-- LAMP_CLEAR (R527, R540). -/
def execLampClear (s : State) : Host.Outcome State Fault Refusal :=
  .next ((s.loseWhere fun k => (fldRowAt (keyFld k)).blk = .lamp).wrs .m0 0
    [(.pwrLampUsed, 0), (.pwrLampOverflow, 0), (.pwrRefusals, 0), (.pwrAborts, 0)])

end Sys2Proof.Machine
end

