-- ==== Sys2Proof/Machine/Budget.lean ====
section
/-! DEFINITION. Budget grants and heat (R528 to R538), the parking of DEC and NLC1 domains (R530, R531), and domains back in
Run (R525). Powers are counted in units of 1/17,408 µW, in which every cost of R532 is a whole number. -/

namespace Sys2Proof.Machine

/-- Units in a microwatt. -/
abbrev unitsPerUw : Nat := 17408

/-- Units in a watt. -/
abbrev unitsPerW : Nat := unitsPerUw * 1000000

/-- A carrier's steps draw power: in TRACK with spans (R159, R532). -/
def State.stepsRun (s : State) (n : Nat) : Bool := s.acq n == 7 && decide (1 ≤ s.rd .nlcSpanCount (faceOf n))

/-- The cost of one step of a carrier (R532). -/
def State.stepCost (s : State) (n : Nat) : Nat := if s.stepsRun n then s.rd .stepMwAct * 1000 * s.rq * 16 else 0

/-- The cost of an overtime token per SF (R532). -/
def State.tokenCost (s : State) : Nat := s.rd .otUwAct * s.rq * 16

/-- The cost of a 64th of survey duty (R532): survey_dw × 0.1 W / 64. -/
def State.surveyCost (s : State) : Nat := s.rd .surveyDwAct * 27200000

/-- The cost of tagging at k (R532): 0.6 W × 2^(8 − k). -/
def tagCost (k : Nat) : Nat := 159375 * 2 ^ (24 - k)

/-- A value of a list of four or two. -/
def nth (l : List Nat) (i : Nat) : Nat := l.getD i 0

/-- The carriers of the configuration. -/
def State.carriers (s : State) : List Nat := (List.range 4).filter s.hasCarrier

/-- The Mill dies of the configuration, by number. -/
def State.mills (s : State) : List Nat := [0, 1].filter fun m => s.has (millAt m)

/-- flex_cost of R534. -/
def State.flexCost (s : State) (g : Grants) : Nat :=
  (s.carriers.map fun n => nth g.steps n * s.stepCost n + nth g.survey n * s.surveyCost).sum +
    (s.mills.map fun m => nth g.ot m * s.tokenCost + tagCost (nth g.k m)).sum

/-- The grants in force (R541, R542). -/
def State.inForce (s : State) : Grants :=
  let car (f : Fld) : List Nat := (List.range 4).map (s.rd f .m0 ·)
  let mill (f : Fld) : List Nat := [s.rd f .m0 0, s.rd f .m0 1]
  ⟨car .carStepsGrant, car .carCapGrant, car .carSurveyDuty, mill .pmillOtGrant, mill .pmillAssayK⟩

/-- The predicted gain of x steps in 1/1,600 dB, interpolated in the table after R163. -/
def stepGain (x : Nat) : Nat :=
  120 * min x 2 + 80 * (min x 4 - 2) + 60 * (min x 8 - 4) + 30 * (min x 16 - 8) + 15 * (min x 32 - 16)

/-- The thermal level of a die: 0 NORMAL, 1 WARN, 2 THROTTLE. -/
def State.level (s : State) (t : Die) : Nat := s.rd .thermLevel t

/-- NLC1 of a carrier runs (R530). -/
def State.nlc1Runs (s : State) (n : Nat) : Bool := s.domSt (faceOf n) Dom.nlc1 == 0 && !s.domInReset (faceOf n) Dom.nlc1

/-- A carrier may get one more step (R535), leaving R530 aside. -/
def State.mayStep (s : State) (g : Grants) (n : Nat) : Bool :=
  let x := nth g.steps n
  let last := s.rd .carStepsGrant .m0 n
  s.acq n == 7 && decide (x < s.rd .carStepMax .m0 n) && decide (x + 1 ≤ last + max 1 (s.rd .stepSlewAct)) &&
    (match s.level (faceOf n) with
      | 0 => true
      | 1 => decide (x < last)
      | _ => false)

/-- The predicted margin of a carrier with the steps given so far, in 1/1,600 dB (R535). -/
def State.predicted (s : State) (g : Grants) (n : Nat) : Int :=
  16 * toInt 16 (s.rd .carMargin .m0 n) - stepGain (s.rd .carStepsGrant .m0 n) + stepGain (nth g.steps n)

/-- weakest_eligible of R535: the least predicted margin, a tie to the lower carrier. -/
def State.weakest (s : State) (g : Grants) : Option Nat :=
  (s.carriers.filter fun n => s.mayStep g n && (decide (nth g.steps n < 16) || s.nlc1Runs n)).foldl (fun b n => match b with
    | none => some n
    | some m => if s.predicted g n < s.predicted g m then some n else some m) none

/-- The steps given out, one by one (R534). -/
def State.giveSteps (s : State) : Nat → Grants → Int → Grants × Int
  | 0, g, room => (g, room)
  | f + 1, g, room =>
    match s.weakest g with
    | none => (g, room)
    | some n =>
      if room < s.stepCost n then (g, room)
      else s.giveSteps f { g with steps := g.steps.set n (nth g.steps n + 1) } (room - s.stepCost n)

/-- How many units of a cost fit into a room, up to a ceiling. -/
def fit (ceil cost : Nat) (room : Int) : Nat := if cost = 0 then ceil else min ceil (room.toNat / cost)

/-- ot_ceiling of a Mill die (R534, R537). -/
def State.otCeiling (s : State) (m : Nat) : Nat :=
  match s.level (millAt m) with
  | 0 => s.rd .pmillOtMax .m0 m
  | 1 => min (s.rd .pmillOtMax .m0 m) (s.rd .pmillOtGrant .m0 m)
  | _ => 0

/-- survey_ceiling of a carrier (R534, R537, R541). -/
def State.surveyCeiling (s : State) (n : Nat) : Nat := if s.level (faceOf n) = 0 then min 64 (s.rd .carSurveyReq .m0 n) else 0

/-- The overtime of the Mill dies (R534). -/
def State.giveOt (s : State) (x : Grants × Int) : Grants × Int :=
  s.mills.foldl (fun x m =>
    let k := fit (s.otCeiling m) (2 * s.tokenCost) x.2
    ({ x.1 with ot := x.1.ot.set m k }, x.2 - k * s.tokenCost)) x

/-- The survey duties (R534). -/
def State.giveSurvey (s : State) (x : Grants × Int) : Grants × Int :=
  s.carriers.foldl (fun x n =>
    let k := fit (s.surveyCeiling n) s.surveyCost x.2
    ({ x.1 with survey := x.1.survey.set n k }, x.2 - k * s.surveyCost)) x

/-- k of one Mill die lowered while the room lasts (R534, R537). -/
def lowerK (kmin : Nat) : Nat → Nat → Int → Nat × Int
  | 0, k, room => (k, room)
  | f + 1, k, room =>
    if kmin < k ∧ (tagCost k : Int) ≤ room then lowerK kmin f (k - 1) (room - tagCost k) else (k, room)

/-- The tagging rates (R534, R542). -/
def State.giveTags (s : State) (x : Grants × Int) : Grants × Int :=
  s.mills.foldl (fun x m =>
    let kmin := if s.level (millAt m) = 2 then 24 else max 8 (min 24 (s.rd .pmillAssayKMin .m0 m))
    let r := lowerK kmin 16 (nth x.1.k m) x.2
    ({ x.1 with k := x.1.k.set m r.1 }, r.2)) x

/-- The floors (R529, R534). -/
def State.floors (s : State) : Grants :=
  ⟨(List.range 4).map (s.rd .carNlFloor .m0 ·), (List.range 4).map (s.rd .carCapFloor .m0 ·), [0, 0, 0, 0], [0, 0], [24, 24]⟩

/-- The caps above their floors (R534, R537). -/
def State.giveCaps (s : State) (g : Grants) : Grants :=
  { g with cap := (List.range 4).map fun n =>
      if s.level (millOf n) = 2 then nth g.cap n else s.rd .carCapTarget .m0 n }

/-- Watts of a power, from 0 to 1,023 (R540). -/
def wattsOf (v : Int) : Nat := min 1023 (v / (unitsPerW : Int)).toNat

/-- The grants of R534 from the power outside the flexible spend, issued for the next SF boundary. FLOOR_OVER_BUDGET is raised
when floor_over sets. -/
def State.issueGrants (s : State) (other : Int) : State :=
  let before : Int := ((s.rd .budgetAct : Int) - s.rd .guardAct) * unitsPerW - other
  let g := s.floors
  let cost : Nat := s.flexCost g
  let room := before - cost
  let send (s : State) (g : Grants) : State :=
    { (s.wrP .pwrPGrantedW (wattsOf (other + s.flexCost g))).wrP .grantSf s.sf with grants := some g }
  if room < 0 then
    let s' := if s.on .pwrFloorOver then s
      else (s.wrP .pwrFloorOver 1).raise Reason.floorOverBudget (blkId .m0) (wattsOf cost) (ofInt 32 (before / (unitsPerW : Int)))
    send s' g
  else
    let x := s.giveTags (s.giveSurvey (s.giveOt (s.giveSteps 160 (s.giveCaps g) room)))
    send (s.wrP .pwrFloorOver 0) x.1

/-- The most a die is taken to draw, in 10 mW (R533). -/
def maxDie (t : Die) : Nat := if t.isFace then 4200 else if t.isMill then 3800 else 1400

/-- What one code of rail k of the auxiliary channels stands for (R667): the divider of its voltage channel, and the current of one
code in mA. -/
def railScale (t : Die) (k : Nat) : Nat × Nat :=
  if t.isFace then [(1, 20), (1, 20), (1, 2), (1, 5), (2, 2), (2, 1)].getD k (1, 0)
  else [(1, 20), (1, 2), (1, 5), (2, 2), (2, 2), (2, 10)].getD k (1, 0)

/-- The power of rail k over the interval in nW (R528, R581, R667): its mean voltage times its mean current; none where one of its
channels has not been read. -/
def State.railPower (s : State) (t : Die) (k : Nat) : Option Nat :=
  let c := s.rd .supCount t (2 * k) * s.rd .supCount t (2 * k + 1)
  let g := railScale t k
  if c = 0 then none
  else some (s.rd .supSum t (2 * k) * 293 * g.1 * (s.rd .supSum t (2 * k + 1) * g.2) / c)

/-- The sum of rails, none where one is missing. -/
def State.railsPower (s : State) (t : Die) : List Nat → Option Nat
  | [] => some 0
  | k :: l => match s.railPower t k, s.railsPower t l with
    | some a, some b => some (a + b)
    | _, _ => none

/-- The reading of a die over the interval that ends, in 10 mW (R533, R667): its own rails; for an ore bin die the two that its Mill
die measures. None for a tagged or a missing reading (assumption 78). -/
def State.supplyOf (s : State) (t : Die) : Option Nat :=
  let at' := if t.isBin then millOfBin t else t
  let rails := if t.isFace then [0, 1, 2, 3, 4, 5] else if t.isMill then [0, 1, 2, 3] else [4, 5]
  if s.on .supTagged at' then none else (s.railsPower at' rails).map (· / 10 ^ 7)

/-- The sums of a die's supply channels begin again. -/
def State.supplyClear (s : State) (t : Die) : State :=
  (List.range 12).foldl (fun s k => s.zeros t k [.supSum, .supCount]) (s.wr .supTagged t 0 0)

/-- One die's supply reading (R533): the reading, the last good one, or the maximum. -/
def State.supply (s : State) (t : Die) (v : Option Nat) : State :=
  match v with
  | some v => (s.wrs t 0 [(.supBad, 0), (.supGood, 1), (.supLast, v)]).wrs .m0 t.code [(.pdiePDie, v), (.pdieStale, 0)]
  | none =>
    let n := satAdd 3 (s.rd .supBad t) 1
    let s := s.wr .supBad t 0 n
    let p := if 4 ≤ n ∨ !s.on .supGood t then maxDie t else s.rd .supLast t
    let s := s.wr .pdiePDie .m0 t.code p
    if n = 4 then ((s.wrP .pwrTelemStale 1).wr .pdieStale .m0 t.code 1).raise Reason.telemStale (blkId t) else s

/-- The thresholds of the levels in 0.125 °C (R536, R540). -/
def State.thermWarnAt (s : State) : Nat := 8 * min 110 (s.rd .tWarnAct)
/-- The THROTTLE threshold, not below the WARN one (R540). -/
def State.thermThrottleAt (s : State) : Nat := max (8 * s.rd .tThrottleAct) s.thermWarnAt

/-- The level of a temperature, from the level before (R536). -/
def State.levelAt (s : State) (cur : Nat) (temp : Int) : Nat :=
  let hyst : Int := 8 * max 1 (s.rd .tHystAct)
  let warn : Int := s.thermWarnAt
  let thr : Int := s.thermThrottleAt
  if thr ≤ temp then 2
  else if cur = 2 ∧ ¬ temp < thr - hyst then 2
  else if warn ≤ temp then 1
  else if 1 ≤ cur ∧ ¬ temp < warn - hyst then 1
  else 0

/-- The event of a level (R536). -/
def levelReason : Nat → Nat
  | 0 => Reason.thermClear | 1 => Reason.thermWarn | _ => Reason.thermThrottle

/-- A die's level judged (R536, R537): an entry to THROTTLE acts at the next SF boundary. -/
def State.thermJudge (s : State) (t : Die) (temp : Int) : State :=
  let cur := s.level t
  let new := s.levelAt cur temp
  if new = cur then s else
  let s := (s.wr .thermLevel t 0 new).raise (levelReason new) (blkId t) (ofInt 32 temp)
  let s := if new = 2 then s.wrs t 0 [(.thermFast, 1), (.thermFastSf, s.sf)] else s
  if t.isFace then s.wr .carThermLevel .m0 t.carrier new
  else if t.isMill then s.wr .pmillThermLevel .m0 t.code new
  else s

/-- Every grant that a die's THROTTLE level governs is at its floor (R538). -/
def State.atFloors (s : State) (t : Die) : Bool :=
  if t.isFace then
    decide (s.rd .carStepsGrant .m0 t.carrier ≤ s.rd .carNlFloor .m0 t.carrier) && s.rd .carSurveyDuty .m0 t.carrier == 0
  else if t.isMill then
    s.rd .pmillOtGrant .m0 t.code == 0 && s.rd .pmillAssayK .m0 t.code == 24 &&
      ((Die.carriersOf t).filter s.hasCarrier).all fun n => decide (s.rd .carCapGrant .m0 n ≤ s.rd .carCapFloor .m0 n)
  else true

/-- A die's last temperature (R542). -/
def State.tempOf (s : State) (t : Die) : Int := toInt 12 (s.rd .pdieTemp .m0 t.code)

/-- THERM_LIMIT at 105 °C with the grants at their floors (R538); raised once for each time the condition begins to hold. -/
def State.limitCheck (s : State) (t : Die) : State :=
  if 840 ≤ s.tempOf t ∧ s.atFloors t = true then
    if s.on .thermLimit t then s
    else (s.wr .thermLimit t 0 1).raise Reason.thermLimit (blkId t) (ofInt 32 (s.tempOf t))
  else s.wr .thermLimit t 0 0

/-- An ore bin die's temperature has not arrived for four intervals (R582): it is taken to be at t_throttle. -/
def State.binInterval (s : State) (t : Die) : State :=
  if s.on .binSeen t then s.wrs t 0 [(.binSeen, 0), (.binMiss, 0)]
  else
    let n := satAdd 3 (s.rd .binMiss t) 1
    let s := s.wr .binMiss t 0 n
    if n < 4 then s
    else
      let s := if n = 4 then (s.wrP .pwrTelemStale 1).raise Reason.telemStale (blkId t) else s
      s.thermJudge t s.thermThrottleAt

/-- NLC1 is woken for a carrier that needs more than 16 steps, and put to Sleep after 16 low intervals (R530). The need wakes a
domain that has granted (R523). -/
def State.nlc1Interval (s : State) (g : Grants) (n : Nat) : State :=
  let d := faceOf n
  let fl := s.rd .carNlFloor .m0 n
  let wants := !s.nlc1Runs n && (decide (16 < fl) || (nth g.steps n == 16 && s.mayStep g n))
  let low := if nth g.steps n ≤ 16 ∧ fl ≤ 16 then satAdd 5 (s.rd .nlcLow .m0 n) 1 else 0
  let s := s.wr .nlcLow .m0 n low
  if wants then ((s.wr .nlcWant .m0 n 1).wakeBy d Dom.nlc1).bossAsk 0 [(d, Dom.nlc1)]
  else if 16 ≤ low ∧ s.domSt d Dom.nlc1 ≤ 1 ∧ !s.on .hostRun d Dom.nlc1 then s.bossAsk 2 [(d, Dom.nlc1)]
  else s

/-- The DEC domains of a Mill die woken or parked at an interval (R531). `load` holds the peak pool load in percent, then the
peak reckoned without each DEC domain. A parked domain that would be parked again at once stays (assumption 22). -/
def State.decInterval (s : State) (t : Die) (load : List Nat) : State :=
  let without (k : Nat) : Nat := nth load (k + 1)
  let calm := s.on .decParkAct && decide (nth load 0 ≤ 85) && !s.dieSheds t
  let keep (k : Nat) : Bool := calm && (s.parked t).contains k && decide (without k < 70)
  let wake := (List.range 4).filter fun k => s.domSt t k == 2 && !s.on .hostSleep t k && !keep k
  if s.carrierEnabled t && !wake.isEmpty then s.bossAsk 0 (s.grouped (wake.map fun k => (t, k))).dedup
  else if !calm || decide (2 ≤ (s.parked t).length) then s
  else
    match ((List.range 4).reverse.find? fun k => s.domSt t k == 0 && !s.on .hostRun t k && decide (without k < 70)) with
    | none => s
    | some k =>
      let l := (s.grouped [(t, k)]).dedup
      if 2 < (s.parked t).length + l.length then s else s.bossAsk 2 l

/-- The power registers take effect with an interval (R540). -/
def State.latchPower (s : State) : State :=
  s.wrs .m0 0 [(.budgetAct, s.rd .pwrBudgetW), (.guardAct, s.rd .pwrGuardW), (.tWarnAct, s.rd .pwrTWarn),
    (.tThrottleAct, s.rd .pwrTThrottle), (.tHystAct, s.rd .pwrTHyst), (.stepSlewAct, s.rd .pwrStepSlew),
    (.decParkAct, s.rd .pwrDecParkEn), (.stepMwAct, s.rd .pwrStepMw), (.otUwAct, s.rd .pwrOtUw), (.surveyDwAct, s.rd .pwrSurveyDw)]

/-- BUDGET_INTERVAL (R55, R163, R528 to R535, R540, R582): at an SF whose count is a multiple of 256. `pool` holds the pool loads of the
Mill dies. -/
def execBudgetInterval (pool : List (List Nat)) (s : State) : Host.Outcome State Fault Refusal :=
  if s.sf % 256 ≠ 0 then .next s else
  let s := s.latchPower
  let dies := Die.all.filter s.has
  let s := dies.foldl State.supplyClear (dies.foldl (fun s t => s.supply t (s.supplyOf t)) s)
  let meas := (dies.map fun t => s.rd .pdiePDie .m0 t.code).sum
  let other : Int := (meas * 10000 * unitsPerUw : Nat) - (s.flexCost s.inForce : Nat)
  let s := ((dies.filter Die.isBin).foldl State.binInterval s).wrs .m0 0 [(.pwrPMeasW, min 1023 (meas / 100)), (.pwrOther, ofInt 64 other)]
  let s := s.carriers.foldl State.xiStep s
  let s := s.issueGrants other
  let g := s.grants.getD s.floors
  let s := s.carriers.foldl (fun s n => s.nlc1Interval g n) s
  .next (s.mills.foldl (fun s m => s.decInterval (millAt m) (pool.getD m [])) s)

/-- A carrier's grants in force, never below its floors; at most 16 steps until NLC1 runs (R63, R529, R530). -/
def State.applyCarrier (s : State) (n steps cap survey : Nat) : State :=
  let x := max steps (s.rd .carNlFloor .m0 n)
  let x := if s.nlc1Runs n then x else min 16 x
  let c := max cap (s.rd .carCapFloor .m0 n)
  let s := s.wrs .m0 n [(.carStepsGrant, x), (.carCapGrant, c), (.carSurveyDuty, survey)]
  let s := (s.wr .nlcStepsGranted (faceOf n) 0 x).wr .decCapGrant (millOf n) (n % 2) c
  (s.nlcUpdate n).shedJudge n false

/-- A Mill die's grants in force (R266, R528, R608). -/
def State.applyMill (s : State) (m ot k : Nat) : State :=
  (s.wrs .m0 m [(.pmillOtGrant, ot), (.pmillAssayK, k)]).wrs (millAt m) 0 [(.poolOtGrant, ot), (.tagKActive, k)]

/-- The grants in force raised to the floors of the on-shift set (R63). -/
def State.raiseFloors (s : State) : State :=
  s.carriers.foldl (fun s n =>
    s.applyCarrier n (s.rd .carStepsGrant .m0 n) (s.rd .carCapGrant .m0 n) (s.rd .carSurveyDuty .m0 n)) s

/-- A die that has entered THROTTLE has its grants at their floors (R537). -/
def State.throttleNow (s : State) (t : Die) : State :=
  if !s.on .thermFast t || decide (s.sf ≤ s.rd .thermFastSf t) then s else
  let s := s.wr .thermFast t 0 0
  if s.level t ≠ 2 then s
  else if t.isFace then
    s.applyCarrier t.carrier (s.rd .carNlFloor .m0 t.carrier) (s.rd .carCapGrant .m0 t.carrier) 0
  else if t.isMill then
    ((Die.carriersOf t).filter s.hasCarrier).foldl (fun s n =>
      s.applyCarrier n (s.rd .carStepsGrant .m0 n) (s.rd .carCapFloor .m0 n) (s.rd .carSurveyDuty .m0 n)) (s.applyMill t.code 0 24)
  else s

/-- GRANT_APPLY (R55, R63, R528, R529, R537): grants issued in an earlier SF take effect, and the fast path of a new THROTTLE. -/
def execGrantApply (s : State) : Host.Outcome State Fault Refusal :=
  let s := match s.grants with
    | none => s
    | some g =>
      if s.sf ≤ s.rd .grantSf then s else
      let s : State := { s with grants := none }
      let s := s.carriers.foldl (fun s n => s.applyCarrier n (nth g.steps n) (nth g.cap n) (nth g.survey n)) s
      s.mills.foldl (fun s m => s.applyMill m (nth g.ot m) (nth g.k m)) s
  let dies := Die.all.filter s.has
  .next (dies.foldl State.limitCheck (dies.foldl State.throttleNow s))

/-- DIE_TEMP of a die and its peak (R542). -/
def State.setTemp (s : State) (t : Die) (temp : BitVec 12) : State :=
  let p := if s.rd .pdieTempPeak .m0 t.code = 0 ∧ s.rd .pdieTemp .m0 t.code = 0 then temp.toInt
    else max temp.toInt (toInt 12 (s.rd .pdieTempPeak .m0 t.code))
  s.wrs .m0 t.code [(.pdieTemp, temp.toNat), (.pdieTempPeak, ofInt 12 p)]

/-- A temperature code in 0.125 °C (R581, R542): half a code each, rounded down. -/
def tempOfCode (code : Nat) : BitVec 12 := BitVec.ofInt 12 ((code / 2 : Nat) - 512 : Int)

/-- THERMAL_CHECK (R536 to R538): from the last good conversion of TEMP_MAIN; for an ore bin die the reading it last sent (R582). -/
def execThermalCheck (t : Die) (s : State) : Host.Outcome State Fault Refusal :=
  if !s.has t || s.on .tripped t || (!t.isBin && !s.on .tempGood t) then .next s else
  let s := if t.isBin then s else s.setTemp t (tempOfCode (s.rd .tempCode t))
  let s := if t.isBin && decide (4 ≤ s.rd .binMiss t) then s else s.thermJudge t (s.tempOf t)
  .next (s.limitCheck t)

/-- BIN_TEMP_REPORT (R582, R681): the higher of the codes of the two sensors reaches the shift boss over its link; the die doubles its
refresh above 85 °C. -/
def execBinTempReport (b : Fin 2) (base top : BitVec 12) (s : State) : Host.Outcome State Fault Refusal :=
  let t := if b = 0 then Die.b0 else .b1
  if !s.has t || s.dieInReset t || s.domDead t Dom.binCtrl then .next s else
  let code := max base.toNat top.toNat
  let s := s.wr .binRefresh2x t 0 (b2n (decide (2384 < code)))
  .next (if s.reach t then (s.setTemp t (tempOfCode code)).wr .binSeen t 0 1 else s)

/-- DOMAIN_WAKE_DONE (R515, R525, R530): every named domain is in Run, anchors first; a tally that a package Deep sleep
stopped resumes (R84). NLC1's steps follow at the next SF boundary. -/
def execDomainWakeDone (s : State) : Host.Outcome State Fault Refusal :=
  match s.waking with
  | none => .next s
  | some r =>
    if s.tallyOn && r.boundary.any fun b => decide (s.sf < b) then .next s else
    let s : State := { s with waking := none }
    let order := Die.all.flatMap fun t => (t.anchor :: t.domains.filter (· != t.anchor)).map fun k => (t, k)
    let s := (order.filter r.doms.contains).foldl (fun s e => s.wakeDomain e.1 e.2) s
    let s := ((s.domBusy r.doms 0).allGates.wrP .pwrHsBusy 0).parkMarks r
    let s := if s.rd .pkgOff = 0 then s.resumeTally else s
    let more := s.carriers.filter fun n => s.on .nlcWant .m0 n && s.nlc1Runs n
    let s := more.foldl (fun s n => s.wr .nlcWant .m0 n 0) s
    let s := if more = [] then s else s.issueGrants (toInt 64 (s.rd .pwrOther))
    let s := (s.hostMarks r).endRequest r .ok
    .next (s.nextRequests s.pwrQ)

end Sys2Proof.Machine
end

