-- ==== Sys2Proof/Machine/March.lean ====
section
/-! DEFINITION. The tests of memory words: backgrounds, March C−, the content-preserving march and the canary test of a word
(R552, R562, R563, R565, R570). -/

namespace Sys2Proof.Machine

/-- The background D0 to D3 over a word of `n` bits (R563). -/
def background (j n : Nat) : Nat :=
  if j = 0 then 0
  else (List.range n).foldl (fun v i => v + 2 ^ i * ((if j = 1 then i else if j = 2 then i / 2 else i / 4) % 2)) 0

/-- The other value of every bit of an `n`-bit word. -/
def flip (n v : Nat) : Nat := 2 ^ n - 1 - v % 2 ^ n

/-- One operation of a test on a word: the value written, or the value that a read must return. -/
inductive CellOp
  | write (v : Nat)
  | read (v : Nat)
  deriving DecidableEq, Repr

/-- The elements E1 to E6 of March C−, each the operations on one word (R562). The order of the words within an element, rising
in E1 to E3 and falling in E4 to E6, shows in what the reads return. -/
def marchC (d e : Nat) : List (List CellOp) :=
  [[.write d], [.read d, .write e], [.read e, .write d], [.read d, .write e], [.read e, .write d], [.read d]]

/-- The operations of the content-preserving march after its first read, which gave `x` (R565). -/
def marchKeep (x e : Nat) : List CellOp := [.write e, .read e, .write x, .read x]

/-- The canary test of a word: write and read D1, ~D1, D2 and ~D2 (R570). -/
def wordCanary (n : Nat) : List CellOp :=
  [background 1 n, flip n (background 1 n), background 2 n, flip n (background 2 n)].flatMap fun v => [.write v, .read v]

/-- What the cells of a faulty word hold after a write of `v`. -/
def cellsHold (w : FaultyWord) (n v : Nat) : Nat := v ^^^ ((v ^^^ w.level) &&& w.stuck) % 2 ^ n

/-- What a read in run `run` at operation `k` returns, and what its repeat returns where it coincided with SP_BUSY (R552). -/
def readGives (w : FaultyWord) (run k cell : Nat) : Nat × Option Nat :=
  match w.reads.find? fun r => r.run == run && r.op == k with
  | none => (cell, none)
  | some r => (r.value, r.again)

/-- Whether the operations of a test fail on a word: a read fails when it returns another value, and one that coincided with
SP_BUSY only when its repeat fails too (R552). -/
def opsFail (w : FaultyWord) (n run : Nat) : Nat → Nat → List CellOp → Bool
  | _, _, [] => false
  | k, _, .write v :: l => opsFail w n run (k + 1) (cellsHold w n v) l
  | k, cell, .read v :: l =>
    let r := readGives w run k cell
    (r.1 != v && r.2.all (· != v)) || opsFail w n run (k + 1) cell l

/-- A word fails a destructive march: March C− in one of its backgrounds (R562, R563). -/
def failsMarch (w : FaultyWord) (n backgrounds : Nat) : Bool :=
  (List.range backgrounds).any fun j =>
    let d := background j n
    opsFail w n j 0 (cellsHold w n w.held) (marchC d (flip n d)).flatten

/-- A word fails a content-preserving march (R565). A first read that coincided with SP_BUSY gives way to its repeat (R552). -/
def failsKeep (w : FaultyWord) (n : Nat) : Bool :=
  let r := readGives w 0 0 (cellsHold w n w.held)
  let x := r.2.getD r.1
  opsFail w n 0 1 (cellsHold w n w.held) (marchKeep x (flip n x))

/-- A word fails its canary test: both of the two passes fail (R569, R570). -/
def failsCanary (w : FaultyWord) (n : Nat) : Bool :=
  (List.range 2).all fun p => opsFail w n p 0 (cellsHold w n w.held) (wordCanary n)

end Sys2Proof.Machine
end

