-- ==== Sys2Proof/Machine/Memory.lean ====
section
/-! DEFINITION. On-chip memories (R545 to R580): words, valid bits and poison, the error table, spare rows and the
repair-pending table, march and canary tests, and the host's access. -/

namespace Sys2Proof.Machine

/-- The shape of a memory (R545): banks, rows of a bank without the spares, words of a row, bytes of a word. -/
structure MemShape where
  banks : Nat
  rows : Nat
  cols : Nat
  bytes : Nat
  deriving DecidableEq, Repr

/-- Words of a memory. -/
def MemShape.words (g : MemShape) : Nat := g.banks * g.rows * g.cols

/-- Bytes of a memory. -/
def MemShape.size (g : MemShape) : Nat := g.words * g.bytes

/-- The memory of a mem_id on a die (R545). -/
def memShape (t : Die) (mem : Nat) : Option MemShape :=
  if t.isFace then
    if mem = 0 then some ⟨32, 256, 64, 8⟩ else if 1 ≤ mem ∧ mem ≤ 6 then some ⟨8, 64, 64, 8⟩ else none
  else if t.isMill then
    if mem = 0 ∨ mem = 0x10 then some ⟨64, 512, 64, 8⟩ else if mem = 1 ∨ mem = 2 then some ⟨8, 64, 64, 8⟩ else none
  else if mem = 0x20 then some ⟨512, 32768, 16, 64⟩
  else none

/-- The bank and the row of a word (R546; for the ore bin assumption 23). -/
def MemShape.rowOf (g : MemShape) (w : Nat) : Nat × Nat := (w % g.banks, w / (g.cols * g.banks))

/-- The words of a 64-byte line (R553). -/
def MemShape.lineOf (g : MemShape) (w : Nat) : Nat := w * g.bytes / 64

/-- The memory keeps its contents and answers: its domain is powered and not in reset (R515). -/
def State.memUp (s : State) (t : Die) (mem : Nat) : Bool :=
  s.has t && !s.domDead t (memDom t mem) && !s.domInReset t (memDom t mem)

/-- A line's valid bit (R553). -/
def State.lineValid (s : State) (x line : Nat) : Bool := Cells.get (fun _ => 0) (x * 2 ^ 32 + line) s.memValid == 1

/-- A word is poisoned (R560). -/
def State.poisoned (s : State) (x w : Nat) : Bool := Cells.get (fun _ => 0) (x * 2 ^ 32 + w) s.poison == 1

/-- A byte as stored; unwritten bytes are zero (R553). -/
def State.memByte (s : State) (x byte : Nat) : Byte := Cells.get (fun _ => (0 : Byte)) (x * 2 ^ 34 + byte) s.memory

/-- Bytes stored from an address on. -/
def State.storeBytes (s : State) (x : Nat) : Nat → List Byte → State
  | _, [] => s
  | a, b :: l => State.storeBytes { s with memory := Cells.set (fun _ => (0 : Byte)) (x * 2 ^ 34 + a) b s.memory } x (a + 1) l

/-- One word written in part or whole: its line becomes valid, and a whole word clears poison (R553, R559). -/
def State.writeWord (s : State) (x : Nat) (g : MemShape) (w off : Nat) (bytes : List Byte) : State :=
  let s := s.storeBytes x (w * g.bytes + off) bytes
  { s with
    memValid := Cells.set (fun _ => 0) (x * 2 ^ 32 + g.lineOf w) 1 s.memValid
    poison := if bytes.length = g.bytes then Cells.set (fun _ => 0) (x * 2 ^ 32 + w) 0 s.poison else s.poison }

/-- Spare rows of a bank that are not free, bit k for spare row k: in use, or found bad by a march (R567). -/
def State.sparesTaken (s : State) (x bank : Nat) : Nat := Cells.get (fun _ => 0) (x * 1024 + bank) s.spareRows

/-- A spare row of a bank taken (assumption 74). -/
def State.takeSpare (s : State) (x bank k : Nat) : State :=
  { s with spareRows := Cells.set (fun _ => 0) (x * 1024 + bank) (s.sparesTaken x bank ||| 2 ^ k) s.spareRows }

/-- The next free spare row of a bank, if it has one. -/
def State.freeSpare (s : State) (x bank : Nat) : Option Nat := (List.range 4).find? fun k => !bit (s.sparesTaken x bank) k

/-- A row mapped to the next free spare row of its bank; none where no spare is free (R567). -/
def State.mapRow (s : State) (x bank row : Nat) : Option State :=
  (s.freeSpare x bank).map fun k =>
    { s.takeSpare x bank k with rowMap := Cells.set (fun _ => 0) ((x * 1024 + bank) * 2 ^ 20 + row) (1 + k) s.rowMap }

/-- arg0 of MARCH_FAIL, REPAIR_EXHAUSTED and REPAIR_OVERFLOW (R575). -/
def rowArg (mem bank : Nat) : Nat := mem + 256 * bank

/-- A row recorded in the die's repair-pending table (R568, R579); one entry for a row. A full table raises
REPAIR_OVERFLOW. -/
def State.repRecord (s : State) (t : Die) (mem bank row : Nat) (canary applied : Bool) : State :=
  let is (e : Nat) : Bool := s.on .repValid t e && s.rd .repMemId t e == mem && s.rd .repBank t e == bank && s.rd .repRow t e == row
  let put (e : Nat) : State := s.wrs t e [(.repMemId, mem), (.repValid, 1), (.repSource, b2n canary), (.repApplied, b2n applied),
    (.repBank, bank), (.repRow, row)]
  match (List.range 32).find? is with
  | some e => put e
  | none =>
    match (List.range 32).find? fun e => !s.on .repValid t e with
    | some e => put e
    | none => (s.wr .memRepairPendFull t 0 1).raise Reason.repairOverflow (blkId t (memDom t mem)) (rowArg mem bank) row

/-- A row that fails a march, and its failing words (R566, R567). -/
structure MarchFail where
  mem : Nat
  bank : Nat
  row : Nat
  words : Nat
  deriving DecidableEq, Repr

/-- A failing row of a march repaired: the state and whether a spare was free (R567, R568). -/
def State.repairRow (s : State) (t : Die) (f : MarchFail) : State × Bool :=
  match s.mapRow (memIx t f.mem) f.bank f.row with
  | some s => (s.repRecord t f.mem f.bank f.row false true, true)
  | none => ((s.wr .memRepairExhausted t 0 1).raise Reason.repairExhausted (blkId t (memDom t f.mem)) (rowArg f.mem f.bank) f.row, false)

/-- The failing rows that a march found: MARCH_FAIL for each, repaired where asked; the state and the rows repaired (R567,
R575). A spare row is not itself repaired (assumption 74). -/
def State.marchRows (s : State) (t : Die) (repair : Bool) : List MarchFail → State × Nat
  | [] => (s, 0)
  | f :: l =>
    let s := s.raise Reason.marchFail (blkId t (memDom t f.mem)) (rowArg f.mem f.bank) f.row
    if repair && (memShape t f.mem).any fun g => decide (f.row < g.rows) then
      let r := s.repairRow t f
      let q := r.1.marchRows t repair l
      (q.1, q.2 + b2n r.2)
    else s.marchRows t repair l

/-- The spare rows that failed a march serve no row from then on (assumption 74). -/
def State.badSpares (s : State) (t : Die) (l : List MarchFail) : State :=
  l.foldl (fun s f => match memShape t f.mem with
    | some g => if g.rows ≤ f.row then s.takeSpare (memIx t f.mem) f.bank (f.row - g.rows) else s
    | none => s) s

/-- What a march leaves: its failing rows announced, its bad spares out of use, the rows repaired where asked; the state and the
rows repaired (R567, R575). -/
def State.marchLeaves (s : State) (t : Die) (repair : Bool) (l : List MarchFail) : State × Nat :=
  (if repair then s.badSpares t l else s).marchRows t repair l

/-- Bits of a raw word: 72 in an SRAM; the 35 symbols of 16 bits of a line in the ore bin (R554, R562). -/
def MemShape.raw (g : MemShape) : Nat := if g.bytes = 8 then 72 else 560

/-- Backgrounds of a march: all four in an SRAM, D0 in the ore bin (R563). -/
def MemShape.backgrounds (g : MemShape) : Nat := if g.bytes = 8 then 4 else 1

/-- A word of a memory of the die, spare rows included, that fails a march (R562, R565, R567). -/
def marchFails (t : Die) (preserve : Bool) (w : FaultyWord) : Bool :=
  (memShape t w.mem).any fun g => decide (w.bank < g.banks) && decide (w.row < g.rows + 4) && decide (w.col < g.cols) &&
    (if preserve then failsKeep w g.raw else failsMarch w g.raw g.backgrounds)

/-- The failing rows of a march, a row failing when any of its words fails (R567), in the order of the words given. -/
def failRows (t : Die) (preserve : Bool) (l : List FaultyWord) : List MarchFail :=
  let bad := ((l.filter (marchFails t preserve)).map fun w => (w.mem, w.bank, w.row, w.col)).dedup
  ((bad.map fun w => (w.1, w.2.1, w.2.2.1)).dedup).map fun r =>
    ⟨r.1, r.2.1, r.2.2, (bad.filter fun w => (w.1, w.2.1, w.2.2.1) == r).length⟩

/-- Canary tests of memory words of a die (R573). -/
def State.wordTests (s : State) (t : Die) : List Canary := s.canary.filter fun c => c.die == t && c.kind == 0

/-- MEM_STS follows the die's word tests (R573, R576). -/
def State.wordTestShow (s : State) (t : Die) : State :=
  let l := s.wordTests t
  s.wrs t 0 [(.memCanaryBusy, b2n (l.any (·.running))), (.memCanaryQueue, (l.filter (!·.running)).length),
    (.memTested, b2n (l.any (·.running)))]

/-- The error-table entry of a word (R556). -/
def State.ceEntry (s : State) (t : Die) (mem addr : Nat) : Option Nat :=
  (List.range 16).find? fun e => s.on .ceValid t e && s.rd .ceMemId t e == mem && s.rd .ceAddress t e == addr

/-- canary_state of a word's entry, where it has one. -/
def State.ceState (s : State) (t : Die) (mem addr v : Nat) : State :=
  match s.ceEntry t mem addr with
  | some e => s.wr .ceCanaryState t e v
  | none => s

/-- A canary test of a word (R557, R560, R573): it starts when the die runs none, else it waits among at most 16; one word
has one test. -/
def State.testWord (s : State) (t : Die) (mem addr : Nat) : State :=
  let l := s.wordTests t
  if (l.any fun c => c.mem == mem && c.addr == addr) = true then s
  else if 16 ≤ (l.filter (!·.running)).length then (s.inc .memCanaryDropped t).ceState t mem addr 0
  else
    State.wordTestShow (State.ceState { s with canary := s.canary ++ [⟨t, 0, 0, mem, addr, !l.any (·.running)⟩] } t mem addr 1) t

/-- The SFs since a moment whose SF bits [31:0] are kept (R543, R577). -/
def State.sinceSf (s : State) (low : Nat) : Nat := (s.sf + 2 ^ 32 - low) % 2 ^ 32

/-- The entry that a new address replaces (R558): of those with a finished canary test, the one hit longest ago, a tie to
the lower. -/
def State.ceVictim (s : State) (t : Die) : Option Nat :=
  ((List.range 16).filter fun e => s.on .ceValid t e && decide (2 ≤ s.rd .ceCanaryState t e)).foldl (fun b e => match b with
    | none => some e
    | some m => if s.sinceSf (s.rd .ceLastSf t m) < s.sinceSf (s.rd .ceLastSf t e) then some e else some m) none

/-- An entry's hits judged against ce_thresh (R557, R573, R576). -/
def State.ceJudge (s : State) (t : Die) (e mem addr : Nat) : State :=
  let st := s.rd .ceCanaryState t e
  if st = 1 ∨ st = 3 ∨ s.rd .ceHitCount t e < max 1 (s.rd .memCeThresh t) then s
  else (s.raise Reason.ceThreshold (blkId t (memDom t mem)) e addr).testWord t mem addr

/-- ce_used counts the valid entries (R576). -/
def State.ceShow (s : State) (t : Die) : State :=
  s.wr .memCeUsed t 0 ((List.range 16).filter fun e => s.on .ceValid t e).length

/-- A correction counted and logged (R556 to R558). -/
def State.logCe (s : State) (t : Die) (mem addr syn : Nat) : State :=
  let s := s.inc .memCeTotal t
  let s := if t.isBin then s.count t (0x16 + min 34 (syn % 64)) else s
  match s.ceEntry t mem addr with
  | some e =>
    let s := (s.inc .ceHitCount t e).wr .ceLastSf t e s.sf
    let s := if s.rd .ceSyndrome t e = syn then s else s.wrs t e [(.ceSyndrome, syn), (.ceMultiSyndrome, 1)]
    s.ceJudge t e mem addr
  | none =>
    match ((List.range 16).find? fun e => !s.on .ceValid t e).or (s.ceVictim t) with
    | some e =>
      let s := s.wrs t e [(.ceMemId, mem), (.ceValid, 1), (.ceMultiSyndrome, 0), (.ceCanaryState, 0), (.ceHitCount, 1),
        (.ceAddress, addr), (.ceSyndrome, syn), (.ceFirstSf, s.sf), (.ceLastSf, s.sf)]
      ((s.wr .ceTableFull t 0 0).ceShow t).ceJudge t e mem addr
    | none =>
      let s := s.inc .memCeUnlogged t
      if s.on .ceTableFull t then s
      else (s.wr .ceTableFull t 0 1).raise Reason.ceTableFull (blkId t (memDom t mem)) mem addr

/-- A word that a read can reach: it exists, its memory answers, its line is valid (R553). -/
def State.wordLive (s : State) (t : Die) (mem addr : Nat) : Option MemShape :=
  match memShape t mem with
  | none => none
  | some g => if addr < g.words ∧ s.memUp t mem = true ∧ s.lineValid (memIx t mem) (g.lineOf addr) = true then some g else none

/-- CE_DETECTED (R555, R556): a read corrects an error of a word that is not poisoned. -/
def execCeDetected (t : Die) (mem : Byte) (addr : BitVec 32) (syn : BitVec 22) (s : State) : Host.Outcome State Fault Refusal :=
  if (s.wordLive t mem.toNat addr.toNat).isNone ∨ s.poisoned (memIx t mem.toNat) addr.toNat = true then .next s
  else .next (s.logCe t mem.toNat addr.toNat syn.toNat)

/-- An uncorrectable error (R560). -/
def State.ueWord (s : State) (t : Die) (mem addr : Nat) : State :=
  let s := (s.inc .memUeTotal t).raise Reason.ueDetected (blkId t (memDom t mem)) mem addr
  State.testWord { s with poison := Cells.set (fun _ => 0) (memIx t mem * 2 ^ 32 + addr) 1 s.poison } t mem addr

/-- UE_DETECTED (R560): a word already poisoned is reported to its reader only (assumption 24). -/
def execUeDetected (t : Die) (mem : Byte) (addr : BitVec 32) (s : State) : Host.Outcome State Fault Refusal :=
  if (s.wordLive t mem.toNat addr.toNat).isNone ∨ s.poisoned (memIx t mem.toNat) addr.toNat = true then .next s
  else .next (s.ueWord t mem.toNat addr.toNat)

/-- PARTIAL_MEMORY_WRITE (R559): a partial write of a word by a master of the die; `fault` is the syndrome of an error that
the merge corrects. A write of the whole word always succeeds. -/
def execPartialMemoryWrite (t : Die) (mem : Byte) (addr : BitVec 32) (off : Nat) (bytes : List Byte)
    (fault : Option (BitVec 22)) (s : State) : Host.Outcome State Fault Refusal :=
  let m := mem.toNat
  let w := addr.toNat
  let x := memIx t m
  match memShape t m with
  | none => .next s
  | some g =>
    if g.words ≤ w ∨ s.memUp t m = false ∨ bytes = [] ∨ g.bytes < off + bytes.length then .next s
    else if bytes.length < g.bytes ∧ s.poisoned x w = true then .next (s.inc .memPartialRefused t)
    else
      let live := s.lineValid x (g.lineOf w)
      let s := match fault with
        | some k => if live ∧ bytes.length < g.bytes then s.logCe t m w k.toNat else s
        | none => s
      .next (s.writeWord x g w off bytes)

/-- CANARY_START (R573): the oldest waiting test of a word starts once none runs. -/
def execCanaryStart (t : Die) (s : State) : Host.Outcome State Fault Refusal :=
  let l := s.wordTests t
  if l.any (·.running) then .next s else
  match l with
  | [] => .next s
  | c :: _ =>
    .next (State.wordTestShow { s with canary := updateWhere (· == c) (fun c => { c with running := true }) s.canary } t)

/-- The result of a word's test (R557, R568, R571): TRANSIENT restarts its hits, STUCK takes its row to a spare. -/
def State.wordResult (s : State) (t : Die) (mem addr : Nat) (stuck : Bool) : State :=
  match memShape t mem with
  | none => s
  | some g =>
    if !stuck then
      match s.ceEntry t mem addr with
      | some e => s.wrs t e [(.ceCanaryState, 2), (.ceHitCount, 0)]
      | none => s
    else
      let s := s.ceState t mem addr 3
      let p := g.rowOf addr
      match s.mapRow (memIx t mem) p.1 p.2 with
      | some s => s.repRecord t mem p.1 p.2 true true
      | none => (s.raise Reason.spareExhausted (blkId t (memDom t mem)) 0).repRecord t mem p.1 p.2 true false

/-- The domain of a unit under a canary test (R570). -/
def canaryDom (t : Die) (kind idx mem : Nat) : Nat :=
  match kind with
  | 0 => memDom t mem
  | 1 => idx / 17
  | 2 | 3 => Dom.crypto
  | 4 => Dom.convRx
  | 5 => t.anchor
  | _ => clusterDom t (idx / 128)

/-- What becomes of a unit other than a word whose place a spare had taken, or that tests in its own place (R33, R106, R276,
R405, R425, R569, R572). -/
def State.unitResult (s : State) (t : Die) (c : Canary) (stuck : Bool) : State :=
  let i := c.idx
  let stays := c.mem == 1
  match c.kind with
  | 1 =>
    if stays then s
    else if stuck then (s.wr .engRetired t (i / 17) (s.rd .engRetired t (i / 17) ||| 2 ^ engUnit i)).poolShow t
    else (s.wrs t (i / 17) [(.engSpare, engUnit i), (.engSpareInUse, 0)]).poolShow t
  | 2 =>
    if stays then s
    else if stuck then s.wr .cryPipeRetired t 0 (s.rd .cryPipeRetired t ||| 2 ^ (i % 17))
    else s.wrs t 0 [(.pipeSpare, i % 17), (.crySpareInUse, 0)]
  | 3 => if stuck then s.raise Reason.spareExhausted (blkId t Dom.crypto) 3 else s
  | 4 =>
    let a := i / 65
    let s := s.wrs t a [(.calPaused, 0), (.calActive, 0)]
    if !stuck then s
    else if i % 65 = 64 then s.wr .adcCalHalted t a 1
    else (s.wrs t a [(.adcCalHalted, 1), (.adcSpareRetired, 1), (.adcRetired, i % 65 + 1)]).raiseField .adcSpareRetired t a
  | 5 =>
    let p := i / 256
    if stays || stuck then s
    else
      let s := s.wr .winzSparesUsed t p (s.rd .winzSparesUsed t p - 1)
      s.wr .winzDegraded t p (b2n (s.rd .winzSparesUsed t p != 0))
  | 6 =>
    let k := i / 128
    if stays then s
    else if stuck then s.wr .lespareRetiredEngine t k (i % 128)
    else (s.wr .lespareInUse t k 0).wr .leSpareUsed t k 0
  | _ => s

/-- The outcome of a canary test: a failure in both passes (R569). For a word, `word` says how its cells behave and the model
runs the passes; for another unit `fails1` and `fails2` are what its two passes find. -/
def canaryFails (t : Die) (c : Canary) (word : FaultyWord) (fails1 fails2 : Bool) : Bool :=
  if c.kind = 0 then (memShape t c.mem).any fun g => failsCanary word g.raw else fails1 && fails2

/-- CANARY_DONE (R552, R569 to R573): a test ends after its two passes. For a word the running test of the die ends, and `idx` is
not read; other units are named by it. -/
def execCanaryDone (t : Die) (kind : Fin 7) (idx : Nat) (word : FaultyWord) (fails1 fails2 : Bool) (s : State) :
    Host.Outcome State Fault Refusal :=
  match s.canary.find? fun c => c.die == t && c.kind == kind.val && c.running && (kind.val == 0 || c.idx == idx) with
  | none => .next s
  | some c =>
    let failsBoth := canaryFails t c word fails1 fails2
    let s : State := { s with canary := s.canary.erase c }
    let s := if c.kind = 0 then (s.wordResult t c.mem c.addr failsBoth).wordTestShow t else s.unitResult t c failsBoth
    let unit := if c.kind = 0 then c.mem else if c.kind = 6 then c.idx % 128 else c.idx
    .next (s.raise Reason.canaryDone (blkId t (canaryDom t c.kind c.idx c.mem))
      (c.kind + 16 * (1 + b2n failsBoth) + 256 * unit) (if c.kind = 0 then c.addr else 0))

/-- CE_FREE (R558, R576): the named entries are freed, but for one whose canary test waits or runs. -/
def execCeFree (t : Die) (mask : BitVec 16) (s : State) : Host.Outcome State Fault Refusal :=
  .next <| s.writeReg t .memCeFree 0 fun s =>
    let free := (List.range 16).filter fun e => bit mask.toNat e && s.on .ceValid t e && s.rd .ceCanaryState t e != 1
    let s := free.foldl (fun s e => s.zeros t e [.ceMemId, .ceValid, .ceMultiSyndrome, .ceCanaryState, .ceHitCount, .ceAddress,
      .ceSyndrome, .ceFirstSf, .ceLastSf]) s
    (if free = [] then s else s.wr .ceTableFull t 0 0).ceShow t

/-- MEM_CNT_CLEAR (R576): the memory counters and every conflict counter. -/
def execMemCntClear (t : Die) (s : State) : Host.Outcome State Fault Refusal :=
  .next <| s.writeReg t .memCntClear 0 fun s =>
    let s := s.zeros t 0 [.memCeTotal, .memUeTotal, .memPartialRefused, .memCeUnlogged, .memCanaryDropped, .memWriteLost,
      .memSpBusyEvents]
    (List.range 32).foldl (fun s v => s.wr .memConflictCycles t v 0) s

/-- Engines of a cluster without its spare, which is numbered after them: 192 on a Face die and 128 on a Mill die
(01_package_as_one_part.md). -/
def leEngines (t : Die) : Nat := if t.isFace then 32 else 64

/-- An engine runs tasks: one of the cluster that is not retired, or the spare while it stands in for one (R572, R580). -/
def State.leRuns (s : State) (t : Die) (k engine : Nat) : Bool :=
  s.on .fwRunning t k && t.domains.contains (clusterDom t k) && clusterOf t (clusterDom t k) == some k && s.domSt t (clusterDom t k) == 0 &&
    (decide (engine < leEngines t) && s.rd .lespareRetiredEngine t k != engine || engine == leEngines t && s.on .leSpareUsed t k)

/-- LE_LOCKSTEP (R572): the task restarts on the cluster's spare, and the engine is tested. -/
def execLeLockstep (t : Die) (cluster : Fin 6) (engine : Fin 65) (s : State) : Host.Outcome State Fault Refusal :=
  let k := cluster.val
  if !s.leRuns t k engine then .next s else
  let blk := blkId t (clusterDom t k)
  let s := (s.inc .lespareLockstepMismatch t k).raise Reason.leLockstep blk (k + 16 * engine)
  let s := if t.isFace then s.count t (0x93 + 5 * k) else s
  let i := k * 128 + engine
  .next <|
    if (s.canary.any fun c => c.die == t && c.kind == 6 && c.idx == i) = true then s
    else if s.on .leSpareUsed t k then
      ((s.wr .lespareExhausted t k 1).raise Reason.spareExhausted blk 6).canaryStart t 6 i true
    else ((s.wr .leSpareUsed t k 1).wr .lespareInUse t k 1).canaryStart t 6 i

/-- The target of the memory opcodes: a die, with domain and sub-unit 0 (R684). -/
def dieTargetBad (d : Desc) : Bool := d.die.isNone || d.target.toNat % 4096 != 0

/-- The length of a MEM_READ or MEM_WRITE (R574). -/
def memLen (d : Desc) : Nat := d.at 40 2

/-- What makes a MEM_READ or MEM_WRITE malformed (R574). -/
def memBad (d : Desc) : Bool :=
  dieTargetBad d || d.arg0.toNat / 256 != 0 || !d.clearFrom 42 || memLen d == 0 || decide (4096 < memLen d) ||
    !((memShape d.mill (d.arg0.toNat % 256)).any fun g => decide (d.at 24 8 + memLen d ≤ g.size))

/-- A march runs on the memory; `destructive` asks for a destructive one. -/
def State.marching (s : State) (t : Die) (mem : Nat) (destructive : Bool) : Bool :=
  s.marches.any fun m => m.die == t && m.mem == mem && !(destructive && m.preserve)

/-- The memory is in test mode (R551). -/
def State.testMode (s : State) (t : Die) (mem : Nat) : Bool :=
  s.marching t mem false || (s.wordTests t).any fun c => c.mem == mem && c.running

/-- A master of the memories of a die (R548). -/
def isMaster (t : Die) (v : Nat) : Bool :=
  if t.isFace then decide (v < 6) || v == 8 || v == 0x10
  else if t.isMill then decide (v < 2) || (decide (8 ≤ v) && decide (v < 0x0D)) || (decide (0x10 ≤ v) && decide (v < 0x14)) ||
    (t == .m0 && v == 0x18)
  else false

/-- One cycle in which masters reach one bank (R548, R549): all but one stall, which RV-X6 and RV-X8 count. Class and value give
one order, since the values rise with the classes. -/
def State.stall (s : State) (t : Die) (masters : List (BitVec 5)) : State :=
  let l := ((masters.map (·.toNat)).filter (isMaster t)).dedup
  match l.min? with
  | none => s
  | some served => if s.part < 6 then s else (l.filter (· != served)).foldl (fun s v => s.inc .memConflictCycles t v) s

/-- A MEM_WRITE touches the ring-context region of R547, the capture FIFO of R616, or the ring-context range of B0 or a firmware
range of an ore bin's array (R662). -/
def regionBarred (d : Desc) : Bool :=
  let t := d.mill
  let a := d.at 24 8
  let e := a + memLen d
  if t.isBin then decide (a < 0x380000000) && decide ((if t == .b0 then 0x1E0000000 else 0x1E1000000) < e)
  else d.arg0.toNat % 256 == 0 && ((t == .m0 && decide (8 * 1835008 < e)) || (t.isFace && decide (8 * 393216 < e)))

/-- The host's access to a memory (R547, R548, R551, R574): NOT_PERMITTED for a barred write, RETRY during a destructive march and
for an access that SP_BUSY warned. `rivals` are the masters that reach one bank in one cycle, cycle by cycle while it runs. -/
def State.memAccess (s : State) (op : Nat) (d : Desc) (warned : Bool) (rivals : List (List (BitVec 5))) (act : State → State) :
    State :=
  let t := d.mill
  let m := d.arg0.toNat % 256
  s.onTarget op d t (memDom t m) fun s =>
    if op == 0x11 && regionBarred d then s.finish op d .notPermitted
    else if s.marching t m true then s.finish op d .retry
    else
      let s := rivals.foldl (fun s l => s.stall t l) s
      if warned && m == 0 && s.testMode t m then (s.inc .memSpBusyEvents t).finish op d .retry
      else act s

/-- MEM_READ (R548, R553, R560, R574): poisoned words read as zeros, and every byte moves. -/
def execMemRead (d : Desc) (warned : Bool) (rivals : List (List (BitVec 5))) (s : State) : Host.Outcome State Fault Refusal :=
  let t := d.mill
  let m := d.arg0.toNat % 256
  let x := memIx t m
  let word := if t.isBin then 64 else 8
  .next <| s.take 0x10 d (memBad d) fun s => s.memAccess 0x10 d warned rivals fun s =>
    let at_ := (List.range (memLen d)).map fun k => d.at 24 8 + k
    let bad := at_.any fun a => s.poisoned x (a / word)
    let s := s.toHost (d.at 32 8) (at_.map fun a => if s.poisoned x (a / word) then 0 else s.memByte x a)
    s.finish 0x10 d (if bad then .uncorrectable else .ok) (memLen d)

/-- The words of a MEM_WRITE in turn (R550, R559, R574): the state, the bytes moved, whether a word was refused, whether one
was lost to port A. -/
def State.writeWords (s : State) (t : Die) (m : Nat) (g : MemShape) (lost : List (Nat × BitVec 64)) :
    Nat → Nat → List Byte → Nat → Bool → State × Nat × Bool × Bool
  | 0, _, _, n, l => (s, n, false, l)
  | f + 1, a, data, n, l =>
    match data with
    | [] => (s, n, false, l)
    | _ :: _ =>
      let x := memIx t m
      let w := a / g.bytes
      let now := data.take (g.bytes - a % g.bytes)
      match lost.find? fun p => m == 0 && p.1 == w with
      | some p =>
        let s := (s.writeWord x g w 0 (leBytes 8 p.2.toNat)).inc .memWriteLost t
        s.writeWords t m g lost f (a + now.length) (data.drop now.length) (n + now.length) true
      | none =>
        if now.length < g.bytes ∧ s.poisoned x w = true then (s.inc .memPartialRefused t, n, true, l)
        else (s.writeWord x g w (a % g.bytes) now).writeWords t m g lost f (a + now.length) (data.drop now.length) (n + now.length) l

/-- MEM_WRITE (R547, R548, R550, R559, R574, R616): `data` is what the host memory holds, `lost` the words that port A of a shared
scratchpad writes in the same cycle, with its values. -/
def execMemWrite (d : Desc) (data : List Byte) (lost : List (Nat × BitVec 64)) (warned : Bool) (rivals : List (List (BitVec 5)))
    (s : State) : Host.Outcome State Fault Refusal :=
  let t := d.mill
  let m := d.arg0.toNat % 256
  .next <| s.take 0x11 d (memBad d) fun s => s.memAccess 0x11 d warned rivals fun s =>
    match memShape t m with
    | none => s.finish 0x11 d .badDesc
    | some g =>
      let bytes := (data ++ List.replicate (memLen d) 0).take (memLen d)
      let r := s.writeWords t m g lost (memLen d + 1) (d.at 24 8) bytes 0 false
      r.1.finish 0x11 d (if r.2.2.1 then .uncorrectable else if r.2.2.2 then .writeLost else .ok) r.2.1

/-- The domains that use a memory (R548, R512). -/
def memUsers (t : Die) (mem : Nat) : List Nat :=
  if t.isFace then (if mem = 0 then [Dom.winz, 0x0A, 0x0B, 0x0C, 0x0D, 0x0E, 0x0F] else [memDom t mem])
  else if t.isMill then
    if mem = 0 then [0, 1, 2, 3, Dom.outer, Dom.frame, Dom.otn, Dom.crypto, Dom.leA, Dom.leB]
    else [memDom t mem]
  else [Dom.binArray, Dom.binCtrl]

/-- MARCH_RUN (R566). -/
def execMarchRun (d : Desc) (s : State) : Host.Outcome State Fault Refusal :=
  let t := d.mill
  let a := d.arg0.toNat
  let m := a % 256
  let bad := dieTargetBad d || a / 1024 != 0 || !d.clearFrom 24 || (memShape t m).isNone
  .next <| s.take 0x12 d bad fun s => s.onTarget 0x12 d t (memDom t m) fun s =>
    let loaded := match clusterOf t (memDom t m) with
      | some c => s.on .fwRunning t c || s.on .fwSwapping t c
      | none => false
    if !bit a 8 && ((memUsers t m).any (s.trafficOn t) || loaded) then s.finish 0x12 d .badDesc
    else if s.on .memMarchBusy t then s.finish 0x12 d .retry
    else State.wr { s with marches := s.marches ++ [⟨t, m, bit a 8, bit a 9, ⟨0x12, d⟩⟩] } .memMarchBusy t 0 1

/-- MARCH_DONE (R552, R553, R562, R565 to R567): the march of the words that are not sound, the counts, the repairs where asked,
and the valid bits after a destructive march. -/
def execMarchDone (t : Die) (faulty : List FaultyWord) (s : State) : Host.Outcome State Fault Refusal :=
  match s.marches.find? (·.die == t) with
  | none => .next s
  | some m =>
    let l := failRows t m.preserve (faulty.filter (·.mem == m.mem))
    let s := State.wr { s with marches := s.marches.erase m } .memMarchBusy t 0 0
    let s := if m.preserve then s else s.loseMem t m.mem
    let r := s.marchLeaves t m.repair l
    .next (r.1.finishOp m.op .ok
      (min 0xFFFF l.length + 2 ^ 16 * min 0xFFFF r.2 + 2 ^ 32 * min 0xFFFF (l.map (·.words)).sum))

end Sys2Proof.Machine
end

