-- ==== Sys2Proof/Machine/Reset.lean ====
section
/-! DEFINITION. Start-up, reset, wake from Off and loop-engine firmware (R624 to R648, R668, R685), the trip of R538 and the
removal of power of R516. -/

namespace Sys2Proof.Machine

/-- The reset of every die and every switched domain (R638, R641, R685): what the surface domain keeps stays, with the host's
memory and the queue of commands, which are outside the package. -/
def State.packageLost (s : State) : State :=
  { State.reset with
    pending := s.pending
    regs := s.regs.filter fun e => lossOf e.1 == .surface
    tally := s.tally
    hostMem := s.hostMem
    msixSent := s.msixSent
    readData := s.readData
    freeCtr := s.freeCtr
    bootImage := s.bootImage
    recovery := s.recovery
    rowMap := s.rowMap
    spareRows := s.spareRows }

/-- A public key's hash is fused in a key slot that is not revoked (R628). -/
def State.keyFused (s : State) (slot : Nat) (hash : BitVec 384) : Bool :=
  s.rd .fuseKeyHash .m0 slot == hash.toNat && !s.on .fuseKeyRevoked .m0 slot

/-- The check of R628 that an image fails, coded as boot_fail_reason (R647); 0 where it passes. -/
def State.bootCheck (s : State) (i : BootImage) : Nat :=
  if i.magic.toNat ≠ 0x5652584F ∨ i.fmt.toNat ≠ 1 then 1
  else if i.config.toNat ≠ s.part then 2
  else if !s.keyFused i.keySlot i.keyHash then 3
  else if !i.sigOk then 4
  else if i.svn.toNat < s.rd .chipSvnFused then 5
  else if !i.sectionsOk then 6
  else if !i.readOk then 7
  else 0

/-- The dies of the configuration. -/
def State.dies (s : State) : List Die := Die.all.filter s.has

/-- A row already mapped to a spare. -/
def State.rowMapped (s : State) (x bank row : Nat) : Bool :=
  Cells.get (fun _ => 0) ((x * 1024 + bank) * 2 ^ 20 + row) s.rowMap != 0

/-- The repair map of a die from the image's repair list, then from its repair-pending table (R568, R631, R637). -/
def State.repairMap (s : State) (t : Die) : State :=
  let mine (k : Nat) : Bool := k / 1024 / 64 == t.code
  let s : State := { s with rowMap := s.rowMap.filter fun e => !mine (e.1 / 2 ^ 20)
                            spareRows := s.spareRows.filter fun e => !mine e.1 }
  let list : List (Nat × Nat × Nat) := match s.bootImage with
    | some i => (i.repairs.filter fun r => r.1 == t).map (·.2)
    | none => []
  let s := list.foldl (fun s r =>
    let x := memIx t r.1
    if (memShape t r.1).isNone ∨ s.rowMapped x r.2.1 r.2.2 = true then s else (s.mapRow x r.2.1 r.2.2).getD s) s
  (List.range 32).foldl (fun s e =>
    if !s.on .repValid t e then s else
    let x := memIx t (s.rd .repMemId t e)
    let b := s.rd .repBank t e
    let r := s.rd .repRow t e
    if s.rowMapped x b r then s.wr .repApplied t e 1
    else match s.mapRow x b r with
      | some s => s.wr .repApplied t e 1
      | none => s.wr .repApplied t e 0) s

/-- An image accepted: what the boot sequence leaves up to the last step, fw_ready (R631, R633, R647, R658); the Face dies run their
foreground calibration until then (R107). -/
def State.bootWith (s : State) (i : BootImage) : State :=
  let s : State := { s with bootImage := some i }
  let s := s.wrs .m0 0 [(.bootReady, 1), (.svnRunning, i.svn.toNat), (.chipMarchPreserve, b2n (i.marchMode == 1)),
    (.lkLocked, i.lockMask.toNat), (.hostBigRingSpace, b2n (s.has .b0))]
  let s := match i.surfPpm with
    | some v => s.wrP .tallySurfPpm v.toNat
    | none => s
  let s := s.dies.foldl (fun s t => (((s.wr .inReset t 63 (s.rd .railBad t)).loadSections t).repairMap t).fgBegin t) s
  s.dies.foldl State.linksUp s

/-- No image passes: BOOT_FAILED (R629). -/
def State.bootFails (s : State) : State := s.wrP .chipBootFailed 1

/-- A boot from SPI flash, with fallback to the secondary image where `fallback` (R629). -/
def State.bootFlash (s : State) (fallback : Bool) (primary secondary : BootImage) : State :=
  let e := s.bootCheck primary
  if e = 0 then s.bootWith primary
  else
    let s := s.wrP .chipBootFailReason e
    if !fallback then s.bootFails
    else
      let e := s.bootCheck secondary
      if e = 0 then (s.wrP .chipBootFallback 1).bootWith secondary
      else (s.wrP .chipSecFailReason e).bootFails

/-- PORST_RISE (R624, R626, R629 to R632, R647): the straps are latched and the boot sequence runs. A BOOTSEL of 0b10 waits
for a recovery image. The power-on detectors of a first power-up set por. -/
def execPorstRise (straps : Straps) (primary secondary : BootImage) (s : State) : Host.Outcome State Fault Refusal :=
  if s.on .bootStarted || s.rd .pkgOff != 0 || s.on .railBad .m0 then .next s else
  let s := s.wrs .m0 0 [(.bootStarted, 1), (.chipBootsel, straps.bootsel.toNat), (.chipPkgId, straps.pkgId.toNat), (.i2cAddr, straps.i2cAddr.toNat),
    (.chipBootFallback, 0), (.chipBootFailed, 0), (.chipBootFailReason, 0), (.chipSecFailReason, 0), (.chipMarchPreserve, 0)]
  let s := if s.on .surfEverHeld then s else s.wrP .chipPor 1
  let s : State := { s with recovery := none }
  .next (match straps.bootsel.toNat with
    | 2 => s
    | b => s.bootFlash (b != 1) primary secondary)

/-- I2C_RECOVERY_LOAD (R629, R630): an image through the recovery window, in BOOT_FAILED or with BOOTSEL 0b10. -/
def execI2cRecoveryLoad (img : BootImage) (s : State) : Host.Outcome State Fault Refusal :=
  if !s.on .bootStarted || s.on .bootReady || s.on .hostFwReady || !(s.on .chipBootFailed || s.rd .chipBootsel == 2) then .next s
  else
    let s : State := { s with recovery := some img }
    let e := s.bootCheck img
    .next (if e = 0 then (s.wrP .chipBootFailed 0).bootWith img
      else if s.rd .chipBootsel = 2 ∧ s.rd .chipBootFailReason = 0 then (s.wrP .chipBootFailReason e).bootFails
      else s.bootFails)

/-- The tally at fw_ready (R84, R88): resumed from the count that the surface domain holds, or started at 0 with origin_lost.
From then on the surface domain mirrors it (R685). -/
def State.startTally (s : State) : State :=
  if s.on .surfEverHeld then s.resumeTally
  else State.wrs { s with tallyOn := true, tally := 0 } .m0 0 [(.tallyOriginLost, 1), (.surfEverHeld, 1), (.resumeSf, 0)]

/-- A die at fw_ready (R107, R585, R631, R633): every domain in Run but for the DEC2 and DEC3 group of R514, its clusters
executing, its converters calibrated, its auxiliary reference enabled and settled. -/
def State.dieReady (s : State) (t : Die) : State :=
  if s.dieInReset t then s else
  let s := s.clustersRun t t.domains
  let s := if t.isFace then s.fgEnd t else s
  let s := if t.isBin then s else s.wrs t 0 [(.auxRefEn, 1), (.auxRefSettled, 1)]
  let s := if t = .m0 ∧ s.part ≤ 4 then s.wrs t 2 [(.domState, 2)] |>.wrs t 3 [(.domState, 2)] else s
  s.gates t

/-- FW_READY (R567, R631, R633): the start-up march's failing rows, the tally, and fw_ready. Its events are those of a
fallback and of a recorded trip (R629, R646). -/
def execFwReady (faulty : List (Die × FaultyWord)) (s : State) : Host.Outcome State Fault Refusal :=
  if !s.on .bootReady then .next s else
  let keep := s.on .chipMarchPreserve
  let s := s.dies.foldl (fun s t =>
    (s.marchLeaves t true (failRows t keep ((faulty.filter (·.1 == t)).map (·.2)))).1) s
  let s := s.startTally.wrs .m0 0 [(.hostFwReady, 1), (.bootReady, 0)]
  let s := s.dies.foldl State.dieReady s
  let s := if s.on .chipBootFallback then s.raise Reason.bootFallback (blkId .m0 Dom.hostif) (s.rd .chipBootFailReason) else s
  .next (if s.on .tripRec then
    (s.wrP .tripRec 0).raise Reason.tripRecorded (blkId ((dieOfCode (s.rd .chipTripDie)).getD .m0)) else s)

/-- PORST_FALL (R126, R685): every die and every switched domain resets; the surface domain holds the tally. -/
def execPorstFall (s : State) : Host.Outcome State Fault Refusal :=
  if s.rd .pkgOff = 2 then .next (s.wrP .chipPor 1)
  else .next (s.stopTally.packageLost.wrs .m0 0 [(.chipPor, 1), (.pkgOff, 0)])

/-- SURFACE_POWER_LOSS (R88, R668, R685): nothing but the fuses is kept. -/
def execSurfacePowerLoss (s : State) : Host.Outcome State Fault Refusal :=
  let fuses := [Fld.chipStepping, .chipConfig, .chipSpeed200, .chipSvnFused, .fuseKeyHash, .fuseKeyRevoked].map Fld.ctorIdx
  .next { State.reset with
    pending := s.pending
    regs := s.regs.filter fun e => fuses.contains (keyFld e.1)
    hostMem := s.hostMem
    msixSent := s.msixSent
    readData := s.readData
    freeCtr := s.freeCtr }

/-- SVN_COMMIT (R630): the fused security version follows the running image. -/
def execSvnCommit (s : State) : Host.Outcome State Fault Refusal :=
  if !s.on .pcieUp || !(s.on .hostFwReady || s.on .bootReady) then .next s
  else .next (s.wrP .chipSvnFused (max (s.rd .chipSvnFused) (s.rd .svnRunning)))

/-- RAIL_FAULT (R17, R626, R640, R668): the die is held in reset; M0 takes the package with it. -/
def execRailFault (t : Die) (s : State) : Host.Outcome State Fault Refusal :=
  if !s.has t || s.on .railBad t || s.rd .pkgOff == 2 then .next s else
  let s := s.wr .railBad t 0 1
  if t = .m0 then .next (s.stopTally.packageLost.wrs .m0 0 [(.chipPor, 1), (.pkgOff, 0)])
  else .next ((((s.dieDown t).wrs t 63 [(.inReset, 1)]).wrP .chipPor 1).gates t)

/-- RAIL_RESTORED (R78, R626): the die leaves its reset. M0 leaves it by the internal power-on reset of PORST_RISE. -/
def execRailRestored (t : Die) (s : State) : Host.Outcome State Fault Refusal :=
  if !s.on .railBad t then .next s else
  let s := s.wr .railBad t 0 0
  if t = .m0 ∨ s.on .tripped t = true ∨ (s.resets.any fun r => r.die == t && r.dom == 63) = true then .next s
  else if s.on .hostFwReady then .next (((s.repairMap t).dieBack t).dieReady t)
  else .next ((s.wr .inReset t 63 0).linksUp t)

/-- WAKE (R641, R642): in Off it raises RAIL_EN; before power is removed it is latched. -/
def execWake (s : State) : Host.Outcome State Fault Refusal :=
  match s.rd .pkgOff with
  | 0 => .next s
  | 1 => .next (s.wrP .wakeLatch 1)
  | _ => .next (s.wrP .railEn 1)

/-- RAIL_DISCHARGED (R642). -/
def execRailDischarged (s : State) : Host.Outcome State Fault Refusal :=
  if s.rd .pkgOff = 2 ∧ s.on .wakeLatch = true then .next (s.wrs .m0 0 [(.railEn, 1), (.wakeLatch, 0)]) else .next s

/-- RAIL_TIMEOUT (R641). -/
def execRailTimeout (s : State) : Host.Outcome State Fault Refusal :=
  if s.rd .pkgOff = 2 ∧ s.on .railEn = true then .next (s.wrs .m0 0 [(.railEn, 0), (.chipRailFault, 1)]) else .next s

/-- WAKE_RAILS_GOOD (R641): the internal power-on reset; the boot sequence follows as PORST_RISE. -/
def execWakeRailsGood (s : State) : Host.Outcome State Fault Refusal :=
  if s.rd .pkgOff = 2 ∧ s.on .railEn = true then
    .next (Die.all.foldl (fun s t => s.wr .railBad t 0 0) (s.wrs .m0 0 [(.pkgOff, 0), (.chipWake, 1), (.wakeLatch, 0), (.bootStarted, 0)]))
  else .next s

/-- The package without power but for the surface domain (R516, R641). -/
def State.powerOff (s : State) : State := s.stopTally.packageLost.wrs .m0 0 [(.pkgOff, 2), (.railEn, 0)]

/-- PACKAGE_POWER_OFF (R516, R641): 1 ms after the Off completion. -/
def execPackagePowerOff (s : State) : Host.Outcome State Fault Refusal :=
  .next (if s.rd .pkgOff = 1 then s.powerOff else s)

/-- THERMAL_TRIP (R34, R36, R538, R639): the die is reset to Off, and the surface domain records it; M0's takes the package to
Off. A reset of the die that runs ends with TARGET_UNPOWERED. -/
def execThermalTrip (t : Die) (s : State) : Host.Outcome State Fault Refusal :=
  if !s.has t || s.on .tripped t || s.rd .pkgOff == 2 then .next s else
  let s := s.wrs .m0 0 [(.tripRec, 1), (.chipTrip, 1), (.chipTripDie, t.code)]
  if t = .m0 then .next s.powerOff else
  let s := s.dieDown t
  let mine := s.resets.filter (·.die == t)
  let s := mine.foldl (fun s r => s.finishOp r.op .targetUnpowered) { s with resets := s.resets.filter (·.die != t) }
  let s := t.domains.foldl (fun s k => s.wrs t k [(.domState, 4), (.domBusy, 0), (.inReset, 0)]) (s.wrs t 63 [(.inReset, 0)])
  .next ((s.wr .tripped t 0 1).gates t)

/-- Scope of a RESET (R635). -/
def Desc.scope (d : Desc) : Nat := bits d.arg0.toNat 1 0

/-- The domain a RESET resets: an anchor stands for its die, coded 63 (R513, R636). -/
def resetDom (d : Desc) : Nat := if bits d.arg0.toNat 1 0 = 1 ∨ d.dom = d.mill.anchor then 63 else d.dom

/-- What makes a RESET BAD_DESC (R635). -/
def State.resetBad (s : State) (d : Desc) : Bool :=
  let a := d.arg0.toNat
  let scope := bits a 1 0
  let t := d.mill
  decide (8 ≤ a) || !d.clearFrom 24 || d.die.isNone || scope == 3 || (scope == 2 && d.target != 0) || (bit a 2 && scope != 1) ||
    (scope != 2 && !s.has t) || bits d.target.toNat 5 0 != 0 ||
    (scope == 0 && (!t.domains.contains d.dom || (t == .m0 && [Dom.hostif, Dom.timing, Dom.frame].contains d.dom))) ||
    (scope == 1 && (d.dom != 0 || t == .m0))

/-- A reset of a domain begins (R35, R36, R636, R639). -/
def State.resetDomain (s : State) (t : Die) (k : Nat) : State :=
  let s := (s.wr .inReset t k 1).reincarnate t k
  let s := (s.abortTo (fun d j => d == t && j == k) (portToward t)).powerReset fun d j => d == t && j == k
  let s := s.domainLost t k
  let s := match clusterOf t k with
    | some c => s.wrs t c [(.fwRunning, 0), (.fwSwapping, 0)]
    | none => s
  let s := if t.isFace ∧ k ≤ Dom.convRx then s.fgBegin t else s
  s.gates t

/-- A target that is not in Run or Idle is first brought back to Run (R506): its anchor before it. -/
def State.wakeTarget (s : State) (t : Die) (k : Nat) : State :=
  let l := if k = 63 then t.anchor :: t.domains.filter (· != t.anchor) else [t.anchor, k].dedup
  l.foldl (fun s j => if 2 ≤ s.domSt t j then s.wakeDomain t j else s) s

/-- A RESET of a die or a domain starts (R635 to R637). -/
def State.startReset (s : State) (o : Op) : State :=
  let t := o.desc.mill
  let k := resetDom o.desc
  let s := s.wakeTarget t k
  let s : State := { s with resets := s.resets ++ [⟨o, t, k, bit o.desc.arg0.toNat 2⟩] }
  if k = 63 then (((s.dieDown t).wrs t 63 [(.inReset, 1)]).fgBegin t).gates t else s.resetDomain t k

/-- A RESET waits: a request to the target's previous incarnation has not completed (R39). -/
def State.resetHeld (s : State) (t : Die) : Bool :=
  s.compl.any fun c => c.aimed == some t && c.status == Status.resetAborted.code

/-- RESET (R5, R17, R39, R506, R635, R638, R639). -/
def execReset (d : Desc) (s : State) : Host.Outcome State Fault Refusal :=
  let t := d.mill
  .next <| s.take 0x31 d (s.resetBad d) fun s =>
    if bits d.arg0.toNat 1 0 = 2 then
      let i := s.bootImage
      let s := s.stopTally.packageLost.wrs .m0 0 [(.bootStarted, 1), (.chipPkgReset, 1)]
      match i with
      | some i => s.bootWith i
      | none => s.bootFails
    else if (s.resets.any fun r => r.die == t) = true then s.finish 0x31 d .retry
    else if !s.dieInReset t && !(s.domDead t t.anchor && s.on .plannedDown t) && !s.reach t then
      (s.raise Reason.dieUnreachable (blkId t)).finish 0x31 d .retry
    else if s.resetHeld t || (s.heldResets.any fun o => o.desc.mill == t) || s.dieInReset t then
      { s with heldResets := s.heldResets ++ [⟨0x31, d⟩] }
    else s.startReset ⟨0x31, d⟩

/-- RESET_HOLD_END (R39, R639): the oldest held RESET whose target has nothing outstanding starts. -/
def execResetHoldEnd (s : State) : Host.Outcome State Fault Refusal :=
  let ready (o : Op) : Bool :=
    let t := o.desc.mill
    !s.resetHeld t && !s.dieInReset t && !(s.resets.any fun r => r.die == t)
  match s.heldResets.find? ready with
  | none => .next s
  | some o => .next (State.startReset { s with heldResets := s.heldResets.erase o } o)

/-- DOMAIN_RESET_DONE (R107, R194, R636, R646): the domain returns to Run. -/
def execDomainResetDone (t : Die) (dom : Fin 16) (s : State) : Host.Outcome State Fault Refusal :=
  match s.resets.find? fun r => r.die == t && r.dom == dom.val with
  | none => .next s
  | some r =>
    let s : State := { s with resets := s.resets.erase r }
    let s := (s.wrs t dom [(.inReset, 0), (.domState, 0)]).clustersRun t [dom.val]
    let s := if t.isFace ∧ dom.val ≤ Dom.convRx then s.fgEnd t else s
    .next (((s.gates t).raise Reason.resetDone (blkId t dom) (s.rd .incarnation t dom)).finishOp r.op .ok)

/-- RESET_DONE (R35, R40, R49, R78, R553, R567, R637): the die returns stale after its marches. -/
def execResetDone (t : Die) (faulty : List FaultyWord) (s : State) : Host.Outcome State Fault Refusal :=
  match s.resets.find? fun r => r.die == t && r.dom == 63 with
  | none => .next s
  | some r =>
    if s.on .railBad t then .next s else
    let s : State := { s with resets := s.resets.erase r }
    let s := s.repairMap t
    let s := (s.marchLeaves t true (failRows t (!r.destructive) faulty)).1
    let s := (s.dieBack t).dieReady t
    .next ((s.raise Reason.resetDone (blkId t) (s.rd .incarnation t 63)).finishOp r.op .ok)

/-- What makes a FW_UPDATE or a MAILBOX name no cluster (R643, R645, R684). -/
def clusterBad (d : Desc) : Bool :=
  d.die.isNone || bits d.target.toNat 5 0 != 0 || (clusterOf d.mill d.dom).isNone || !d.mill.domains.contains d.dom

/-- FW_UPDATE (R47, R643): the section is read and checked. -/
def execFwUpdate (d : Desc) (s : State) : Host.Outcome State Fault Refusal :=
  let n := d.arg0.toNat
  let bad := clusterBad d || decide (131072 < n) || n == 0 || d.sf != 0 || d.off != 0 || !d.clearFrom 36
  .next <| s.take 0x32 d bad fun s => s.onTarget 0x32 d d.mill d.dom fun s => { s with fwOps := s.fwOps ++ [⟨0x32, d⟩] }

/-- The oldest firmware operation of a cluster with an opcode. -/
def State.fwOp (s : State) (op : Nat) (t : Die) (c : Nat) : Option Op :=
  s.fwOps.find? fun o => o.opcode == op && o.desc.mill == t && clusterOf t o.desc.dom == some c

/-- FW_STAGED (R628, R643): the read and check end; `keyHash` is the SHA-384 of the key that follows the section, and `sigOk` says whether
the signature verifies under it. Any key slot may have signed it (assumption 79). -/
def execFwStaged (t : Die) (cluster : Fin 6) (keyHash : BitVec 384) (sigOk : Bool) (s : State) : Host.Outcome State Fault Refusal :=
  match s.fwOp 0x32 t cluster with
  | none => .next s
  | some o =>
    let s : State := { s with fwOps := s.fwOps.erase o }
    let blk := blkId t o.desc.dom
    let svn := o.desc.at 32 4
    let e := if !(List.range 4).any fun k => s.keyFused k keyHash then 3 else if !sigOk then 4
      else if svn < s.rd .chipSvnFused then 5 else 0
    if e ≠ 0 then .next ((s.raise Reason.fwAuthFail blk e).finishOp o .authFail)
    else if s.on .viewFrozen t then .next (s.finishOp o .retry)
    else .next (((s.wrs t cluster [(.fwStaged, 1), (.fwBankSvn, svn)]).raise Reason.fwStaged blk svn).finishOp o .ok)

/-- FW_SWAPPED (R141, R644): the engines restart on the code that the swap brought in. -/
def execFwSwapped (t : Die) (cluster : Fin 6) (s : State) : Host.Outcome State Fault Refusal :=
  if !s.on .fwSwapping t cluster then .next s else
  .next ((s.wrs t cluster [(.fwSwapping, 0), (.fwRunning, 1)]).raise Reason.fwSwapped (blkId t (clusterDom t cluster))
    (s.rd .fwSvnLive t cluster))

/-- MAILBOX (R645): the request waits for the cluster. -/
def execMailbox (d : Desc) (s : State) : Host.Outcome State Fault Refusal :=
  let bad := clusterBad d || d.arg0.toNat / 2 ^ 16 != 0
  .next <| s.take 0x33 d bad fun s => s.onTarget 0x33 d d.mill d.dom fun s =>
    let s := if d.mill.isFace then s.count d.mill (0x92 + 5 * (d.dom - 0x0A)) else s
    { s with fwOps := s.fwOps ++ [⟨0x33, d⟩] }

/-- MAILBOX_ANSWER (R645): the cluster's engines answer its oldest request. -/
def execMailboxAnswer (t : Die) (cluster : Fin 6) (answer : BitVec 64) (s : State) : Host.Outcome State Fault Refusal :=
  match s.fwOp 0x33 t cluster with
  | none => .next s
  | some o =>
    if !s.on .fwRunning t cluster then .next s
    else .next (State.finishOp { s with fwOps := s.fwOps.erase o } o .ok answer.toNat)

/-- MAILBOX_TIMEOUT (R645): no answer within 1 ms. -/
def execMailboxTimeout (t : Die) (cluster : Fin 6) (s : State) : Host.Outcome State Fault Refusal :=
  match s.fwOp 0x33 t cluster with
  | none => .next s
  | some o => .next (State.finishOp { s with fwOps := s.fwOps.erase o } o .retry)

end Sys2Proof.Machine
end

