-- ==== Sys2Proof/Machine/AuxAdc.lean ====
section
/-! DEFINITION. The auxiliary ADCs (R581 to R589, R619): conversions by priority, the result queue, calibration, simultaneous
samples. -/

namespace Sys2Proof.Machine

/-- The domain of a die's auxiliary ADC (R581). -/
def auxDom (t : Die) : Nat := if t.isFace then Dom.auxm else Dom.timing

/-- The telemetry source of a die's result queue (R591). -/
def auxSource (t : Die) : Nat := 0x10 + t.code

/-- A die has an auxiliary ADC whose domain is in Run or Idle (R581, R589). -/
def State.auxUp (s : State) (t : Die) : Bool :=
  s.has t && !t.isBin && s.domUp t (auxDom t) && !s.domInReset t (auxDom t)

/-- The result queue drains into a ring (R586). -/
def State.auxBound (s : State) (t : Die) : Bool := (s.ringFor 3 2 (auxSource t) 0).isSome

/-- q_level follows the queue (R619). -/
def State.auxShow (s : State) (t : Die) : State := s.wr .auxQLevel t 0 (s.auxQ.filter (·.die == t)).length

/-- AUX_Q_LO of an entry (R619). -/
def AuxEntry.lo (e : AuxEntry) : Nat :=
  e.code + 2 ^ 12 * e.ch + 2 ^ 17 * b2n e.injected + 2 ^ 18 * b2n e.overrange + 2 ^ 19 * b2n e.unsettled + 2 ^ 20 * b2n e.simul + 2 ^ 21

/-- AUX_Q_HI of an entry (R619). -/
def AuxEntry.hi (e : AuxEntry) : Nat := e.stamp % sfLen + 2 ^ 20 * (e.stamp / sfLen % 2 ^ 12)

/-- A result enters the queue of 64; one that finds it full is lost and counted, and for a bound source it is a skipped record
(R586, R592). -/
def State.auxPush (s : State) (e : AuxEntry) : State :=
  let t := e.die
  if (s.auxQ.filter (·.die == t)).length < 64 then State.auxShow { s with auxQ := s.auxQ ++ [e] } t
  else
    let s := s.inc .auxQDrop t
    let src := auxSource t
    if !s.auxBound t || s.telemSkipped.contains (src, 0) then s
    else State.raise { s with telemSkipped := s.telemSkipped ++ [(src, 0)] } Reason.telemMissed (blkId .m0 Dom.hostif) src

/-- The events of a result (R618). -/
def State.auxTags (s : State) (t : Die) (ch : Nat) (overrange unsettled : Bool) : State :=
  let s := if overrange then s.raise Reason.auxOverrange (blkId t (auxDom t)) ch else s
  if unsettled then s.raise Reason.auxNotSettled (blkId t (auxDom t)) ch else s

/-- A result reaches the shift boss: TEMP_MAIN, or one of the supply channels (R533, R536, R581, R667). A NOT_SETTLED or overrange one
is no good reading. -/
def State.bossTake (s : State) (t : Die) (ch code : Nat) (bad : Bool) : State :=
  if ch = 8 then if bad then s else s.wrs t 0 [(.tempCode, code), (.tempGood, 1)]
  else if 0x0C ≤ ch ∧ ch < 0x18 then
    if bad then s.wr .supTagged t 0 1
    else s.wrs t (ch - 0x0C) [(.supSum, s.rd .supSum t (ch - 0x0C) + code), (.supCount, s.rd .supCount t (ch - 0x0C) + 1)]
  else s

/-- An injected request answered NOT_SETTLED without a conversion (R584, R588). -/
def State.auxDeny (s : State) (t : Die) (who ch : Nat) : State :=
  let s := if who = 0 then s.bossTake t ch 0 true else s
  s.auxTags t ch false true

/-- A conversion that starts now is NOT_SETTLED: the reference has not settled, or an overrange was among the last two (R585,
R587). -/
def State.auxUnsettled (s : State) (t : Die) : Bool := !s.on .auxRefSettled t || decide (1 ≤ s.rd .auxLate t)

/-- The count of conversions after an overrange falls by one (R587). -/
def State.auxSpend (s : State) (t : Die) : State := s.wr .auxLate t 0 (s.rd .auxLate t - 1)

/-- The channel that AUX_SAMPLE names for a die (R589); 0xFF for none. -/
def sampleCh (d : Desc) (t : Die) : Nat := d.at (24 + t.code) 1

/-- A simultaneous sample of the die lies within the next `us8` eighths of a microsecond: what takes that long waits behind it (R583,
R589). -/
def State.auxKept (s : State) (t : Die) (us8 : Nat) : Bool :=
  s.auxSimul.any fun o => sampleCh o.desc t != 0xFF && decide (o.desc.pos ≤ s.tally + us8 * 31250 * s.rq)

/-- The next of the waiting: the oldest injected request, then the regular conversion; a calibration comes before the requests
behind it once the reference has settled, and waits while it would overlap a simultaneous sample (R583, R588, R589). -/
def State.auxNext (s : State) (t : Die) : Option AuxConv :=
  let l := s.auxWait.filter (·.die == t)
  let cal := s.on .auxRefSettled t && !s.auxKept t 1024
  (l.find? fun c => decide (c.who < 3) || (c.who == 5 && cal)).or (l.find? (·.who == 3))

/-- A calibration begins (R588): injected requests still waiting are answered NOT_SETTLED. -/
def State.auxCalBegin (s : State) (t : Die) : State :=
  let inj := s.auxWait.filter fun c => c.die == t && decide (c.who < 3)
  let s := State.wr { s with auxWait := s.auxWait.filter fun c => !(c.die == t && c.who != 3) } .auxCalBusy t 0 1
  inj.foldl (fun s c => s.auxDeny t c.who c.ch) s

/-- A free converter starts its next conversion, but none in the 0.5 µs before a simultaneous sample (R583, R585, R588, R589). -/
def State.auxStart (s : State) (t : Die) : State :=
  if !s.auxUp t || s.on .auxCalBusy t || (s.auxRun.any (·.die == t)) || s.auxKept t 4 then s else
  match s.auxNext t with
  | none => s
  | some c =>
    if c.who = 5 then s.auxCalBegin t
    else
      let c' : AuxConv := { c with ch := if c.who = 3 then s.rd .auxRegCh t else c.ch
                                   unsettled := s.auxUnsettled t
                                   stamp := s.tally }
      State.auxSpend { s with auxWait := s.auxWait.erase c, auxRun := s.auxRun ++ [c'] } t

/-- A channel with nothing behind it reads 0 (R581, R667): two are not connected, and four measure the rails of a Mill die's ore
bin die. -/
def State.auxOpen (s : State) (t : Die) (ch : Nat) : Bool :=
  decide (0x1E ≤ ch) || (t.isMill && !s.has (if t = .m1 then .b1 else .b0) && decide (0x14 ≤ ch) && decide (ch < 0x18))

/-- The code of a conversion (R581, R587): an open channel reads 0, a result out of range stands at the end of the range. -/
def State.auxCode (s : State) (t : Die) (ch code : Nat) (overrange : Bool) : Nat :=
  if s.auxOpen t ch then 0 else if overrange then (if 0x800 ≤ code then 0xFFF else 0) else code

/-- The channel of TX_TAP (R121). -/
abbrev txTapCh : Nat := 2

/-- A TX_TAP conversion of a Face die counts toward its interval's mean, whatever asked for it (R131). -/
def State.trimTake (s : State) (e : AuxEntry) : State :=
  if e.die.isFace ∧ e.ch = txTapCh then s.wrs e.die 0 [(.trimSum, s.rd .trimSum e.die + e.code), (.trimCount, s.rd .trimCount e.die + 1)]
  else s

/-- A bias loop's conversion counts in its chip unless it is NOT_SETTLED or overrange (R136, R138). -/
def State.loopTake (s : State) (e : AuxEntry) (p : Nat) : State :=
  if s.rd .loopState e.die p < 2 || s.on .biasWait e.die p || e.overrange || e.unsettled then s
  else s.wrs e.die p [(.biasSum, s.rd .biasSum e.die p + e.code), (.biasGood, s.rd .biasGood e.die p + 1)]

/-- A result delivered (R131, R586, R587). -/
def State.auxDeliver (s : State) (e : AuxEntry) (queue : Bool) : State :=
  let s := (if e.overrange then s.wr .auxLate e.die 0 2 else s).trimTake e
  let s := s.auxTags e.die e.ch e.overrange e.unsettled
  if queue then s.auxPush e else s

/-- AUX_CONVERSION_END (R583 to R587). -/
def execAuxConversionEnd (t : Die) (code : BitVec 12) (overrange : Bool) (s : State) : Host.Outcome State Fault Refusal :=
  match s.auxRun.find? (·.die == t) with
  | none => .next s
  | some c =>
    let s : State := { s with auxRun := s.auxRun.erase c }
    let inj := decide (c.who < 3)
    let ovr := overrange && !s.auxOpen t c.ch
    let e : AuxEntry := ⟨t, s.auxCode t c.ch code.toNat ovr, c.ch, inj, ovr, c.unsettled, false, c.stamp⟩
    let s := match c.who with
      | 0 => s.bossTake t c.ch e.code (ovr || c.unsettled)
      | 1 | 2 => s.loopTake e (c.who - 1)
      | _ => s
    .next ((s.auxDeliver e (!inj || s.on .auxQueueInj t)).auxStart t)

/-- A request joins the waiting, before those of the same cycle that R583 queues behind it. -/
def auxJoin (c : AuxConv) : List AuxConv → List AuxConv
  | [] => [c]
  | x :: l => if x.die = c.die ∧ x.stamp = c.stamp ∧ c.who < x.who ∧ x.who < 3 then c :: x :: l else x :: auxJoin c l

/-- A bias loop in ACQUIRE or TRACK, in a chip, asks for one of its chip's samples (R136). -/
def State.loopAsks (s : State) (t : Die) (p : Nat) : Bool :=
  t.isFace && decide (2 ≤ s.rd .loopState t p) && !s.on .biasWait t p &&
    decide (s.rd .biasAsked t p < max 1 (s.rd .loopSamplesPerChip t p))

/-- AUX_INJECT_REQUEST (R134, R136, R583, R584, R588): `who` 0 the shift boss, with the channel it names; 1 the X loop, which
takes MON_X, 2 the Y loop, which takes MON_Y, each samples_per_chip times a chip. -/
def execAuxInjectRequest (t : Die) (who : Fin 3) (chan : BitVec 5) (s : State) : Host.Outcome State Fault Refusal :=
  let p := who.val - 1
  if !s.auxUp t || (who.val != 0 && !s.loopAsks t p) then .next s else
  let s := if who.val = 0 then s else s.wr .biasAsked t p (s.rd .biasAsked t p + 1)
  let ch : BitVec 5 := if who.val = 0 then chan else BitVec.ofNat 5 p
  if s.on .auxCalBusy t then .next (s.auxDeny t who ch.toNat)
  else if 16 ≤ (s.auxWait.filter fun c => c.die == t && decide (c.who < 3)).length then
    .next ((s.inc .auxInjDropped t).auxDeny t who ch.toNat)
  else .next (State.auxStart { s with auxWait := auxJoin ⟨t, who, ch.toNat, false, s.tally⟩ s.auxWait } t)

/-- A regular conversion falls due; one that waits already is not queued twice (R584). -/
def State.auxRegular (s : State) (t : Die) : State :=
  if !s.auxUp t || (s.auxWait.any fun c => c.die == t && c.who == 3) then s
  else State.auxStart { s with auxWait := s.auxWait ++ [⟨t, 3, s.rd .auxRegCh t, false, 0⟩] } t

/-- REG_START (R584): a conversion in single mode. -/
def execRegStart (t : Die) (s : State) : Host.Outcome State Fault Refusal :=
  .next (s.writeReg t .auxRegStart 0 fun s => if s.rd .auxRegMode t = 1 then s.auxRegular t else s)

/-- AUX_REG_PERIOD (R584): every reg_period µs in periodic mode. -/
def execAuxRegPeriod (t : Die) (s : State) : Host.Outcome State Fault Refusal :=
  .next (if s.rd .auxRegMode t = 2 then s.auxRegular t else s)

/-- REF_SETTLED (R585). -/
def execRefSettled (t : Die) (s : State) : Host.Outcome State Fault Refusal :=
  .next (if s.auxUp t && s.on .auxRefEn t then (s.wr .auxRefSettled t 0 1).auxStart t else s)

/-- A write to ref_en: 0 clears ref_settled at once (R585). -/
def State.refWritten (s : State) (t : Die) : State := if s.on .auxRefEn t then s else s.wr .auxRefSettled t 0 0

/-- A calibration asked for (R588): ignored while one runs or waits. -/
def State.auxCal (s : State) (t : Die) : State :=
  if s.on .auxCalBusy t || (s.auxWait.any fun c => c.die == t && c.who == 5) then s
  else State.auxStart { s with auxWait := s.auxWait ++ [⟨t, 5, 0, false, 0⟩] } t

/-- AUX_CAL (R588). -/
def execAuxCal (t : Die) (s : State) : Host.Outcome State Fault Refusal := .next (s.writeReg t .auxCal 0 fun s => s.auxCal t)

/-- AUX_CAL_DONE (R588): after 128 µs. -/
def execAuxCalDone (t : Die) (s : State) : Host.Outcome State Fault Refusal :=
  .next (if s.on .auxCalBusy t then (s.wr .auxCalBusy t 0 0).auxStart t else s)

/-- The fields of AUX_Q_LO and AUX_Q_HI. -/
def auxQFields : List Fld :=
  [.auxQResult, .auxQChannel, .auxQInjected, .auxQOverrange, .auxQNotSettled, .auxQSimultaneous, .auxQValid, .auxQOffset, .auxQSfLow]

/-- AUX_Q_POP (R586, R619, R655): the oldest entry; none while the queue drains into a ring. -/
def execAuxQPop (t : Die) (s : State) : Host.Outcome State Fault Refusal :=
  .next <| s.readReg t .auxQResult 0 fun s =>
    let s := s.zeros t 0 auxQFields
    let s := match if s.auxBound t then none else s.auxQ.find? (·.die == t) with
      | none => s
      | some e =>
        (State.wrs { s with auxQ := s.auxQ.erase e } t 0 [(.auxQResult, e.code), (.auxQChannel, e.ch), (.auxQInjected, b2n e.injected),
          (.auxQOverrange, b2n e.overrange), (.auxQNotSettled, b2n e.unsettled), (.auxQSimultaneous, b2n e.simul), (.auxQValid, 1),
          (.auxQOffset, e.stamp % sfLen), (.auxQSfLow, e.stamp / sfLen)]).auxShow t
    (s, s.wordOf t .auxQResult 0)

/-- A position has passed (R56). -/
def State.passed (s : State) (pos : Nat) : Bool := decide (pos < s.tally)

/-- A position more than 2^16 SF ahead. -/
def State.farAhead (s : State) (pos : Nat) : Bool := decide (s.tally + 2 ^ 16 * sfLen < pos)

/-- AUX_SAMPLE (R5, R47, R55, R56, R589). -/
def execAuxSample (d : Desc) (s : State) : Host.Outcome State Fault Refusal :=
  let bad := d.target != 0 || d.arg0 != 0 || !d.clearFrom 32 || d.off.toNat % lfLen != 0 || s.farAhead d.pos ||
    Die.all.any fun t => sampleCh d t != 0xFF && (t.isBin || !s.has t || decide (0x1F < sampleCh d t))
  .next <| s.take 0x3B d bad fun s =>
    if s.auxSimul.isSome then s.finish 0x3B d .retry
    else if s.passed d.pos then s.finish 0x3B d .late
    else { s with auxSimul := some ⟨0x3B, d⟩ }

/-- AUX_SIMUL_SAMPLE (R583, R585 to R587, R589): `codes` holds each die's code and whether it was out of range, by die code. A sample
within a calibration that had begun before carries NOT_SETTLED (assumption 77); what was kept back starts after the sample. -/
def execAuxSimulSample (codes : List (BitVec 12 × Bool)) (s : State) : Host.Outcome State Fault Refusal :=
  match s.auxSimul with
  | none => .next s
  | some o =>
    if s.tally < o.desc.pos then .next s else
    let s : State := { s with auxSimul := none }
    let l := Die.all.filter fun t => sampleCh o.desc t != 0xFF && s.auxUp t
    let r := l.foldl (fun (x : State × Nat) t =>
      let s := x.1
      let c := codes.getD t.code (0, false)
      let ch := sampleCh o.desc t
      let ovr := c.2 && !s.auxOpen t ch
      let uns := s.auxUnsettled t || s.on .auxCalBusy t
      let e : AuxEntry := ⟨t, s.auxCode t ch c.1.toNat ovr, ch, false, ovr, uns, true, o.desc.pos⟩
      (((s.auxSpend t).auxDeliver e true).auxStart t,
        x.2 + 2 ^ t.code + b2n uns * 2 ^ (8 + t.code) + b2n ovr * 2 ^ (16 + t.code))) (s, 0)
    .next (if l = [] then r.1.finishOp o .targetUnpowered else r.1.finishOp o .ok r.2)

end Sys2Proof.Machine
end

