-- ==== Sys2Proof/Machine/Monitor.lean ====
section
/-! DEFINITION. Telemetry records, line monitors and polarisation, transport PM, assay counters, tag seeds, the survey and raw
capture (R590 to R617). -/

namespace Sys2Proof.Machine

/-- A record as a ring entry (R590). -/
def Telem.bytes (t : Telem) (phase : Nat) : List Byte :=
  leBytes 1 t.recType ++ leBytes 1 (b2n t.gap + 128 * phase) ++ leBytes 2 (t.source + 2 ^ 10 * t.die) ++ leBytes 8 (t.stamp / sfLen) ++
    leBytes 4 (t.stamp % sfLen) ++ t.payload

/-- The next record of a source, and the state without it: the oldest held one, or four results of an auxiliary queue (R586,
R591). -/
def State.nextRecord (s : State) (source die : Nat) : Option (Telem × State) :=
  match s.telem.find? fun t => t.source == source && t.die == die with
  | some t => some (t, { s with telem := s.telem.erase t })
  | none =>
    match if 0x10 ≤ source ∧ source < 0x16 then dieOfCode (source - 0x10) else none with
    | none => none
    | some d =>
      match s.auxQ.filter (·.die == d) with
      | a :: b :: c :: e :: _ =>
        let four := [a, b, c, e]
        some (⟨source, die, 0x06, s.telemSkipped.contains (source, die), a.stamp,
            four.flatMap fun x => leBytes 4 x.lo ++ leBytes 4 x.hi⟩,
          State.auxShow { s with auxQ := four.foldl (fun l x => l.erase x) s.auxQ
                                 telemSkipped := s.telemSkipped.filter (· != (source, die)) } d)
      | _ => none

/-- An ASSAY_SNAP completes after the last record of its snapshot (R607). -/
def State.snapEnd (s : State) : State :=
  match s.assaySnap with
  | none => s
  | some o =>
    if !s.on .snapTaken || s.telem.any (·.source == 0xD) then s
    else State.finishOp { s.wrP .snapTaken 0 with assaySnap := none } o .ok

/-- A source writes its next record when its ring has room; an unbound source holds none (R592). -/
def State.telemPush (s : State) (source die : Nat) : State :=
  match s.ringFor 3 2 source die with
  | none => { s with telem := s.telem.filter fun t => !(t.source == source && t.die == die)
                     telemSkipped := s.telemSkipped.filter (· != (source, die)) }
  | some q =>
    if !s.on .pcieUp || !q.2.room then s else
    match s.nextRecord source die with
    | none => s
    | some r => (r.2.count .m0 0x156).writeEntry q.1 q.2 false (Telem.bytes r.1)

/-- TELEMETRY_WRITE (R480, R590 to R592, R607). -/
def execTelemetryWrite (source : BitVec 10) (m : Fin 2) (s : State) : Host.Outcome State Fault Refusal :=
  .next (s.telemPush source.toNat m).snapEnd

/-- A record of a burst: it is written at once where its ring has room (R592). -/
def State.emitNow (s : State) (source die recType stamp : Nat) (payload : List Byte) : State :=
  (s.emit source die recType stamp payload).telemPush source die

/-- prefec_ber of an interval in 10^-8: counted errors, which are held in 2^-24, over counted bits, held at 24 bits (R272, R622); with
nothing released the spec gives no value (assumption 76). -/
def State.intervalBer (s : State) (n : Nat) : Nat × State :=
  let d := millOf n
  let bits := s.rd .berBits d (n % 2)
  let r := if bits = 0 then s.fresh else (s.rd .berErrs d (n % 2) * 10 ^ 8 / (bits * 2 ^ 24), s)
  (min (2 ^ 24 - 1) r.1, r.2)

/-- q_db of a pre-FEC estimate (R593): 20 log10 (√2 erfc⁻¹ (2 p)); the spec gives none for p = 0 (assumption 76). -/
def State.qOf (s : State) (ber : Nat) : Nat × State := if ber = 0 then s.fresh else (ofInt 16 (qSearch ber (10 ^ 8) 12 (-100)), s)

/-- The mean squared amplitude of a class and entropy step, times 512 (R211). -/
def meanSquare (cls h : Nat) : Nat := ((composition cls h).zipIdx.map fun e => e.1 * (2 * e.2 + 1) ^ 2).sum

/-- The mean over both polarisations and all subcarriers of symbol energy over the noise variance of R187, in 2^-16 (R593). -/
def State.snrRatio (s : State) (n : Nat) : Nat :=
  let r := s.rxRate .live n
  let nsub := s.subcarriers n
  let l := [0, 1].flatMap fun p => (List.range nsub).map fun k => s.rd .noiseEst (faceOf n) (streamIx p k)
  (l.map fun v => meanSquare r.cls r.h * 2 ^ 23 / max 1 v).sum / (2 * nsub)

/-- gsnr_db from snr_db and trx_snr (R593): 0x7FFF where SNR reaches SNR_trx. -/
def gsnrOf (snr trx : Int) : Int :=
  if trx ≤ snr then 0x7FFF else centiBel (2 ^ 32) (ofCentiBel (-snr) - ofCentiBel (-trx))

/-- osnr_db (R593): gsnr_db plus 10 log10 of the symbol rate over 12.5 GHz, which is 50 of its units. -/
def osnrOf (gsnr : Int) (rq : Nat) : Int := clampInt 16 (gsnr + centiBel rq 50)

/-- snr_thr of a rate (R593). -/
def snrThr (r : LineRate) : Int := if r.h = 809 ∧ r.code = 2 then 830 else (Config.snrThreshold r.cls r.h r.code).toInt

/-- LINE_MONITOR_UPDATE (R541, R593): at a budget-interval boundary, a carrier in TRACK; `dgd` and `pdl` are those of its equaliser's
mean Jones matrix. -/
def execLineMonitorUpdate (n : Fin 4) (dgd : BitVec 16) (pdl : BitVec 10) (s : State) : Host.Outcome State Fault Refusal :=
  if !s.hasCarrier n || s.sf % 256 ≠ 0 then .next s else
  let m := millOf n
  let clear (s : State) : State := s.wrs m (n % 2) [(.berErrs, 0), (.berBits, 0)]
  if s.acq n ≠ 7 then .next (clear s) else
  let d := faceOf n
  let b := s.intervalBer n
  let q := b.2.qOf b.1
  let s := q.2
  let snr := clampInt 16 (centiBel (s.snrRatio n) (2 ^ 16))
  let gsnr := clampInt 16 (gsnrOf snr (toInt 16 (s.rd .monTrxSnr .m0 n)))
  let osnr := osnrOf gsnr s.rq
  let s := s.wrs .m0 n [(.monPrefecBer, b.1), (.monQDb, q.1), (.monSnrDb, ofInt 16 snr), (.monGsnrDb, ofInt 16 gsnr),
    (.monOsnrDb, ofInt 16 osnr), (.monCd, s.rd .cdcCdEst d), (.monDgdPs, dgd.toNat), (.monPdl, pdl.toNat),
    (.monFreqOffset, s.rd .crFreqOffset d), (.monSf, s.sf), (.carMargin, ofInt 16 (clampInt 16 (snr - snrThr (s.rxRate .live n))))]
  .next <| (clear s).emit n 0 0x08 ((s.sf - 256) * sfLen) <|
    leBytes 4 b.1 ++ leBytes 2 q.1 ++ leBytes 2 (ofInt 16 snr) ++ leBytes 2 (ofInt 16 gsnr) ++ leBytes 2 (ofInt 16 osnr) ++
      leBytes 2 (s.rd .cdcCdEst d) ++ leBytes 2 dgd.toNat ++ leBytes 2 pdl.toNat ++ leBytes 2 (s.rd .crFreqOffset d)

/-- SOP samples a second at a setting (R622). -/
def sopPerSecond (r : Nat) : Nat := 10 ^ min r 3

/-- A sample instant of a carrier's stream lies in the SF that has ended at this boundary, or at the boundary: the instants fall at
the last internal second edge and every 1/sop_rate s after it (R595). -/
def State.sopDue (s : State) (n : Nat) : Bool :=
  let edge := s.rd .ppsTallyLive
  let instants (t : Nat) : Nat := if t < edge then 0 else (t - edge) * sopPerSecond (s.rd .monSopRate .m0 n) / (s.rq * 250000000) + 1
  decide (instants ((s.sf - 1) * sfLen) < instants (s.sf * sfLen))

/-- SOP_SAMPLE (R595): one at each SF boundary that follows a sample instant; seven samples make a record. -/
def execSopSample (n : Fin 4) (s1 s2 s3 : BitVec 16) (s : State) : Host.Outcome State Fault Refusal :=
  let rest := s.sopBuf.filter (·.1 != n.val)
  if !s.hasCarrier n || (s.ringFor 3 2 (4 + n) 0).isNone then .next { s with sopBuf := rest } else
  if !s.sopDue n || s.rd .sopTaken .m0 n = s.sf then .next s else
  let s := s.wr .sopTaken .m0 n s.sf
  let old : Nat × List (Nat × Nat × Nat) := match s.sopBuf.find? (·.1 == n.val) with
    | some e => e.2
    | none => (s.sf * sfLen, [])
  let l := old.2 ++ [(s1.toNat, s2.toNat, s3.toNat)]
  if l.length < 7 then .next { s with sopBuf := rest ++ [(n.val, old.1, l)] }
  else .next (State.emit { s with sopBuf := rest } (4 + n) 0 0x04 old.1
    (l.flatMap fun x => leBytes 2 x.1 ++ leBytes 2 x.2.1 ++ leBytes 2 x.2.2))

/-- A rotation of the Stokes vector within one LF, in π/2^16, as a rate in krad/s; at most π an LF is measured (R596). -/
def State.sopRate (s : State) (rot : Nat) : Nat := min rot (2 ^ 16) * 355 * (s.rq * 250000) / (113 * 2 ^ 16 * lfLen)

/-- SOP_RATE_MEASURE (R596): `rot` is the rotation since the previous LF, in π/2^16 (assumption 77). -/
def execSopRateMeasure (n : Fin 4) (rot : BitVec 17) (s : State) : Host.Outcome State Fault Refusal :=
  if !s.hasCarrier n then .next s else
  let rate := s.sopRate rot.toNat
  let s := s.wr .monSopRatePeak .m0 n (max (s.rd .monSopRatePeak .m0 n) rate)
  .next (if s.rd .monSopThr .m0 n * 10 < rate then s.raise Reason.sopFast (blkId (faceOf n)) n rate else s)

/-- SOP_RATE_PEAK_READ (R596, R622). -/
def execSopRatePeakRead (n : Fin 4) (s : State) : Host.Outcome State Fault Refusal :=
  if !s.hasCarrier n then .next (s.deadRead (blkId (faceOf n)) (Fld.offsetAt .monSopRatePeak n))
  else .next { s.wr .monSopRatePeak .m0 n 0 with readData := s.rd .monSopRatePeak .m0 n }

/-- The die and domain of a PM source (R598). -/
def pmBlock (source m : Nat) : Nat :=
  if 0x100 ≤ source then blkId (millAt m) Dom.otn
  else if 0x80 ≤ source then blkId (millOf (source - 0x80)) Dom.frame
  else blkId (millAt m) (if source - 0x40 < 12 then Dom.clntA else Dom.clntB)

/-- The last ten judged seconds of a layer: unavailability begins, ends, or stands (R600). `ses` and `ua` read a second's judgement
and its state. -/
def pmTurn (ses ua : PmSec → Bool) (l : List PmSec) : Option Bool :=
  let ten := (l.reverse.take 10)
  if ten.length < 10 then none
  else if ten.all fun x => ses x && !ua x then some true
  else if ten.all fun x => !ses x && ua x then some false
  else none

/-- The seconds of a layer with the flag of the last ten set. -/
def pmSet (set : PmSec → PmSec) (l : List PmSec) : List PmSec :=
  let k := l.length - 10
  l.take k ++ (l.drop k).map set

/-- arg0 of the events of unavailability (R618). -/
def pmArg (source m layer : Nat) (far : Bool) : Nat := source + 2 ^ 10 * m + 2 ^ 16 * layer + 2 ^ 20 * b2n far

/-- One end's judgement of unavailability over the judged seconds (R600, R618). -/
def State.pmEnd (s : State) (source m layer : Nat) (far : Bool) : State :=
  let mine (x : PmSec) : Bool := x.judged && x.ofLayer source m layer
  let l := s.pmSecs.filter mine
  match if far then pmTurn PmSec.fses (·.fuas) l else pmTurn PmSec.ses (·.uas) l with
  | none => s
  | some v =>
    let l := pmSet (fun x => if far then { x with fuas := v } else { x with uas := v }) l
    State.raise { s with pmSecs := l ++ s.pmSecs.filter (!mine ·) } (if v then Reason.pmUasStart else Reason.pmUasEnd)
      (pmBlock source m) (pmArg source m layer far)

/-- The second that ended at the boundary before this one is judged (R599, R600; assumption 75): the state of unavailability carries on
until ten seconds turn it. -/
def State.pmJudge (s : State) (source m layer : Nat) : State :=
  let mine (x : PmSec) : Bool := x.ofLayer source m layer
  match s.pmSecs.find? fun x => mine x && x.stop.isSome && !x.judged with
  | none => s
  | some x =>
    let last := (s.pmSecs.filter fun x => mine x && x.judged).getLast?
    let s : State := { s with
      pmSecs := updateWhere (· == x) (fun x => { x with judged := true, uas := last.any (·.uas), fuas := last.any (·.fuas) }) s.pmSecs }
    let s := s.pmEnd source m layer false
    if s.pmFar source m layer then s.pmEnd source m layer true else s

/-- The carrier whose far SFs bound the seconds of a source; none for a port and for a context that no carrier brings (R597). -/
def State.pmCarrier (s : State) (source m : Nat) : Option Nat :=
  if 0x200 ≤ source then (s.ctxCarriers (millAt m) (source - 0x200)).head?
  else if 0x100 ≤ source then some (2 * m + (source - 0x100) / 24)
  else if 0x80 ≤ source then some (source - 0x80)
  else none

/-- The boundary of a PM second at package SF `b` (R597): of a received layer, the first far SF that arrives at or after it; without a
far tally the package SF stands (assumption 75). -/
def State.pmBoundary (s : State) (source m b : Nat) : Bool × Nat :=
  match s.pmCarrier source m with
  | none => (false, b)
  | some n => if s.on .farValid (millOf n) (n % 2) && s.hasPrediction n then (true, s.firstFarAfter n b) else (false, b)

/-- A second closed at a boundary, and whether the interval of R87 touches it: both are counted in package SFs. -/
def State.pmClose (s : State) (x : PmSec) (stop b : Nat) : PmSec :=
  let lo := s.rd .stopSf
  let hi := s.rd .resumeSf
  { x with stop := some (max x.start stop), forced := decide (lo < hi) && decide (x.edge < hi) && decide (lo < b) }

/-- PM_SECOND (R87, R597 to R600): the first SF that starts at or after the last internal second edge closes the second of a layer and
opens the next; `c` is what a port's decoder has seen since it was last asked. -/
def execPmSecond (source : BitVec 10) (m : Fin 2) (layer : Fin 10) (c : PortCounts) (s : State) :
    Host.Outcome State Fault Refusal :=
  let src := source.toNat
  let b := ceilDiv (s.rd .ppsTallyLive) sfLen
  let mine (x : PmSec) : Bool := x.ofLayer src m layer
  if !s.pmLayer src m layer || s.sf < b || (s.pmSecs.any fun x => mine x && x.edge == b) then .next s else
  let s := if layer.val = 8 then
      (s.codewords (millAt m) (src - 0x40) c.corrected.toNat c.uncorrectable.toNat).pmCount src m 8 0 fun x =>
        { x with blocks := x.blocks + c.codewords.toNat }
    else s
  let e := s.pmBoundary src m b
  let s := s.pmJudge src m layer
  .next (State.pmWatch { s with
    pmSecs := updateWhere (fun x => mine x && x.stop.isNone) (fun x => s.pmClose x e.2 b) s.pmSecs ++
      [⟨src, m, layer, e.1, e.2, none, b, 0, 0, 0, 0, 0, 0, false, false, false, false, false, false⟩] })

/-- The payload of a PM record (R600, R601). -/
def PmSec.payload (x : PmSec) (far : Bool) : List Byte :=
  let u := x.uas || x.forced
  let fu := far && (x.fuas || x.forced)
  let fes := far && x.fes && !fu
  let fses := far && x.fses && !fu
  let flags := b2n (x.es && !u) + 2 * b2n (x.ses && !u) + 4 * b2n u + 8 * b2n fes + 16 * b2n fses + 32 * b2n fu + 64 * b2n x.defect
  leBytes 1 x.layer ++ leBytes 1 flags ++ leBytes 6 x.start ++ leBytes 4 ((x.stop.getD x.start) - x.start) ++ leBytes 4 x.blocks ++
    leBytes 4 (if x.ses || u then 0 else x.near) ++ leBytes 4 (if !far || x.fses || fu then 0 else x.farErr) ++ leBytes 4 x.bip ++
    leBytes 4 (if 8 ≤ x.layer then x.extra else 0) ++ leBytes 6 (if x.layer = 9 then x.bitErrs / 2 ^ 24 else 0)

/-- PM_RECORD (R600, R601): ten seconds after a second ended its flags are final. -/
def execPmRecord (source : BitVec 10) (m : Fin 2) (layer : Fin 10) (s : State) : Host.Outcome State Fault Refusal :=
  let src := source.toNat
  match s.pmSecs.filter fun x => x.ofLayer src m layer with
  | x :: l =>
    if !x.judged || (l.filter (·.stop.isSome)).length < 10 then .next s
    else .next (State.emit { s with pmSecs := s.pmSecs.erase x } src m 0x01 (x.start * sfLen) (x.payload (s.pmFar src m layer)))
  | [] => .next s

/-- An index that names an event of a die (R602 to R604). -/
def assayEvent (t : Die) (i : Nat) : Bool :=
  let inR (lo n : Nat) : Bool := decide (lo ≤ i) && decide (i < lo + n)
  inR 0x1F0 16 ||
    (if t.isFace then
      inR 0 11 || inR 0x10 11 || inR 0x20 16 || inR 0x30 32 || inR 0x50 16 || inR 0x60 38 || inR 0x90 30
    else if t.isMill then
      inR 0 19 || inR 0x20 19 || inR 0x40 14 || inR 0x50 44 || inR 0x90 44 || inR 0xD0 68 || inR 0x114 40 || inR 0x13C 27
    else inR 0 5 || inR 8 5 || inR 0x10 2 || inR 0x12 71)

/-- An event of a die that the commands show, and that the model counts as they bring it (R602). The others count cycles, or what no
command shows: occupancies, waits, busy cycles, dispatched tasks, pattern misses, stuff bits, justifications and the accesses of an
ore bin (assumption 25). -/
def assayShown (t : Die) (i : Nat) : Bool :=
  let inR (lo n : Nat) : Bool := decide (lo ≤ i) && decide (i < lo + n)
  if t.isFace then inR 0x30 0x56 || (inR 0x90 30 && ((i - 0x90) % 5 == 2 || (i - 0x90) % 5 == 3))
  else if t.isMill then
    inR 0x50 44 || inR 0x90 44 || (inR 0x114 16 && (i - 0x114) % 8 != 0 && (i - 0x114) % 8 != 5) || inR 0x14D 10
  else inR 0x16 35

/-- An event ID names a counter of a die present (R602). -/
def State.assayLive (s : State) (id : Nat) : Bool :=
  decide (id / 512 % 8 = 0) && (dieOfCode (id / 4096)).any fun t => s.has t && assayEvent t (id % 512)

/-- A named counter read (R602, R606): its value, 0 for an ID that names none. `k` is what a counter of events that no command shows
has counted since it was last read; without it that is a free value (assumption 25). -/
def State.assayRead (s : State) (id : Nat) (k : Option (BitVec 48)) : State × Nat :=
  if !s.assayLive id then (s, 0)
  else if (dieOfCode (id / 4096)).any fun t => assayShown t (id % 512) then (s, s.assayCount id)
  else
    let f := match k with
      | some k => (k.toNat, s)
      | none => s.fresh
    let s := f.2.assayAdd id f.1
    (s, s.assayCount id)

/-- Entries of a batch (R623). -/
def State.batchLen (s : State) : Nat := max 1 (min 16 (s.rd .assayBatchLen))

/-- ASSAY_BATCH (R606, R623): `vals` holds what each selected counter of events that no command shows has counted since it was last
read. -/
def execAssayBatch (vals : List (BitVec 48)) (s : State) : Host.Outcome State Fault Refusal :=
  if s.on .assayBatchBusy then .next s else
  let s := s.wrP .assayBatchBusy 1
  .next <| (List.range s.batchLen).foldl (fun s k =>
    let r := s.assayRead (s.rd .assayEventId .m0 k) vals[k]?
    r.1.wrs .m0 k [(.assayCountLo, r.2), (.assayCountHi, r.2 / 2 ^ 32), (.assayStamp, s.tally / 1024)]) s

/-- ASSAY_BATCH_DONE (R606). -/
def execAssayBatchDone (s : State) : Host.Outcome State Fault Refusal := .next (s.wrP .assayBatchBusy 0)

/-- ASSAY_SNAP (R5, R47, R55, R56, R607). -/
def execAssaySnap (d : Desc) (s : State) : Host.Outcome State Fault Refusal :=
  let a := d.arg0.toNat
  let bad := d.target != 0 || a / 256 != 0 || decide (512 ≤ d.at 24 2) || d.at 26 2 == 0 || decide (512 < d.at 26 2) || !d.clearFrom 28 ||
    d.off.toNat % lfLen != 0 || (s.ringFor 3 2 0xD 0).isNone || (Die.all.any fun t => bit a t.code && !s.has t) || s.farAhead d.pos
  .next <| s.take 0x39 d bad fun s =>
    if s.assaySnap.isSome then s.finish 0x39 d .retry
    else if s.passed d.pos then s.finish 0x39 d .late
    else { s with assaySnap := some ⟨0x39, d⟩ }

/-- The records of one die's snapshot from an index on (R607). -/
def State.snapRecords (s : State) (t : Die) (pos : Nat) : Nat → Nat → List (Option (BitVec 48)) → State
  | 0, _, _ => s
  | f + 1, i, l =>
    match l with
    | [] => s
    | _ :: _ =>
      let now := l.take 7
      let r := now.zipIdx.foldl (fun (x : State × List Byte) p =>
        let q := x.1.assayRead (t.code * 4096 + i + p.2) p.1
        (q.1, x.2 ++ leBytes 6 q.2)) (s, [])
      (r.1.emitNow 0xD 0 0x02 pos (leBytes 2 (t.code * 4096 + i) ++ leBytes 1 now.length ++ leBytes 1 0 ++ r.2)).snapRecords t pos f
        (i + 7) (l.drop 7)

/-- ASSAY_SNAPSHOT (R602, R607): `vals` holds, by die code, what each named counter of events that no command shows has counted since
it was last read. The command completes once its last record is written. -/
def execAssaySnapshot (vals : List (List (BitVec 48))) (s : State) : Host.Outcome State Fault Refusal :=
  match s.assaySnap with
  | none => .next s
  | some o =>
    let d := o.desc
    if s.on .snapTaken || s.tally < d.pos then .next s else
    let n := d.at 26 2
    let s := (Die.all.filter fun t => bit d.arg0.toNat t.code && s.has t).foldl (fun s t =>
      s.snapRecords t d.pos n (d.at 24 2) ((List.range n).map fun k => (vals.getD t.code [])[k]?)) (s.wrP .snapTaken 1)
    .next s.snapEnd

/-- TAG_SEED_LOAD (R608): at the SF boundary after the write; 0 is taken as 1. -/
def execTagSeedLoad (m : Fin 2) (s : State) : Host.Outcome State Fault Refusal :=
  let d := millAt m
  .next (if s.on .tagSeedPend d then s.wrs d 0 [(.tagSeedPend, 0), (.tagGen, max 1 (s.rd .tagSeed d))] else s)

/-- The survey of a carrier. -/
def State.surveyOf (s : State) (n : Nat) : Option Survey := s.surveys.find? (·.n == n)

/-- SURVEY_ACQ (R5, R47, R55, R56, R611). -/
def execSurveyAcq (d : Desc) (s : State) : Host.Outcome State Fault Refusal :=
  let t := d.mill
  let a := d.arg0.toNat
  let n := t.carrier
  let bad := dieTargetBad d || !t.isFace || bits a 11 0 == 0 || decide (3000 < bits a 11 0) || decide (bits a 16 12 < 10) ||
    decide (20 < bits a 16 12) || a / 2 ^ 17 != 0 || decide (d.at 24 2 < 1000) || decide (2500 < d.at 24 2) || !d.clearFrom 28 ||
    d.off != 0 || (s.ringFor 3 2 (8 + n) 0).isNone
  .next <| s.take 0x3A d bad fun s =>
    if (s.surveyOf n).isSome then s.finish 0x3A d .retry
    else if s.passed d.pos then s.finish 0x3A d .late
    else s.onTarget 0x3A d t t.anchor fun s => { s with surveys := s.surveys ++ [⟨n, ⟨0x3A, d⟩, 0⟩] }

/-- An SF is active for a carrier's survey (R610). -/
def State.surveyActive (s : State) (n : Nat) : Bool :=
  decide (s.sf % 64 < s.rd .carSurveyDuty .m0 n) && s.acq n == 7 &&
    decide (s.rd .carStepsGrant .m0 n ≤ if s.nlc1Runs n then 24 else 8)

/-- Active SFs that a survey accumulates. -/
def Survey.goal (v : Survey) : Nat := 2 ^ bits v.op.desc.arg0.toNat 16 12

/-- SURVEY_ACCUMULATE (R610, R611). -/
def execSurveyAccumulate (n : Fin 4) (s : State) : Host.Outcome State Fault Refusal :=
  match s.surveyOf n with
  | none => .next s
  | some v =>
    if v.op.desc.sf.toNat ≤ s.sf ∧ s.surveyActive n = true ∧ v.count < v.goal then
      .next { s with surveys := updateWhere (· == v) (fun v => { v with count := v.count + 1 }) s.surveys }
    else .next s

/-- The profile records of a survey from a bin on (R612). -/
def State.profileRecords (s : State) (src pos : Nat) : Nat → Nat → List (BitVec 16) → State
  | 0, _, _ => s
  | f + 1, b, l =>
    match l with
    | [] => s
    | _ :: _ =>
      let now := l.take 20
      (s.emitNow src 0 0x05 pos (leBytes 2 b ++ leBytes 2 now.length ++ now.flatMap fun x => leBytes 2 x.toNat)).profileRecords src pos f
        (b + 20) (l.drop 20)

/-- The largest anomaly (R612), the first of equals. -/
def worstAnomaly (l : List Anomaly) : Option Anomaly :=
  l.foldl (fun b a => match b with
    | none => some a
    | some m => if m.loss.toNat < a.loss.toNat then some a else some m) none

/-- Powers relative to that of bin 0 (R612). -/
def fromBin0 (l : List (BitVec 16)) : List (BitVec 16) :=
  l.map fun x => BitVec.ofInt 16 (clampInt 16 (x.toInt - (l.headD 0).toInt))

/-- A survey ends: its records, its event, its completion (R611, R612); a step below 0.5 dB is no anomaly. -/
def State.surveyEnd (s : State) (v : Survey) (profile : List (BitVec 16)) (anoms : List Anomaly) (partial' : Bool) : State :=
  let d := v.op.desc
  let bins := bits d.arg0.toNat 11 0
  let src := 8 + v.n
  let anoms := anoms.filter fun a => decide (50 ≤ a.loss.toNat)
  let s : State := { s with surveys := s.surveys.erase v }
  let s := s.profileRecords src d.pos bins 0 (fromBin0 ((profile ++ List.replicate bins 0).take bins))
  let s := anoms.foldl (fun s a =>
    s.emitNow src 0 0x07 d.pos (leBytes 4 a.loc.toNat ++ leBytes 2 a.loss.toNat ++ leBytes 2 a.unc.toNat ++ leBytes 2 a.span.toNat)) s
  let s := match worstAnomaly anoms with
    | some a => s.raise Reason.surveyAnomaly (blkId (faceOf v.n)) a.loc.toNat (a.loss.toNat + 2 ^ 16 * v.n)
    | none => s
  s.finishOp v.op .ok (ceilDiv bins 20 + 2 ^ 16 * min 255 anoms.length + 2 ^ 24 * b2n partial' + 2 ^ 25 * min (2 ^ 20 - 1) v.count)

/-- SURVEY_DONE (R611, R612): the count is reached. -/
def execSurveyDone (n : Fin 4) (profile : List (BitVec 16)) (anoms : List Anomaly) (s : State) :
    Host.Outcome State Fault Refusal :=
  match s.surveyOf n with
  | none => .next s
  | some v => .next (if v.goal ≤ v.count then s.surveyEnd v profile anoms false else s)

/-- SURVEY_TIMEOUT (R611): max_wait has passed. -/
def execSurveyTimeout (n : Fin 4) (profile : List (BitVec 16)) (anoms : List Anomaly) (s : State) :
    Host.Outcome State Fault Refusal :=
  match s.surveyOf n with
  | none => .next s
  | some v =>
    let w := v.op.desc.at 26 2
    .next (if w ≠ 0 ∧ v.op.desc.sf.toNat + 256 * w ≤ s.sf then s.surveyEnd v profile anoms true else s)

/-- Lanes of a capture (R614). -/
def captureLanes (d : Desc) : Nat := popCount 4 (bits d.arg0.toNat 5 2)

/-- Bytes of a sample set (R614). -/
def setBytes (d : Desc) : Nat := 64 * captureLanes d

/-- The ore bin die of a Mill die. -/
def binOf (m : Die) : Die := if m = .m1 then .b1 else .b0

/-- The capture slot of a carrier in its ore bin (R615). -/
def captureSlot (n : Nat) : Nat := 0x380000000 + n % 2 * 0x40000000

/-- Bits that the skew buffers of a Mill die need (R313): over its members in groups of two or more, T_W times T_M. -/
def State.skewNeed (s : State) (k : Side) (d : Die) : Nat :=
  ((List.range 4).map fun g =>
    let l := match k with
      | .live => s.rxMembers g
      | .staged => (groupMembers (s.rdOff .lgMembers .m0 g)).filter s.hasCarrier
    if l.length < 2 then 0 else
      ceilDiv (((l.filter fun n => millOf n == d).map fun n => rateT (s.at k .lrxM d (n % 2))).sum *
        s.at k .lgSkewMaxSf .m0 g * sfLen) (s.rq k * 250000)).sum

/-- Bytes that a capture to the host may stage in the skew SRAM (R615). -/
def State.stageRoom (s : State) (m : Die) : Nat :=
  if s.has (binOf m) then 2 ^ 24 else 2 ^ 24 - ceilDiv (s.skewNeed .live m) 8

/-- A destination that R615 rules out. -/
def State.captureNowhere (s : State) (d : Desc) (n : Nat) : Bool :=
  let len := d.at 24 8
  if bit d.arg0.toNat 6 then decide (s.stageRoom (millOf n) < len)
  else !s.has (binOf (millOf n)) || decide (2 ^ 30 < d.at 32 8 + len)

/-- The capture of a carrier. -/
def State.captureOf (s : State) (n : Nat) : Option Capture := s.captures.find? (·.n == n)

/-- CAPTURE (R5, R47, R55, R56, R614, R615). -/
def execCapture (d : Desc) (s : State) : Host.Outcome State Fault Refusal :=
  let t := d.mill
  let a := d.arg0.toNat
  let n := t.carrier
  let len := d.at 24 8
  let bad := dieTargetBad d || !t.isFace || decide (2 ≤ bits a 1 0) || a / 2 ^ 7 != 0 || captureLanes d == 0 || len == 0 ||
    decide (2 ^ 30 < len) || len % setBytes d != 0 || !d.clearFrom 40 || s.farAhead d.pos || s.captureNowhere d n ||
    (s.ringFor 7 3 n 0).isNone
  .next <| s.take 0x38 d bad fun s =>
    if (s.captureOf n).isSome then s.finish 0x38 d .retry
    else if s.passed d.pos then s.finish 0x38 d .late
    else s.onTarget 0x38 d t (if bits a 1 0 = 0 then Dom.convRx else Dom.convTx) fun s =>
      { s with captures := s.captures ++ [⟨n, ⟨0x38, d⟩, false, 0, d.pos, 0, 0, false⟩] }

/-- A capture replaced. -/
def State.setCapture (s : State) (c c' : Capture) : State := { s with captures := updateWhere (· == c) (fun _ => c') s.captures }

/-- CAPTURE_TRIGGER (R616). -/
def execCaptureTrigger (n : Fin 4) (phi : Fin 9) (s : State) : Host.Outcome State Fault Refusal :=
  match s.captureOf n with
  | none => .next s
  | some c =>
    if c.started || decide (s.tally < c.op.desc.pos) then .next s
    else .next (s.setCapture c { c with started := true, phi := phi })

/-- Captured bytes at their destination (R614, R615). -/
def State.captureStore (s : State) (c : Capture) (bytes : List Byte) : State :=
  let d := c.op.desc
  if bit d.arg0.toNat 6 then s.toHost (d.at 32 8 + c.bytes) bytes
  else
    let b := binOf (millOf c.n)
    match memShape b 0x20 with
    | none => s
    | some g =>
      if s.memUp b 0x20 then
        (s.writeWords b 0x20 g [] (bytes.length + 1) (captureSlot c.n + d.at 32 8 + c.bytes) bytes 0 false).1
      else s

/-- CAPTURE_SET (R30, R616): `drained` is what has left the FIFO since the last set. A set without room ends the capture. -/
def execCaptureSet (n : Fin 4) (bytes : List Byte) (drained : Nat) (s : State) : Host.Outcome State Fault Refusal :=
  match s.captureOf n with
  | none => .next s
  | some c =>
    let d := c.op.desc
    let k := setBytes d
    if !c.started || c.cut || decide (d.at 24 8 ≤ c.bytes) then .next s else
    let level := c.level - drained
    if 2 ^ 20 < level + k then
      .next ((s.setCapture c { c with level := level, cut := true }).raise Reason.captureShed (blkId (faceOf n)) (c.bytes / max 1 k))
    else
      .next ((s.captureStore c ((bytes ++ List.replicate k 0).take k)).setCapture c { c with level := level + k, bytes := c.bytes + k })

/-- The Capture ring entry (R617). -/
def Capture.entry (c : Capture) (phase : Nat) : List Byte :=
  let d := c.op.desc
  let a := d.arg0.toNat
  let last := c.first + ((c.bytes / max 1 (setBytes d) - 1) * 64 * 8 + c.phi) / 9
  let dest := if bit a 6 then d.at 32 8 else captureSlot c.n + d.at 32 8
  leBytes 1 1 ++ leBytes 1 (b2n c.cut + 128 * phase) ++ leBytes 2 (blkId (faceOf c.n)) ++ leBytes 8 (c.first / sfLen) ++
    leBytes 4 (c.first % sfLen) ++ leBytes 1 c.phi ++ leBytes 1 (bits a 5 2) ++ leBytes 1 (bits a 1 0) ++ leBytes 1 0 ++
    leBytes 8 c.bytes ++ leBytes 8 (last / sfLen) ++ leBytes 4 (last % sfLen) ++ leBytes 8 dest

/-- CAPTURE_DONE (R616, R617): the FIFO is empty; the ring entry is written before the completion. -/
def execCaptureDone (n : Fin 4) (s : State) : Host.Outcome State Fault Refusal :=
  match s.captureOf n with
  | none => .next s
  | some c =>
    if !c.started || !(c.cut || decide (c.op.desc.at 24 8 ≤ c.bytes)) then .next s else
    let stop (s : State) : State :=
      State.finishOp { s with captures := s.captures.erase c } c.op (if c.cut then .shed else .ok) (if c.cut then c.bytes else 0)
    match s.ringFor 7 3 n 0 with
    | none => .next (stop s)
    | some q =>
      if !s.on .pcieUp || !q.2.room then .next s
      else .next (stop (s.writeEntry q.1 q.2 false c.entry))

end Sys2Proof.Machine
end

