-- ==== Sys2Proof/Machine/Registers.lean ====
section
/-! DEFINITION. Host writes to registers (R14, R653 to R660): what a word's fields take, and what a write brings about at
once. Reads answered dead, the reads that reset a peak, and TABLE_LOAD's words (R493). -/

namespace Sys2Proof.Machine

/-- The state a row's meaning leads to: a write to a register with a row of its own has that row's effect. -/
def State.having (s : State) : Host.Outcome State Fault Refusal → State
  | .next t => t
  | .fault _ => s
  | .refused _ => s

/-- 0 for M0, 1 for M1. -/
def millFin (d : Die) : Fin 2 := if d = .m1 then 1 else 0

/-- The value that a written word gives a field. -/
def fieldIn (e : Fld × Nat × Nat) (val : Nat) : Nat := val / 2 ^ e.2.2 % 2 ^ e.1.row.width

/-- Fields whose write is carried out by their own effect alone (R470, R510). -/
def ownEffect (f : Fld) : Bool := [Fld.hostAdminEn, .cselLane, .cselSelEn].contains f

/-- A locked field (R658): bit 0 of the lock mask is key_limit_log2, bit 1 is surf_ppm. -/
def State.locked (s : State) (f : Fld) : Bool := bit (s.rd .lkLocked) (if f = .tallySurfPpm then 1 else 0)

/-- A write's part for one field, by its access code (R14, R658, R659). -/
def State.storeField (s : State) (d : Die) (off val : Nat) (e : Fld × Nat × Nat) : State :=
  let f := e.1
  let i := e.2.1
  let v := fieldIn e val
  match f.row.acc with
  | .rw => if ownEffect f then s else s.wr f d i v
  | .w1c => s.wr f d i (s.rd f d i - Nat.land (s.rd f d i) v)
  | .lk =>
    if !s.locked f then s.wr f d i v
    else if v = s.rd f d i then s else s.raise Reason.lockedWrite (f.block d i) off
  | .wo => if f = .tallySetSfLo then s.wr f d i v else s
  | .ro | .sh => s

/-- No transmitter is enabled (R89). -/
def State.noTransmitter (s : State) : Bool := (List.range 4).all fun n => !(s.hasCarrier n && s.on .dacTxEnable (faceOf n))

/-- A write of TALLY_SET_HI applies the new SF count, or is discarded with an event (R89, R90). A write of TALLY_SET_LO alone is
only kept; a tally set while it is stopped is also what the surface domain holds (assumption 59). -/
def State.tallySet (s : State) (hi : Nat) : State :=
  let new := s.rd .tallySetSfLo + 2 ^ 32 * hi
  if (s.on .tallyOriginLost || s.noTransmitter) && decide (s.sf < new) then
    let s := State.wrP { s with tally := new * sfLen + s.sfOff } .tallyOriginLost 0
    if s.tallyOn then s else s.wrs .m0 0 [(.surfHeldSf, new), (.surfEverHeld, 1)]
  else s.raiseField .tallySetSfHi .m0

/-- TALLY_SET (R89, R90). -/
def execTallySet (hi : BitVec 16) (s : State) : Host.Outcome State Fault Refusal := .next (s.tallySet hi.toNat)

/-- What a written trigger does (R41, R90, R190, R189, R239, R279, R293, R307, R315, R337, R355, R372, R440, R454, R461,
R464, R527, R584, R588, R606, R630, R660): the row of the command. -/
def State.trigger (s : State) (d : Die) (val : Nat) (e : Fld × Nat × Nat) : State :=
  let i := e.2.1
  let v := fieldIn e val
  let m := millFin d
  let c : Fin 2 := Fin.ofNat 2 i
  let o : Fin 512 := Fin.ofNat 512 i
  let l : Fin 24 := Fin.ofNat 24 i
  let whenOne (o : Host.Outcome State Fault Refusal) : State := if v = 1 then s.having o else s
  match e.1 with
  | .winzClearAll => whenOne (execWinzCntClr d (Fin.ofNat 4 i) s)
  | .accClearAll => if v = 1 then s.wrs .m0 0 [(.accPartialWrites, 0), (.accDeadAccesses, 0)] else s
  | .acqRestart => whenOne (execAcqRestart (Fin.ofNat 4 d.carrier) s)
  | .slipClearAll => whenOne (execSlipClr m c s)
  | .decClearAll => whenOne (execDecCntClr m c s)
  | .frmMsgTxData => s.having (execMsgTxWrite m c (BitVec.ofNat 8 v) s)
  | .frmClearAll => whenOne (execFrmCntClr m c s)
  | .lgRefRestart => whenOne (execRefRestart (Fin.ofNat 4 i) s)
  | .oduApsTxLevel => s.having (execApsTx m o (Fin.ofNat 8 v) s)
  | .oduClearAll => whenOne (execOduCntClr m o s)
  | .laneInjSingle => whenOne (execInjSingle m l s)
  | .laneInjBurst => whenOne (execInjBurst m l s)
  | .timPstep => s.having (execTimPstep (BitVec.ofNat 32 v) s)
  | .ppsRealign => whenOne (execPpsRealign (Fin.ofNat 4 i) s)
  | .clkRealign => whenOne (execClkRealign (Fin.ofNat 4 i) s)
  | .candWtrClear => whenOne (execWtrClear (Fin.ofNat 14 i) s)
  | .pwrLampClearAll => whenOne (execLampClear s)
  | .memCeFree => if v = 0 then s else s.having (execCeFree d (BitVec.ofNat 16 v) s)
  | .memCntClear => whenOne (execMemCntClear d s)
  | .auxCal => whenOne (execAuxCal d s)
  | .auxRegStart => whenOne (execRegStart d s)
  | .assayBatchGo => whenOne (execAssayBatch [] s)
  | .chipSvnCommit => whenOne (execSvnCommit s)
  | .tallySetSfHi => s.tallySet v
  | _ => s

/-- What a stored field brings about at once; `old` is the state before the write. -/
def State.written (s old : State) (d : Die) (val : Nat) (e : Fld × Nat × Nat) : State :=
  let f := e.1
  let i := e.2.1
  match f with
  | .dacOeTxdisForce => s.txdisUpdate d
  | .loopMode => s.biasMode d i
  | .biasCode => s.wr .biasHost d i (s.rd .biasCode d i)
  | .loopPushpull =>
    if s.rd .loopState d i = 1 ∧ s.rd f d i ≠ old.rd f d i then s.biasArms d i else s
  | .oduApsPersist =>
    if s.rd f d i = old.rd f d i then s else (List.range 8).foldl (fun s l => s.wr .apsRun d (i * 8 + l) 0) s
  | .oduTimAct => s.ctxUpdate 3 d i
  | .laneChkEn =>
    if !s.on f d i then s.wr .laneChkLock d i 0
    else if old.on f d i then s
    else
      let s := s.wrs d i [(.prbsErrs, 0), (.prbsBits, 0), (.laneChkLock, 0)]
      if s.on .laneBlockLock d i then s.having (execBlockLockLost (millFin d) (Fin.ofNat 24 i) s) else s
  | .pairSelForce => if s.on .pairEn d i && s.on .pairRoleActive d i then s.pairSelect d i else s
  | .hostAdminEn => s.adminEn (fieldIn e val == 1)
  | .cselLane => s.cselWrite i (val % 64) (bit val 6)
  | .auxRefEn => s.refWritten d
  | .tagSeed => s.wr .tagSeedPend d 0 1
  | _ => s

/-- The announced fields of a carrier's receive set refuse the host while they are staged (R76); a bias of a loop in
ACQUIRE or TRACK (R140); a generator or checker of an UP crosscut link (R373). The field that the event names. -/
def State.wordRefused (s : State) (d : Die) (val : Nat) (fs : List (Fld × Nat × Nat)) : Option (Fld × Nat) :=
  fs.findSome? fun e =>
    let i := e.2.1
    match e.1 with
    | .lrxEntH => if s.on .lrxAnnStaged d i then some (.lrxEntH, i) else none
    | .biasCode => if 2 ≤ s.rd .loopState d (i / 6) ∧ i < 12 then some (.biasCode, i) else none
    | .laneGenEn | .laneChkEn =>
      if fieldIn e val = 1 ∧ s.on .xcLinkUp d ∧ s.onLink d i then some (.laneGenEn, i) else none
    | _ => none

/-- A timing register of M1: its writes are discarded (R433). -/
def timingWord (fs : List (Fld × Nat × Nat)) : Bool :=
  fs.any fun e => [Blk.tim, .pps, .clk, .cand, .csel].contains e.1.row.blk

/-- A whole word written to a register (R14, R58, R653): its RW, W1C and LK fields, then its staged fields, then what the
write brings about, then its triggers. -/
def State.writeFields (s : State) (w : Window) (off val : Nat) (fs : List (Fld × Nat × Nat)) : State :=
  let d := w.store
  if d = .m1 ∧ timingWord fs then s else
  match s.wordRefused d val fs with
  | some e => s.raiseField e.1 d e.2
  | none =>
    let old := s
    let s := fs.foldl (fun s e => s.storeField d off val e) s
    let s := if fs.any fun e => e.1.row.acc = .sh then s.shWrite w off val else s
    let s := fs.foldl (fun s e => s.written old d val e) s
    let s := if timingWord fs then s.timWritten old else s
    fs.foldl (fun s e => s.trigger d val e) s

/-- A whole word written to a BAR0 address (R17, R505, R649 to R652). -/
def State.regWord (s : State) (addr val : Nat) : State :=
  match s.access addr with
  | .reserved => s
  | .blockOff b => s.deadAccess b (addr % 0x400000) true
  | .unreachable d => s.unreachableAccess d
  | .word w fs => s.writeFields w (addr % 0x400000) val fs

/-- Consecutive words in rising order, a last one written in part counted (R653). -/
def State.writeBytes (s : State) (addr : Nat) : List Byte → State
  | a :: b :: c :: d :: l => (s.regWord addr (leNat [a, b, c, d])).writeBytes (addr + 4) l
  | [] => s
  | _ => s.inc .accPartialWrites .m0

/-- The pages bound to a function, by die and then number (R430, R472). -/
def State.boundPages (s : State) (fn : Nat) : List (Die × Nat) :=
  [Die.m0, .m1].flatMap fun d => ((List.range 256).filter fun p => (s.pageFuncs d p).contains fn).map fun p => (d, p)

/-- The BAR0 address that an address in a virtual function's BAR0 stands for (R430, R472): its k-th bound page; none for its
control block, which is read-only, and beyond. -/
def State.vfAddr (s : State) (v addr : Nat) : Option Nat :=
  if 0x20000 ≤ addr then none
  else ((s.boundPages (v + 1))[addr / 0x100]?).map fun e =>
    0x400000 * (1 + b2n (e.1 == .m1)) + 0xE0000 + e.2 * 0x100 + addr % 0x100

/-- The bytes of a host write at a BAR0 address (R653). -/
def State.hostWrite (s : State) (addr : Nat) (data : List Byte) : State :=
  if addr % 4 ≠ 0 ∨ data.length < 4 then s.inc .accPartialWrites .m0 else s.writeBytes addr data

/-- Words of a VF's BAR0 (R430, R472). -/
def State.vfWrite (s : State) (v addr : Nat) : List Byte → State
  | a :: b :: c :: d :: l =>
    (match s.vfAddr v addr with
      | some x => s.regWord x (leNat [a, b, c, d])
      | none => s).vfWrite v (addr + 4) l
  | [] => s
  | _ => s.inc .accPartialWrites .m0

/-- The mask bit of a vector (R504): a message that waits is sent when it clears. -/
def State.maskVector (s : State) (fn vec : Nat) (masked : Bool) : State :=
  let s : State := { s with msixMasked := s.msixMasked.filter (· != (fn, vec)) }
  if masked then { s with msixMasked := s.msixMasked ++ [(fn, vec)] }
  else if s.msixWaiting.contains (fn, vec) then
    State.msix { s with msixWaiting := s.msixWaiting.filter (· != (fn, vec)) } fn vec
  else s

/-- REGISTER_WRITE (R14, R472, R473, R653). -/
def execRegisterWrite (tgt : WriteTarget) (data : List Byte) (s : State) : Host.Outcome State Fault Refusal :=
  match tgt with
  | .bar0 a => .next (s.hostWrite a.toNat data)
  | .vfBar0 v a => .next (if a.toNat % 4 ≠ 0 ∨ data.length < 4 then s.inc .accPartialWrites .m0 else s.vfWrite v a.toNat data)
  | .symbolRate => .next (s.shWrite .pkg symRateOff (leNat data))
  | .sriov => .next (if s.rd .numVfs = 0 ∧ leNat data ≤ 64 then s.wrP .numVfs (leNat data) else s)
  | .msixMask fn vec => .next (if vec < s.msixSize fn then s.maskVector fn vec (bit (leNat data) 0) else s)

/-- BLOCK_OFF_ACCESS (R5, R505, R649, R651, R652, R660). -/
def execBlockOffAccess (addr : BitVec 26) (write : Bool) (s : State) : Host.Outcome State Fault Refusal :=
  let a := addr.toNat / 4 * 4
  match s.access a with
  | .blockOff b => .next (if write then s.deadAccess b (a % 0x400000) true else s.deadRead b (a % 0x400000))
  | .reserved | .unreachable _ | .word _ _ => .next s

/-- DIE_UNREACHABLE_ACCESS (R17, R660). -/
def execDieUnreachableAccess (addr : BitVec 26) (write : Bool) (s : State) : Host.Outcome State Fault Refusal :=
  match s.access (addr.toNat / 4 * 4) with
  | .unreachable d => .next (if write then s.unreachableAccess d else s.unreachableRead d)
  | .reserved | .blockOff _ | .word _ _ => .next s

/-- REG_ACC_CLR (R660). -/
def execRegAccClr (s : State) : Host.Outcome State Fault Refusal :=
  .next (s.wrs .m0 0 [(.accPartialWrites, 0), (.accDeadAccesses, 0)])

/-- TEMP_PEAK_READ (R542, R655): the word, then the peak starts again at the present temperature. -/
def execTempPeakRead (t : Die) (s : State) : Host.Outcome State Fault Refusal :=
  if !s.has t then .next { s with readData := 0 }
  else .next { s.wr .pdieTempPeak .m0 t.code (s.rd .pdieTemp .m0 t.code) with
    readData := s.rd .pdieTemp .m0 t.code + 2 ^ 12 * s.rd .pdieTempPeak .m0 t.code }

/-- The die has a queue of this number (R603). -/
def Die.hasQueue (t : Die) (q : Nat) : Bool :=
  if t.isFace then decide (q ≤ 10) else if t.isMill then decide (q ≤ 18) else decide (q ≤ 4)

/-- QUEUE_HWM_READ (R603, R605, R655): `occ` and `peak` are the present occupancy and the highest since the last read. -/
def execQueueHwmRead (t : Die) (q : Fin 32) (occ peak : BitVec 16) (s : State) : Host.Outcome State Fault Refusal :=
  .next <| s.readReg t .queueOccupancy q fun s =>
    if !Die.hasQueue t q then (s, 0) else
    let high := max (s.rd .queueHwm t q) (max peak.toNat occ.toNat)
    (s.wrs t q [(.queueOccupancy, occ.toNat), (.queueHwm, occ.toNat)], occ.toNat + 2 ^ 16 * high)

/-- The words of a running load, at consecutive offsets (R493): the state, and how many a domain in Deep sleep or Off
discarded. -/
def State.loadWords (s : State) (addr n : Nat) : List Word → State × Nat
  | [] => (s, n)
  | w :: l =>
    let dead := match s.access addr with
      | .blockOff _ => 1
      | .reserved | .unreachable _ | .word _ _ => 0
    (s.regWord addr w.toNat).loadWords (addr + 4) (n + dead) l

/-- The base of a die's window in BAR0 (R649). -/
def Die.windowBase (d : Die) : Nat := 0x400000 * (if d.isFace then 4 + d.carrier else if d.isBin then 8 + b2n (d == .b1) else 1 + b2n (d == .m1))

/-- TABLE_LOAD (R5, R493): `words` is what host memory holds at the address of the descriptor. -/
def execTableLoad (d : Desc) (words : List Word) (s : State) : Host.Outcome State Fault Refusal :=
  let t := d.mill
  let off := d.arg0.toNat
  let n := d.at 32 2
  let bad := dieTargetBad d || decide (2 ^ 24 ≤ off) || off % 4 != 0 || n == 0 || decide (4096 < n) || decide (0x400000 < off + 4 * n) ||
    !d.clearFrom 34
  .next <| s.take 0x09 d bad fun s => s.onTarget 0x09 d t t.anchor fun s =>
    if s.on .viewFrozen t then s.finish 0x09 d .retry
    else
      let r := s.loadWords (Die.windowBase t + off) 0 ((words ++ List.replicate n 0).take n)
      { r.1 with loads := r.1.loads ++ [⟨⟨0x09, d⟩, t, r.2⟩] }

end Sys2Proof.Machine
end

