-- ==== Sys2Proof/Machine/Staged.lean ====
section
/-! DEFINITION. What makes a staged set invalid (R65 and the rules it gathers): each die answers for its own settings, M0
for the package's. -/

namespace Sys2Proof.Machine

/-- The greatest symbol rate of the speed grade, in quarters of a GBd (R6, R7). -/
def State.rqMax (s : State) : Nat := if s.on .chipSpeed200 then 800 else 1088

/-- The symbol rate M0 stages (R7). -/
def State.symRateBad (s : State) : Bool := decide (s.rq .staged < 256) || decide (s.rqMax < s.rq .staged)

/-- The sum of the absolute taps of a DAC lane (R115). -/
def State.tapSum (s : State) (d : Die) (l : Nat) : Nat :=
  ([Fld.dacPre2, .dacPre1, .dacMain, .dacPost1, .dacPost2].map fun f => (toInt 10 (s.rdOff f d l)).natAbs).sum

/-- The dispersion settings of a Face die (R154, R155, R198). -/
def State.cdBad (s : State) (d : Die) : Bool :=
  let mode := s.rdOff .cdcCdMode d
  let set := s.rdOff .cdcCdSet d
  let f := s.rdOff .cdcFft d
  let need := if mode = 2 then (toInt 16 set).natAbs else searchSpan mode set (s.rdOff .cdcCdSpan d)
  mode == 3 || (mode == 2 && decide (32000 < (toInt 16 set).natAbs)) || decide (5 ≤ f) ||
    (f != 0 && !fftCovers f need (s.rq .staged))

/-- A value outside a range. -/
def outside (lo hi v : Nat) : Bool := decide (v < lo) || decide (hi < v)

/-- The staged set of a Face die (R98, R115, R154, R155, R165, R166, R169, R176, R186, R197, R199, R236). -/
def State.faceBad (s : State) (d : Die) : Bool :=
  let v (f : Fld) : Nat := s.rdOff f d
  ((List.range 4).any fun l => outside 512 2048 (s.rdOff .lanecorrGain d l) || decide (1023 < s.tapSum d l)) ||
    s.cdBad d || decide (5 ≤ v .eqTaps) || decide (5 ≤ v .eqMu) || decide (5 ≤ v .rxSubcarriers) || v .crPilotWin % 2 == 0 ||
    decide (v .crLlrStep < 8) || outside 1 20 (v .rxRolloff) || outside 1860000 1962000 (v .rxCarrierFreq) || v .nlcFilt == 0 ||
    decide (5 ≤ v .txSubcarriers) || outside 1 20 (v .txRolloff) || outside 0x10 0x60 (v .txRms)

/-- The staged rates of a carrier (R205, R216, R221, R223, R226). -/
def State.carrierBad (s : State) (n : Nat) : Bool :=
  let d := millOf n
  let c := n % 2
  let v (f : Fld) : Nat := s.rdOff f d c
  rateInvalid (v .ltxAutoH == 1) (v .ltxEntH) (v .ltxClass) (v .ltxCode) (v .ltxM) (s.rq .staged) ||
    rateInvalid (v .lrxAutoH == 1) (v .lrxEntH) (v .lrxClass) (v .lrxCode) (v .lrxM) (s.rq .staged) ||
    (v .ltxClass == 0 && decide (2 ≤ s.rdOff .txPilotAmp (faceOf n))) ||
    (s.retunes n && s.commit.any fun c => c.target % 64 != 0)

/-- The slices of a carrier's group, of one side: group and slice number q of a local slice (R318). -/
def State.sliceAt (s : State) (k : Side) (n x : Nat) : Option (Nat × Nat) :=
  (s.txGroupOf k n).bind fun g => (findPos (· == (n, x)) (s.txSlices k g)).map fun q => (g, q)

/-- An occupied line slot that no slot of its carrier is (R227, R319), or whose slice the staged set moves to another member
(R306); occupancy is that of the staged map (assumption 26). -/
def State.slotBad (s : State) (t : Slot) : Bool :=
  let n := t.carrier
  !s.hasCarrier n || decide (s.txM .staged n < t.x % 24 * 20 + t.slot) ||
    match s.sliceAt .staged n t.x with
    | none => false
    | some (g, q) => ((s.txSlices .live g)[q]?).any (·.1 != n)

/-- The Ethernet rate of a port, as the slots of its ODUflex (R320, R361); 0 for none. -/
def ethSlots (width rate : Nat) : Nat :=
  match width, rate with
  | 8, 0 | 4, 1 | 2, 2 => 80
  | 8, 1 | 4, 2 => 160
  | 8, 2 => 320
  | _, _ => 0

/-- Lanes of a staged port. -/
def State.stagedWidth (s : State) (d : Die) (l : Nat) : Nat := 2 ^ s.rdOff .portWidth d l

/-- FlexO instances of a staged port (R362). -/
def State.stagedInstances (s : State) (d : Die) (l : Nat) : Nat :=
  if s.rdOff .portMode d l = 2 then s.stagedWidth d l * 2 ^ min 2 (s.rdOff .laneRate d l) / 2 else 0

/-- The FlexO port of a port-local slice of the staged set (R364). -/
def State.stagedFlexPort (s : State) (d : Die) (x : Nat) : Option Nat :=
  (List.range 24).find? fun l =>
    let b := ((List.range l).map (s.stagedInstances d)).sum
    decide (b ≤ x) && decide (x < b + s.stagedInstances d l)

/-- A staged port out of place, overlapping another, or of a combination outside the table (R361, R374). -/
def State.portBad (s : State) (d : Die) (l : Nat) : Bool :=
  let mode := s.rdOff .portMode d l
  if mode = 0 then false else
  let w := s.stagedWidth d l
  let r := s.rdOff .laneRate d l
  l % 12 % w != 0 || decide (12 < l % 12 + w) ||
    ((List.range 24).any fun k => k != l && s.rdOff .portMode d k != 0 && decide (l < k + s.stagedWidth d k) && decide (k < l + w)) ||
    ((List.range w).any fun k => s.rdOff .laneRate d (l + k) != r) ||
    (match mode with
      | 1 => ethSlots w r == 0
      | 2 => s.stagedInstances d l == 0
      | _ => w != 4 || decide (2 ≤ r))

/-- The staged crosscut lanes of a die (R374). -/
def State.stagedLink (s : State) (d : Die) : List Nat :=
  (List.range 24).filter fun l => s.rdOff .portMode d (l / 4 * 4) == 3

/-- The staged crosscut link of a die: mixed rates (R374), or enabled pairs above its capacity (R380, R381). -/
def State.linkBad (s : State) (d : Die) : Bool :=
  let lanes := s.stagedLink d
  let kb (l : Nat) : Nat := if s.rdOff .laneRate d l = 0 then 53125000 else 106250000
  let rates := ((List.range 32).map fun p => if s.rdOff .pairEn d p = 1 then s.oduRate .staged d (s.rdOff .pairCtx d p) else 0).sum
  (lanes.any fun l => lanes.any fun k => s.rdOff .laneRate d l != s.rdOff .laneRate d k) ||
    decide ((lanes.map kb).sum * (128 * 15296 * 10000) < rates * (130 * 16320 * 10001))

/-- Staged client lanes and ports of a Mill die (R361, R362, R374, R381). -/
def State.clientBad (s : State) (d : Die) : Bool :=
  ((List.range 24).any fun l => s.rdOff .laneRate d l == 3 || s.portBad d l) || s.linkBad d

/-- The contexts that the staged set of a die enables. -/
def State.stagedCtxs (s : State) (d : Die) : List Nat :=
  ((s.listed .staged .oduEnable).filter fun e => e.1 == d && e.2.2 == 1 && decide (e.2.1 < 512)).map (·.2.1)

/-- The 1.25 Gb/s slots a lower-order context occupies, as bits (R355). -/
def State.loSlots (s : State) (d : Die) (o : Nat) : Nat :=
  s.rdOff .oduLoTs0 d o + 2 ^ 32 * s.rdOff .oduLoTs1 d o + 2 ^ 64 * s.rdOff .oduLoTs2 d o

/-- The 1.25 Gb/s slots of a parent type (R320). -/
def parentSlots (type : Nat) : Nat := match type with | 2 => 8 | 4 => 32 | 5 => 80 | _ => 0

/-- Slots of an ODU of fixed size: in ODUCn (parent none), or in a parent of a type (R320); 0 for no such multiplexing. -/
def fixedSlots (type : Nat) (parent : Option Nat) : Nat :=
  match type, parent with
  | 2, none | 3, none => 2 | 4, none => 8 | 5, none => 20
  | 0, some 2 | 0, some 4 | 0, some 5 => 1
  | 1, some 2 | 1, some 4 | 1, some 5 => 2
  | 2, some 4 | 2, some 5 | 3, some 5 => 8 | 3, some 4 => 9 | 4, some 5 => 31
  | _, _ => 0

/-- A staged ts_count that R320 does not give the context (R320, R346); `parent` is the type of its parent. -/
def State.countBad (s : State) (d : Die) (o : Nat) (parent : Option Nat) : Bool :=
  let n := s.rdOff .oduTsCount d o
  match s.rdOff .oduType d o with
  | 6 => parent.isSome || !([80, 160, 320].contains n)
  | 7 => decide (n * (if parent.isSome then 130499 else 524089) < s.rdOff .oduFlexRate d o * 1000)
  | t => fixedSlots t parent == 0 || n != fixedSlots t parent

/-- A lower-order context whose parent does not take it (R320, R322). -/
def State.childBad (s : State) (d : Die) (o : Nat) (p : Die × Nat) : Bool :=
  let mine := s.loSlots d o
  let type := s.rdOff .oduType p.1 p.2
  s.rdOff .oduEnable p.1 p.2 != 1 || parentSlots type == 0 || s.rdOff .oduClientKind p.1 p.2 != 3 ||
    decide (2 ^ parentSlots type ≤ mine) || popCount 80 mine != s.rdOff .oduTsCount d o || s.countBad d o (some type) ||
    [Die.m0, .m1].any fun e => (s.stagedCtxs e).any fun q =>
      (e, q) != (d, o) && s.parentOf .staged e q == some p && Nat.land mine (s.loSlots e q) != 0

/-- Items of a list that are not all alike. -/
def mixed {α : Type} [DecidableEq α] : List α → Bool
  | [] => false
  | a :: l => l.any fun b => decide (a ≠ b)

/-- A staged context that is carried in ODUCn (R320, R322): its slots by number, line group and FlexO port. -/
def State.lineCtxBad (s : State) (line flex : List Slot) (d : Die) (o : Nat) : Bool :=
  let mine := line.filter fun t => t.names d o
  let fx := flex.filter fun t => t.names d o
  mine.length != s.rdOff .oduTsCount d o || (!fx.isEmpty && fx.length != s.rdOff .oduTsCount d o) || s.countBad d o none ||
    mixed (mine.map fun t => s.txGroupOf .staged t.carrier) || mixed (fx.map fun t => (t.die, s.stagedFlexPort t.die t.x))

/-- A staged context of a die (R320, R322, R333, R341). -/
def State.ctxBad (s : State) (line flex : List Slot) (d : Die) (o : Nat) : Bool :=
  let port := s.rdOff .oduClientPort d o
  decide (8 ≤ s.rdOff .oduType d o) || decide (3 ≤ s.rdOff .oduLb d o) ||
    ((List.range 6).any fun l => bits (s.rdOff .oduTcmMode d o) (2 * l + 1) (2 * l) == 3) ||
    (match s.parentOf .staged d o with
      | some p => s.childBad d o p
      | none => s.lineCtxBad line flex d o) ||
    (s.rdOff .oduType d o == 6 && (s.rdOff .portMode d port != 1 ||
      ethSlots (s.stagedWidth d port) (s.rdOff .laneRate d port) != s.rdOff .oduTsCount d o))

/-- A map entry names a context that may not stand in ODUCn (R322). -/
def State.entryBad (s : State) (t : Slot) : Bool :=
  decide (512 ≤ t.ctx) || s.rdOff .oduEnable t.ctxDie t.ctx != 1 || decide (s.rdOff .oduType t.ctxDie t.ctx < 2)

/-- The line groups of a stream's receive frames, staged (R417, R418). -/
def State.stagedStreamGroups (s : State) (line : List Slot) (d : Die) (i : Nat) : List Nat :=
  let o := s.rdOff .strmTarget d i
  if s.rdOff .strmTargetKind d i = 1 then [o % 4]
  else
    let up := s.carriersOfCtx .staged 3 d o
    ((line.filter fun t => up.any fun p => t.names p.1 p.2).filterMap fun t => s.txGroupOf .staged t.carrier).dedup

/-- A staged stream whose target lies inside another stream's target (R394), or a page whose receive streams lie in two line
groups (R418). -/
def State.streamBad (s : State) (line : List Slot) (d : Die) (i : Nat) : Bool :=
  let on_ (e : Die × Nat) : Bool := s.streamOn .staged e.1 e.2
  let others := (s.streams .staged).filter fun e => on_ e && e != (d, i)
  let o := s.rdOff .strmTarget d i
  let inside := s.rdOff .strmTargetKind d i == 0 && others.any fun e =>
    if s.rdOff .strmTargetKind e.1 e.2 = 1 then (s.stagedStreamGroups line d i).contains (s.rdOff .strmTarget e.1 e.2 % 4)
    else ((s.carriersOfCtx .staged 3 d o).drop 1).contains (e.1, s.rdOff .strmTarget e.1 e.2)
  let rx (j : Nat) : Bool := s.rdOff .strmRxEn d j == 1
  let page := ((s.pageStreams .staged d (s.rdOff .strmPage d i)).filter rx).flatMap (s.stagedStreamGroups line d)
  on_ (d, i) && (inside || (rx i && mixed page))

/-- The staged set of a Mill die. -/
def State.millBad (s : State) (d : Die) : Bool :=
  let line := s.lineSlots .staged
  let flex := s.flexSlots .staged
  ((Die.carriersOf d).any fun n => s.hasCarrier n && s.carrierBad n) || s.clientBad d ||
    (line.any fun t => t.die == d && (s.entryBad t || s.slotBad t)) || (flex.any fun t => t.die == d && s.entryBad t) ||
    ((s.stagedCtxs d).any fun o => s.ctxBad line flex d o) ||
    ((s.streams .staged).any fun e => e.1 == d && s.streamBad line d e.2)

/-- The present members of a staged group. -/
def State.stagedMembers (s : State) (g : Nat) : List Nat := s.txMembers .staged g

/-- T_W of a staged group exceeds what its dies can delay (R313). -/
def State.windowBad (s : State) (g : Nat) (d : Die) : Bool :=
  decide (s.rq .staged * 250000 * (if s.has (binOf d) then 50000 else 100) < s.rdOff .lgSkewMaxSf .m0 g * sfLen * 1000)

/-- A staged line group (R305, R313, R314, R341, R342, R652). -/
def State.groupBad (s : State) (g : Nat) : Bool :=
  let mem := s.stagedMembers g
  let raw := s.rdOff .lgMembers .m0 g
  let skew := s.rdOff .lgSkewMaxSf .m0 g
  let several := decide (2 ≤ mem.length)
  let m (f : Fld) (n : Nat) : Nat := s.rdOff f (millOf n) (n % 2)
  (raw != Fld.lgMembers.resetAt g && (List.range 4).any fun n => bit raw n && !s.hasCarrier n) ||
    (several && (mem.any fun n => m .ltxM n % 20 != 0 || m .lrxM n % 20 != 0)) ||
    (several && (skew == 0 || mem.any fun n => s.windowBad g (millOf n))) ||
    (mixed (mem.map millOf) && decide (skew < 4)) ||
    s.rdOff .lgLb .m0 g == 3 || (s.rdOff .lgLb .m0 g == 1 && mem.any fun n => m .ltxM n != m .lrxM n)

/-- Bits of a Mill die's skew buffer (R313). -/
def State.skewRoom (s : State) (d : Die) : Nat := if s.has (binOf d) then 64424509440 else 134217728

/-- The staged floors of a carrier (R541). -/
def State.floorBad (s : State) (n : Nat) : Bool :=
  let v (f : Fld) : Nat := s.rdOff f .m0 n
  decide (v .carStepMax < v .carNlFloor) || decide (32 < v .carStepMax) || v .carCapFloor == 0 || decide (v .carCapTarget < v .carCapFloor)

/-- Slots of ODUs between Mill dies: more than 4 Tb/s (R31). Each slot crosses once in each direction, toward the line and
from it. -/
def State.crossBad (s : State) : Bool :=
  decide (4000000000 < ((s.lineSlots .staged).filter fun t => t.die != t.ctxDie).length * 5240888)

/-- The package's staged set, judged by M0 (R7, R31, R304, R305, R313, R314, R541). -/
def State.packageBad (s : State) : Bool :=
  s.symRateBad || s.crossBad || ((List.range 4).any fun g => s.groupBad g) ||
    ((List.range 4).any fun n => s.hasCarrier n &&
      (s.floorBad n || ((List.range 4).filter fun g => (s.stagedMembers g).contains n).length != 1)) ||
    [Die.m0, .m1].any fun d => s.has d && decide (s.skewRoom d < s.skewNeed .staged d)

/-- A die finds its staged set invalid (R65). -/
def State.stagedInvalid (s : State) (d : Die) : Bool :=
  if d.isFace then s.faceBad d else if d.isMill then s.millBad d || (d == .m0 && s.packageBad) else false

end Sys2Proof.Machine
end

