-- ==== Sys2Proof/Machine/SwapEffects.lean ====
section
/-! DEFINITION. What the swaps of a shift change bring about beyond the settings themselves: announcements, key slots,
calibration, firmware banks, slots, pairs, acquisition and line groups. -/

namespace Sys2Proof.Machine

/-- A carrier announces the commit: it is retuned, or it transmits while the commit changes keys (R225, R228, R416). -/
def State.announces (s : State) (n : Nat) : Bool := s.retunes n || (s.keysChange && s.transmits n)

/-- The values of a rate as an announcement carries them (R229). -/
def LineRate.pack (r : LineRate) : Nat := r.h * 2 ^ 13 + r.cls * 2 ^ 11 + r.code * 2 ^ 9 + r.m

/-- The announcement of a carrier begins (R228, R229). -/
def State.announce (s : State) (n target : Nat) : State :=
  s.wrs (millOf n) (n % 2) [(.annTxState, 1), (.annTxRetune, b2n (s.retunes n)), (.annTxKey, b2n (s.keysChange && s.transmits n)),
    (.annTxTarget, target), (.annTxVals, (s.txRate .staged n).pack), (.ltxAnnouncing, 1)]

/-- Announcements that have started turn into CANCEL (R230). -/
def State.cancelAnnouncements (s : State) : State :=
  (List.range 4).foldl (fun s n =>
    if s.rd .annTxState (millOf n) (n % 2) = 1 then s.wr .annTxState (millOf n) (n % 2) 2 else s) s

/-- Every carrier that must announce the commit does (R228). -/
def State.announced (s : State) (c : Commit) : Bool :=
  (List.range 4).all fun n => !(c.dies.any (·.1 == millOf n) && s.announces n) ||
    (s.rd .annTxState (millOf n) (n % 2) == 1 && s.rd .annTxTarget (millOf n) (n % 2) == c.target)

/-- A page's TX slots swap (R401, R413, R414): a key being destroyed does not return; the count restarts with another key. -/
def State.swapTxSlots (s : State) (d : Die) (p : Nat) : State :=
  let s := if s.on .zeroPend d (p * 4 + slotTxOn) then s.destroyKey d p slotTxOn else s
  let same := s.key d p slotTxOn == s.key d p slotTxOff
  let s := s.swapSlots d p slotTxOn slotTxOff
  let s := if same || (s.key d p slotTxOn).isNone then s else s.wrs d p [(.pageTxCount, 0), (.pageOut, 0)]
  if (s.key d p slotTxOn).isNone then s
  else (s.pageStreams .live d p).foldl (fun s i => if 2 ≤ s.rd .strmTxState d i ∧ !s.on .pageOut d p then s.wr .strmTxState d i 1 else s) s

/-- A page's RX slots swap with the receive set (R413, R414). -/
def State.takeRxSlots (s : State) (d : Die) (p : Nat) : State :=
  let s := if s.on .zeroPend d (p * 4 + slotRxOn) then s.destroyKey d p slotRxOn else s
  s.swapSlots d p slotRxOn slotRxOff

/-- The line groups that a page's receive streams ride (R413, R417). -/
def State.pageGroups (s : State) (d : Die) (p : Nat) : List (Option Nat) :=
  (((s.pageStreams .live d p).filter fun i => s.on .strmRxEn d i).map fun i => s.streamGroup d i).dedup

/-- The key slots that swap with a Mill die's transmit settings: TX slots, and RX slots of pages without a receive stream in
a line group. -/
def State.swapKeys (s : State) (d : Die) : State :=
  (s.pages.filter (·.1 == d)).foldl (fun s e =>
    let s := s.swapTxSlots d e.2
    if s.on .pageKeyStaged d e.2 || (s.pageGroups d e.2).any (·.isSome) then s else s.takeRxSlots d e.2) s

/-- The directions of streams that the new set disables stop (R431). -/
def State.streamsFollow (s : State) (d : Die) : State :=
  ((s.streams .live).filter (·.1 == d)).foldl (fun s e =>
    let s := if s.on .strmTxEn d e.2 then s else s.wr .strmTxState d e.2 0
    if s.on .strmRxEn d e.2 then s else s.wrs d e.2 [(.strmRxState, 0), (.strmSeqLock, 0), (.rxGatherN, 0), (.rxBaseOk, 0)]) s

/-- The active roles of pairs that the commit enables or alters (R382, R385, R388); an owner that is enabled starts on its
line leg. -/
def State.pairsFollow (s old : State) (d : Die) : State :=
  (List.range 32).foldl (fun s p =>
    let was := old.on .pairEn d p
    let now := s.on .pairEn d p
    if now && (!was || s.rd .pairRole d p != old.rd .pairRole d p)
    then (if was then s else s.wr .pairSelLeg d p 0).pairRole d p (s.rd .pairRole d p) false else s) s

/-- dMSIM of parents whose lower-order slots the commit alters is held off (R345). -/
def State.holdParents (s old : State) (d : Die) : State :=
  ((s.listed .live .oduParentCtx).filter fun e => e.1 == d).foldl (fun s e =>
    let o := e.2.1
    if s.loSlots d o = old.loSlots d o ∧ s.parentOf .live d o = old.parentOf .live d o then s
    else ([s.parentOf .live d o, old.parentOf .live d o].filterMap id).foldl (fun s p => s.wr .msimHold p.1 p.2 1024) s) s

/-- The FlexO slots of contexts other than a switched ODUflex follow the committed map at once (R347). -/
def State.flexFollow (s : State) (d : Die) : State :=
  (s.flexSlots .live).foldl (fun s t =>
    if t.die = d ∧ s.rd .oduType t.ctxDie t.ctx ≠ 7 then s.wr .fmapUse d (t.x * 20 + t.slot - 1) (t.ctx + 1024 * b2n (t.ctxDie == .m1))
    else s) s

/-- The period in progress of each bias loop that runs is void: LE0 is interrupted (R141). -/
def State.loopsVoid (s : State) (d : Die) : State :=
  [0, 1].foldl (fun s p => if s.rd .loopState d p < 2 || s.on .biasWait d p then s else s.wr .biasVoid d p 1) s

/-- Staged firmware swaps banks with its die: the engines stop, and requests pending to them complete RETRY (R644). -/
def State.swapFirmware (s : State) (d : Die) : State :=
  (List.range 6).foldl (fun s c =>
    if !s.on .fwStaged d c then s else
    let mine (o : Op) : Bool := o.opcode == 0x33 && o.desc.mill == d && clusterOf d o.desc.dom == some c
    let s := (s.fwOps.filter mine).foldl (fun s o => s.finishOp o .retry) { s with fwOps := s.fwOps.filter (!mine ·) }
    let s := s.wrs d c [(.fwSvnLive, s.rd .fwBankSvn d c), (.fwBankSvn, s.rd .fwSvnLive d c), (.fwSvnRunning, s.rd .fwBankSvn d c),
      (.fwStaged, 0), (.fwSwapping, 1), (.fwRunning, 0)]
    if d.isFace ∧ c = 0 then s.loopsVoid d else s) s

/-- A symbol-rate change reaches the converters of every carrier (R107, R119, R194): the DACs pause, calibration runs, and
acquisition starts cold. -/
def State.rateChange (s : State) : State :=
  ((List.range 4).filter s.hasCarrier).foldl (fun s n =>
    let d := faceOf n
    let s := (s.fgBegin d).wrs d 0 [(.dacPause, 1), (.acqRateChange, 1)]
    let s := if s.domInReset d Dom.convRx then s else s.acqCold n
    if s.commit.any fun c => c.rxLeft.contains n then s else s.wr .farHasArr (millOf n) (n % 2) 0)
    { s with commit := s.commit.map fun c => { c with newRate := true } }

/-- What follows a Mill die's transmit swap. -/
def State.afterMillSwap (s old : State) (d : Die) : State :=
  let s := ((Die.carriersOf d).filter s.hasCarrier).foldl (fun s n =>
    let c := n % 2
    let s := if s.rd .annTxState d c = 1 ∧ s.on .annTxKey d c = true then s.wr .mymosKeyIdx d c (1 - s.rd .mymosKeyIdx d c) else s
    (s.wrs d c [(.annTxState, 0), (.ltxAnnouncing, 0)]).showTxRate n) s
  let s := ((s.swapKeys d).streamsFollow d).rebind
  let s := s.followMap .live .txMapCtx .txMapDie d fun i => !s.resizes .live .txMapCtx .txMapDie d i
  let s := (((s.pairsFollow old d).holdParents old d).flexFollow d).portsShow d
  let s := if s.rd .xcPartnerId d = old.rd .xcPartnerId d then s else s.wr .xcStatusOk d 0 0
  let s := (s.linkEval d).sliceShow (Die.carriersOf d)
  ((s.listed .live .oduEnable).filter fun e => e.1 == d && e.2.2 == 1).foldl (fun s e => s.ctxUpdate 3 d e.2.1) s

/-- What follows a die's transmit swap (R59, R63, R119, R124, R125, R644); `old` is the state before it. -/
def State.afterTxSwap (s old : State) (d : Die) : State :=
  let s := s.swapFirmware d
  let s := if d.isFace then
      s.txdisUpdate d
    else if d.isMill then s.afterMillSwap old d else s
  if d ≠ .m0 then s else
  let s := s.raiseFloors
  if s.rq = old.rq then s
  else ((List.range 4).filter s.hasCarrier).foldl (fun s n => s.showTxRate n) s.rateChange

/-- The receive slot map of a carrier follows its swap, resized slot sets at OMFI 0 (R345); a changed map holds dMSIM off. -/
def State.rxMapSwap (s : State) (n : Nat) : State :=
  let d := millOf n
  let k := s.rxMapSide d
  let mine (e : Die × Nat × Nat) : Bool := e.1 == d && e.2.1 / 480 == n % 2
  let is := (((s.listed k .lmapCtx ++ s.listed k .lmapDie ++ s.listed .live .rxMapCtx ++ s.listed .live .rxMapDie).filter mine).map (·.2.1)).dedup
  let changed := is.any fun i => s.at k .lmapCtx d i != s.rd .rxMapCtx d i || s.at k .lmapDie d i != s.rd .rxMapDie d i
  let s := (s.followMap k .rxMapCtx .rxMapDie d fun i => i / 480 == n % 2 && !s.resizes k .rxMapCtx .rxMapDie d i).wr .rxMapWait d (n % 2) 1
  match changed, s.groupOf n with
  | true, some g => s.wr .lgMsimHold .m0 g 1024
  | _, _ => s

/-- Where acquisition starts again after a receive swap (R172, R196). -/
def State.acqAfterSwap (s old : State) (n : Nat) : State :=
  let d := faceOf n
  let diff (l : List Fld) : Bool := l.any fun f => s.rd f d != old.rd f d
  if 4 ≤ s.acq n ∧ diff [.rxSubcarriers, .rxRolloff] then
    let s := s.acqTo n 4
    if old.acq n = 7 then s.trackEnd n else s
  else if s.acq n = 2 ∧ diff [.cdcCdMode, .cdcCdSet, .cdcCdSpan, .cdcFft] then s.scanStart n
  else if s.acq n = 4 ∧ diff [.eqTaps, .rxEqMode] then s.acqTo n 4
  else s

/-- What follows a carrier's receive swap (R150, R172, R196, R251, R345); `old` is the state before it. -/
def State.afterRxSwap (s old : State) (n : Nat) : State :=
  let m := millOf n
  let c := n % 2
  let s := if s.commit.any (·.newRate) then s.wr .farHasArr m c 0 else s
  let s := ((s.rxMapSwap n).acqAfterSwap old n).acqGate n
  let now := s.rxRate .live n
  let was := old.rxRate .live n
  let s := if (now.cls = was.cls ∧ now.code = was.code) ∨ !s.on .decChainRunning m c then s else s.chainStart n false
  (s.nlcUpdate n).groupShow n

/-- What follows a group's receive swap (R304, R309, R413, R683): the RX slots of its pages, and a new reference where its
members change. -/
def State.afterGroupSwap (s old : State) (g : Nat) : State :=
  let go (d : Die) : Bool := s.commit.any fun c => c.go.contains d
  let s := (s.pages.filter fun e => go e.1).foldl (fun s e =>
    if !s.on .pageKeyStaged e.1 e.2 && (s.pageGroups e.1 e.2).contains (some g) then s.takeRxSlots e.1 e.2 else s) s
  let was := old.rxMembers g
  let now := s.rxMembers g
  if was = now then s
  else
    let s := s.chooseRef g none
    let s := (List.range 4).foldl (fun s n =>
      if now.contains n then s
      else ((s.setMask .lgInService g n false).setMask .lgSkewDefect g n false).wrs .m0 (mem4 g n)
        [(.lgWas, 0), (.lgRun, 0), (.lgResume, 0), (.lgSigmaValid, 0)]) s
    (was ++ now).dedup.foldl (fun s n => s.groupShow n) s

end Sys2Proof.Machine
end

