-- ==== Sys2Proof/Machine/Shift.lean ====
section
/-! DEFINITION. Tally time and shift changes (R45 to R92): staging, the commit at M0 and on the dies, the swaps, the
reload, and the package tally's own commands. -/

namespace Sys2Proof.Machine

/-- The far SF at which a carrier takes its receive swap; none where it swaps at the local target (R71, R72, R74). -/
def State.rxTarget (s : State) (c : Commit) (n : Nat) : Option Nat :=
  if c.rx.getD n 0 ≠ 0 then some (c.rx.getD n 0)
  else if s.hasPrediction n then some (s.firstFarAfter n c.target) else none

/-- The receive targets named by a SHIFT_COMMIT (R490). -/
def Desc.rxTargets (d : Desc) : List Nat := [d.at 24 8, d.at 32 8, d.at 40 8, d.at 48 8]

/-- A receive target that M0 turns away (R65, R74). -/
def State.rxTargetBad (s : State) (target : Nat) (n far : Nat) : Bool :=
  far != 0 && (!s.hasCarrier n || !s.hasPrediction n || decide (s.farAfter n target + 2 ^ 16 < (far : Int)))

/-- What M0 checks when it takes a SHIFT_COMMIT, before lateness (R47, R65, R488). -/
def State.commitBad (s : State) (d : Desc) : Bool :=
  d.off != 0 || decide (s.sf + 2 ^ 26 < d.sf.toNat) ||
    ((Desc.rxTargets d).any fun r => decide (2 ^ 48 ≤ r)) ||
    ((List.range 4).any fun n => s.rxTargetBad d.sf.toNat n ((Desc.rxTargets d).getD n 0))

/-- A commit ends without effect: every die taking part is sent CANCEL, which overtakes a PREPARE not yet received,
announcements turn into CANCEL, and the completion carries the unchanged sequence number (R67, R70, R230). -/
def State.commitFail (s : State) (c : Commit) (st : Status) : State :=
  let s := c.dies.foldl (fun s p => s.wrs p.1 0 [(.prepareSent, 0), (.cancelSent, 1)])
    { s.cancelAnnouncements with commit := none }
  (s.wrP .shiftPending 0).finishOp c.op st

/-- M0 takes one commit (R64 to R66): refused, late, or PREPARE to every live die with their incarnations noted. -/
def State.commitTake (s : State) (o : Op) : State :=
  if s.commitBad o.desc then s.finishOp o .badDesc
  else if o.desc.sf.toNat ≤ s.sf + 4 then s.finishOp o .late
  else
    let dies := s.liveDies
    let s := dies.foldl (fun s d => (s.wr .shiftAnswer d 0 0).wr .prepareSent d 0 1) s
    { s.wrP .shiftPending 1 with
      commit := some { op := o, target := o.desc.sf.toNat, rx := Desc.rxTargets o.desc
                       dies := dies.map fun d => (d, s.rd .incarnation d 63)
                       replies := [], goSent := false, go := [], txLeft := [], rxLeft := [], grpLeft := [] } }

/-- After a commit ends, M0 takes those that wait, until one is under way (R64). -/
def State.nextCommits (s : State) : List Op → State
  | [] => { s with commitQ := [] }
  | o :: l => if s.commit.isSome then { s with commitQ := o :: l } else (s.commitTake o).nextCommits l

/-- SHIFT_COMMIT (R64 to R66): taken at once, or queued behind the commit under way. -/
def execShiftCommit (d : Desc) (s : State) : Host.Outcome State Fault Refusal :=
  .next <| s.take 0x08 d (d.target != 0 || d.arg0 != 0 || !d.clearFrom 56) fun s =>
    if s.commit.isSome then { s with commitQ := s.commitQ ++ [⟨0x08, d⟩] } else s.commitTake ⟨0x08, d⟩

/-- A die answers PREPARE: INVALID for a staged set a rule forbids, else ACCEPT and its off-shift copy freezes (R60,
R65). -/
def State.answerPrepare (s : State) (d : Die) : State :=
  let s := (s.wr .prepareSent d 0 0).wr .prepareHeld d 0 0
  if s.stagedInvalid d then s.wr .shiftAnswer d 0 2
  else (s.wr .shiftAnswer d 0 1).wr .viewFrozen d 0 1

/-- SHIFT_PREPARE (R60, R493): a die that runs a TABLE_LOAD answers after its last word. PREPARE comes to a die behind the
CANCEL of the commit before it, and behind the reload that a completed commit leaves to it (R59). -/
def execShiftPrepare (d : Die) (s : State) : Host.Outcome State Fault Refusal :=
  if !s.on .prepareSent d || !s.live d || s.on .cancelSent d || s.on .reloadDue d then .next s
  else if s.loads.any fun o => o.die == d then .next (s.wr .prepareHeld d 0 1)
  else .next (s.answerPrepare d)

/-- A die of the commit has changed incarnation since PREPARE (R68). -/
def State.incChanged (s : State) (c : Commit) : Bool := c.dies.any fun p => s.rd .incarnation p.1 63 != p.2

/-- M0 judges a commit (R66 to R69): any INVALID, then a changed incarnation, ends it as soon as every die has replied or
the deadline has come; a missing reply ends it at the deadline; otherwise the go-ahead leaves at the deadline. -/
def State.judgeCommit (s : State) (c : Commit) : State :=
  let all := c.dies.all fun p => c.replies.any (·.1 == p.1)
  let due := decide (c.target ≤ s.sf + 4)
  if !all && !due then s
  else if c.replies.any (!·.2) then s.commitFail c .badDesc |>.nextCommits s.commitQ
  else if s.incChanged c then s.commitFail c .resetAborted |>.nextCommits s.commitQ
  else if !all then s.commitFail c .late |>.nextCommits s.commitQ
  else if !due then s
  else
    if !s.announced c then s.commitFail c .late |>.nextCommits s.commitQ
    else
      let ds := (c.dies.map (·.1)).filter fun d => s.live d && !c.lost.contains d
      let left := (List.range 4).filter fun n => s.hasCarrier n && (ds.contains (millOf n) || ds.contains (faceOf n))
      { s with commit := some { c with
          goSent := true, txLeft := ds
          rx := (List.range 4).map fun n => (s.rxTarget c n).getD 0
          rxLeft := left
          grpLeft := (List.range 4)
          predict := left.filter fun n => !s.on .farValid (millOf n) (n % 2) } }

/-- SHIFT_ACCEPT (R66): a die's answer to PREPARE reaches M0; one that comes at or after (target − 4):0 is too late. -/
def execShiftAccept (d : Die) (s : State) : Host.Outcome State Fault Refusal :=
  match s.commit with
  | none => .next (s.wr .shiftAnswer d 0 0)
  | some c =>
    if s.rd .shiftAnswer d = 0 || c.goSent || !(c.dies.any (·.1 == d)) || !s.reach d then .next s else
    let c' := if s.sf + 4 < c.target then { c with replies := c.replies ++ [(d, s.rd .shiftAnswer d == 1)] } else c
    .next (State.judgeCommit { s.wr .shiftAnswer d 0 0 with commit := some c' } c')

/-- COMMIT_DEADLINE (R66 to R69): at (target − 4):0 the go-ahead leaves, or the commit ends. -/
def execCommitDeadline (s : State) : Host.Outcome State Fault Refusal :=
  match s.commit with
  | none => .next s
  | some c => if c.goSent || s.sf + 4 < c.target then .next s else .next (s.judgeCommit c)

/-- GO_AHEAD (R69): a die that accepted receives the go-ahead. -/
def execGoAhead (d : Die) (s : State) : Host.Outcome State Fault Refusal :=
  match s.commit with
  | none => .next s
  | some c =>
    if c.goSent && s.live d && c.txLeft.contains d && !c.go.contains d
    then .next { s with commit := some { c with go := c.go ++ [d] } } else .next s

/-- SHIFT_CANCEL (R67): the die unfreezes; its off-shift copy, with the held writes, stays staged. -/
def execShiftCancel (d : Die) (s : State) : Host.Outcome State Fault Refusal :=
  if !s.on .cancelSent d then .next s
  else .next ((s.wrs d 0 [(.cancelSent, 0), (.prepareHeld, 0)]).applyHeld d)

/-- With which part of a shift change a key's field swaps. -/
def keyClass (k : Nat) : SwapClass := (fldRowAt (keyFld k)).cls

/-- The staged copies that pass change places with the live ones (R59). -/
def State.swapWhere (s : State) (p : Nat → Bool) : State :=
  (s.offs.filter fun e => p e.1).foldl (fun s e =>
    { s with regs := Cells.set resetOfKey e.1 e.2 s.regs
             offs := Cells.put e.1 (Cells.get resetOfKey e.1 s.regs) s.offs }) s

/-- TX_SWAP (R57, R59): at the target SF boundary the die's transmit and package settings swap. -/
def execTxSwap (d : Die) (s : State) : Host.Outcome State Fault Refusal :=
  match s.commit with
  | none => .next s
  | some c =>
    if !(c.go.contains d && c.txLeft.contains d && decide (c.target ≤ s.sf)) then .next s else
    let t := (s.swapWhere fun k => keyDie k == d.code && keyClass k == .pkg).wr .dieSeq d 0 (s.rd .shiftSeq + 1)
    let t := t.afterTxSwap s d
    .next { t with commit := t.commit.map fun c => { c with txLeft := c.txLeft.filter (· != d) } }

/-- The receive settings of a carrier swap on the dies that hold the go-ahead (R71). A retune the far end announced stays
staged, and stands where it is due at this far SF (R76). -/
def State.swapRx (s : State) (c : Commit) (n : Nat) : State :=
  let t := (if s.on .lrxAnnStaged (millOf n) (n % 2) then s.liftStaging n else s).swapWhere fun k => keyClass k == .rx &&
    ((c.go.contains (faceOf n) && keyDie k == (faceOf n).code) ||
      (c.go.contains (millOf n) && keyDie k == (millOf n).code && keyInst k == n % 2))
  { (t.afterRxSwap s n).applyStaging n with commit := some { c with rxLeft := c.rxLeft.filter (· != n) } }

/-- A carrier's receive swap is to come, and each of its dies that takes part holds the go-ahead (R69). -/
def Commit.rxReady (c : Commit) (n : Nat) : Bool :=
  c.goSent && c.rxLeft.contains n && [faceOf n, millOf n].all fun d => !c.txLeft.contains d || c.go.contains d

/-- RX_SWAP (R71, R73, R75): the named far SF has reached the carrier; a far tally that jumped past it swaps at its next
boundary, and rx_swap_jumped sets. A target that lay before the last far SF recorded at the go-ahead swaps so too
(assumption 56). -/
def execRxSwap (n : Fin 4) (s : State) : Host.Outcome State Fault Refusal :=
  match s.commit with
  | none => .next s
  | some c =>
    let m := millOf n
    let far := s.rd .farLiveSf m (n % 2)
    let t := c.rx.getD n 0
    let jumped := c.jumped.contains n.val
    if !(c.rxReady n && t != 0 && (jumped || (!c.predict.contains n.val && decide (t ≤ far)))) then .next s
    else .next ((if jumped || decide (t < far) then s.wr .farRxSwapJumped m (n % 2) 1 else s).swapRx c n)

/-- PREDICTED_RX_SWAP (R73, R74): without a valid far tally the swap falls at the predicted position, or at the local
target where the carrier has no prediction. -/
def execPredictedRxSwap (n : Fin 4) (s : State) : Host.Outcome State Fault Refusal :=
  match s.commit with
  | none => .next s
  | some c =>
    let m := millOf n
    let t := c.rx.getD n 0
    let due := if t ≠ 0 ∧ s.hasPrediction n then s.predictedAt n t else c.target * sfLen
    if !(c.rxReady n && (c.predict.contains n.val || t == 0) && decide (due ≤ s.tally)) then .next s
    else .next ((s.wr .farRxSwapPredicted m (n % 2) 1).swapRx c n)

/-- The receive part of a group's live fields after its swap: the receive copy of members follows (R683). -/
def State.swapGroupRx (s : State) (g : Nat) : State :=
  let s := s.swapWhere fun k => keyDie k == 0 && keyClass k == .lg && keyInst k == g
  s.wr .lgRxMembers .m0 g (s.rd .lgMembers .m0 g)

/-- GROUP_RX_SWAP (R683): once every member has taken its receive swap, the group's receive part swaps at far SF r_G. -/
def execGroupRxSwap (g : Fin 4) (s : State) : Host.Outcome State Fault Refusal :=
  match s.commit with
  | none => .next s
  | some c =>
    let mem := s.rd .lgMembers .m0 g
    let left := (List.range 4).any fun n => bit mem n && c.rxLeft.contains n
    if !(c.go.contains .m0 && c.grpLeft.contains g.val && !c.txLeft.contains .m0 && !left) then .next s
    else .next { (s.swapGroupRx g).afterGroupSwap s g with commit := some { c with grpLeft := c.grpLeft.filter (· != g.val) } }

/-- A die's last swap of the commit is done: its own, its carriers', and for M0 every group's (R59, R683). -/
def Commit.doneOn (c : Commit) (d : Die) : Bool :=
  c.go.contains d && !c.txLeft.contains d && (Die.carriersOf d).all (!c.rxLeft.contains ·) && (d != .m0 || c.grpLeft.isEmpty)

/-- OFFSHIFT_RELOAD (R59, R60, R78): once the die's last swap of the commit is done; a die that took part is stale no
longer. -/
def execOffshiftReload (d : Die) (s : State) : Host.Outcome State Fault Refusal :=
  if !(s.on .viewFrozen d && (s.on .reloadDue d || s.commit.any fun c => c.doneOn d)) then .next s
  else
    let s := (s.reload d).wr .viewStale d 0 0
    .next ((s.gates d).sliceShow (if d.isMill then Die.carriersOf d else []))

/-- The dies that hold the go-ahead of a completed commit and have not reloaded will (R59); a live die that took no part does
not match the new sequence number and is stale (R78, R79). -/
def State.settleDies (s : State) (go : List Die) : State :=
  let s := go.foldl (fun s d => s.wr .reloadDue d 0 (s.rd .viewFrozen d)) s
  s.returnDies (Die.all.filter (!go.contains ·))

/-- SHIFT_COMMIT_DONE (R64, R70): after the last swap the sequence advances, the completion carries it and the swap SF, and
the next commit is taken. -/
def execShiftCommitDone (s : State) : Host.Outcome State Fault Refusal :=
  match s.commit with
  | none => .next s
  | some c =>
    if !(c.goSent && c.txLeft.isEmpty && c.rxLeft.isEmpty && c.grpLeft.isEmpty) then .next s else
    let s := State.wrP { s with commit := none } .shiftSeq (s.rd .shiftSeq + 1)
    let s := (s.wrP .shiftPending 0).finishOp c.op .ok (s.rd .shiftSeq + 2 ^ 32 * (c.target % 2 ^ 32))
    .next ((s.settleDies c.go).nextCommits s.commitQ)

/-- ANNOUNCE_START (R228, R229, R416): at the first SF boundary after the Mill die accepted; fewer than 64 SF before the
target the commit completes LATE. While CANCEL of an earlier announcement is sent, the carrier waits (assumption 27). -/
def execAnnounceStart (n : Fin 4) (s : State) : Host.Outcome State Fault Refusal :=
  let d := millOf n
  match s.commit with
  | none => .next s
  | some c =>
    if c.goSent || !(c.dies.any (·.1 == d)) || !s.on .viewFrozen d || !s.announces n || s.rd .annTxState d (n % 2) != 0 then .next s
    else if s.sf + 64 ≤ c.target then .next (s.announce n c.target)
    else .next ((s.commitFail c .late).nextCommits s.commitQ)

/-- ANNOUNCE_CANCEL_END (R230). -/
def execAnnounceCancelEnd (n : Fin 4) (s : State) : Host.Outcome State Fault Refusal :=
  let d := millOf n
  let c := n.val % 2
  if s.rd .annTxState d c = 2 ∧ s.rd .annTxTarget d c ≤ s.sf then
    .next (s.wrs d c [(.annTxState, 0), (.ltxAnnouncing, 0), (.ltxRetuneCancelled, 1)])
  else .next s

/-- TABLE_LOAD_DONE (R60, R493): the last word is written; a die that held PREPARE for it answers. -/
def execTableLoadDone (t : Die) (s : State) : Host.Outcome State Fault Refusal :=
  match s.loads.find? fun l => l.die == t with
  | none => .next s
  | some l =>
    let s := State.finishOp { s with loads := s.loads.erase l } l.op .ok (l.discarded % 2 ^ 16)
    .next (if s.on .prepareHeld t && !(s.loads.any fun l => l.die == t) then s.answerPrepare t else s)

/-- SURF_CLK_LOST (R86): the surface domain counts its internal oscillator from now on, until it loses power (assumption
57). -/
def execSurfClkLost (s : State) : Host.Outcome State Fault Refusal :=
  .next ((s.wrP .tallySurfClkLost 1).wrP .surfOsc 1)

/-- TALLY_SNAP_READ (R90, R655): reading TALLY_SNAP_OFF latches the whole tally and returns its offset. -/
def execTallySnapRead (s : State) : Host.Outcome State Fault Refusal :=
  .next { (s.wr48 .tallySnapSfLo .tallySnapSfHi .m0 0 s.sf).wrP .tallySnapOff s.sfOff with readData := s.sfOff }

/-- FAR_SF_READ (R92, R655): reading FAR_SF_LO latches the carrier's block and returns the far SF's low word. FAR_STS, whose
flags are cleared by the host, is not latched (assumption 58). -/
def execFarSfRead (m : Fin 2) (c : Fin 2) (s : State) : Host.Outcome State Fault Refusal :=
  let d := millAt m
  match s.dieAccess d (Fld.offsetAt .farSfLo c) with
  | .word _ _ =>
    let sf := s.rd .farLiveSf d c
    let a := s.rd .farLiveArr d c
    let s := ((s.wr48 .farSfLo .farSfHi d c sf).wr48 .farArrSfLo .farArrSfHi d c (a / sfLen)).wr .farArrOffset d c (a % sfLen)
    .next { s with readData := sf % 2 ^ 32 }
  | .reserved => .next { s with readData := 0 }
  | .blockOff b => .next (s.deadRead b (Fld.offsetAt .farSfLo c))
  | .unreachable d => .next (s.unreachableRead d)

end Sys2Proof.Machine
end

