-- ==== Sys2Proof/Machine/Dispatch.lean ====
section
/-! DEFINITION. Which meaning each command has: one arm per constructor, each a direct call. -/

namespace Sys2Proof.Machine

def exec (i : Instr) (s : State) : Host.Outcome State Fault Refusal :=
  match i with
  | .blockOffAccess addr write => Sys2Proof.Machine.execBlockOffAccess addr write s
  | .dieUnreachableAccess addr write => Sys2Proof.Machine.execDieUnreachableAccess addr write s
  | .registerWrite tgt data => Sys2Proof.Machine.execRegisterWrite tgt data s
  | .winzCrcError d port lane => Sys2Proof.Machine.execWinzCrcError d port lane s
  | .linkDown d port => Sys2Proof.Machine.execLinkDown d port s
  | .linkRetrainDone d port => Sys2Proof.Machine.execLinkRetrainDone d port s
  | .staleReply d port incarnation ring slot => Sys2Proof.Machine.execStaleReply d port incarnation ring slot s
  | .winzCntClr d port => Sys2Proof.Machine.execWinzCntClr d port s
  | .txLineFrame n frames => Sys2Proof.Machine.execTxLineFrame n frames s
  | .farSfArrival n => Sys2Proof.Machine.execFarSfArrival n s
  | .sfOverheadReceived n oh => Sys2Proof.Machine.execSfOverheadReceived n oh s
  | .shiftCommit d => Sys2Proof.Machine.execShiftCommit d s
  | .shiftPrepare d => Sys2Proof.Machine.execShiftPrepare d s
  | .shiftAccept d => Sys2Proof.Machine.execShiftAccept d s
  | .commitDeadline => Sys2Proof.Machine.execCommitDeadline s
  | .goAhead d => Sys2Proof.Machine.execGoAhead d s
  | .shiftCancel d => Sys2Proof.Machine.execShiftCancel d s
  | .txSwap d => Sys2Proof.Machine.execTxSwap d s
  | .rxSwap n => Sys2Proof.Machine.execRxSwap n s
  | .predictedRxSwap n => Sys2Proof.Machine.execPredictedRxSwap n s
  | .groupRxSwap g => Sys2Proof.Machine.execGroupRxSwap g s
  | .offshiftReload d => Sys2Proof.Machine.execOffshiftReload d s
  | .shiftCommitDone => Sys2Proof.Machine.execShiftCommitDone s
  | .surfClkLost => Sys2Proof.Machine.execSurfClkLost s
  | .tallySet hi => Sys2Proof.Machine.execTallySet hi s
  | .calWindowEnd n a inRange => Sys2Proof.Machine.execCalWindowEnd n a inRange s
  | .adcOverrange n a unit => Sys2Proof.Machine.execAdcOverrange n a unit s
  | .foregroundCalDone n => Sys2Proof.Machine.execForegroundCalDone n s
  | .tiaGainDown n a => Sys2Proof.Machine.execTiaGainDown n a s
  | .tiaHoldoffEnd n a => Sys2Proof.Machine.execTiaHoldoffEnd n a s
  | .tiaGainUp n a => Sys2Proof.Machine.execTiaGainUp n a s
  | .spiTransactionStart n => Sys2Proof.Machine.execSpiTransactionStart n s
  | .spiTransactionDone n miso => Sys2Proof.Machine.execSpiTransactionDone n miso s
  | .powerTrim n => Sys2Proof.Machine.execPowerTrim n s
  | .sitePresenceChange n present => Sys2Proof.Machine.execSitePresenceChange n present s
  | .oeFault n => Sys2Proof.Machine.execOeFault n s
  | .txdisRelease n => Sys2Proof.Machine.execTxdisRelease n s
  | .biasChipBoundary n p => Sys2Proof.Machine.execBiasChipBoundary n p s
  | .signalDetected n => Sys2Proof.Machine.execSignalDetected n s
  | .cdScanDone n cdEst => Sys2Proof.Machine.execCdScanDone n cdEst s
  | .freqAcqDone n offset => Sys2Proof.Machine.execFreqAcqDone n offset s
  | .eqConverged n rateDiff => Sys2Proof.Machine.execEqConverged n rateDiff s
  | .trainLockDone n farSub farRolloff => Sys2Proof.Machine.execTrainLockDone n farSub farRolloff s
  | .phaseLockDone n => Sys2Proof.Machine.execPhaseLockDone n s
  | .acqFail n => Sys2Proof.Machine.execAcqFail n s
  | .losSet n => Sys2Proof.Machine.execLosSet n s
  | .losClear n => Sys2Proof.Machine.execLosClear n s
  | .acqRestart n => Sys2Proof.Machine.execAcqRestart n s
  | .rxLockLost n cause => Sys2Proof.Machine.execRxLockLost n cause s
  | .cdEstUpdate n residual => Sys2Proof.Machine.execCdEstUpdate n residual s
  | .slipCandidate n pol sub jump start => Sys2Proof.Machine.execSlipCandidate n pol sub jump start s
  | .pilotCheck n pol sub err dist sf pilot => Sys2Proof.Machine.execPilotCheck n pol sub err dist sf pilot s
  | .slipRecord n => Sys2Proof.Machine.execSlipRecord n s
  | .announceStart n => Sys2Proof.Machine.execAnnounceStart n s
  | .announceCancelEnd n => Sys2Proof.Machine.execAnnounceCancelEnd n s
  | .fecPhaseWindow n => Sys2Proof.Machine.execFecPhaseWindow n s
  | .positionComplete n sf j syms first => Sys2Proof.Machine.execPositionComplete n sf j syms first s
  | .positionDispatch m engine => Sys2Proof.Machine.execPositionDispatch m engine s
  | .iterationEnd m engine misreport => Sys2Proof.Machine.execIterationEnd m engine misreport s
  | .positionRelease n => Sys2Proof.Machine.execPositionRelease n s
  | .otTokenReload m => Sys2Proof.Machine.execOtTokenReload m s
  | .katTest m answer => Sys2Proof.Machine.execKatTest m answer s
  | .msgTxWrite m c byte => Sys2Proof.Machine.execMsgTxWrite m c byte s
  | .msgRxRead m c => Sys2Proof.Machine.execMsgRxRead m c s
  | .shapeSweepWindow n => Sys2Proof.Machine.execShapeSweepWindow n s
  | .frameHunt n lf looks => Sys2Proof.Machine.execFrameHunt n lf looks s
  | .mymosSync n finals => Sys2Proof.Machine.execMymosSync n finals s
  | .mymosLof n cause => Sys2Proof.Machine.execMymosLof n cause s
  | .shapeUnlock n => Sys2Proof.Machine.execShapeUnlock n s
  | .memberIn n => Sys2Proof.Machine.execMemberIn n s
  | .groupRelease g => Sys2Proof.Machine.execGroupRelease g s
  | .releasePositionMsg g => Sys2Proof.Machine.execReleasePositionMsg g s
  | .refClear g => Sys2Proof.Machine.execRefClear g s
  | .refRestart g => Sys2Proof.Machine.execRefRestart g s
  | .otnFrameReceived m layer mfas omfi oh bip psi impLost gmp farSf => Sys2Proof.Machine.execOtnFrameReceived m layer mfas omfi oh bip psi impLost gmp farSf s
  | .otnFrameTransmit m layer mfas omfi gen entry client => Sys2Proof.Machine.execOtnFrameTransmit m layer mfas omfi gen entry client s
  | .ethBlockReceived m o kind taken => Sys2Proof.Machine.execEthBlockReceived m o kind taken s
  | .apsTx m o level => Sys2Proof.Machine.execApsTx m o level s
  | .lcrHandshake m o slots => Sys2Proof.Machine.execLcrHandshake m o slots s
  | .cdrLockChange m l locked ppm => Sys2Proof.Machine.execCdrLockChange m l locked ppm s
  | .laneTrained m l => Sys2Proof.Machine.execLaneTrained m l s
  | .laneTrainFail m l => Sys2Proof.Machine.execLaneTrainFail m l s
  | .laneRetrain m l => Sys2Proof.Machine.execLaneRetrain m l s
  | .prbsLock m l => Sys2Proof.Machine.execPrbsLock m l s
  | .prbsLockLost m l errs nbits => Sys2Proof.Machine.execPrbsLockLost m l errs nbits s
  | .injSingle m l => Sys2Proof.Machine.execInjSingle m l s
  | .injBurst m l => Sys2Proof.Machine.execInjBurst m l s
  | .injDone m l => Sys2Proof.Machine.execInjDone m l s
  | .prbsErrRead m l errs nbits => Sys2Proof.Machine.execPrbsErrRead m l errs nbits s
  | .blockLock m l => Sys2Proof.Machine.execBlockLock m l s
  | .blockLockLost m l => Sys2Proof.Machine.execBlockLockLost m l s
  | .alignBlock m l pos skew => Sys2Proof.Machine.execAlignBlock m l pos skew s
  | .statusBlock m id ql tstate => Sys2Proof.Machine.execStatusBlock m id ql tstate s
  | .timeBlock m id count tstate => Sys2Proof.Machine.execTimeBlock m id count tstate s
  | .coordBlock m p owner take leg seq ack => Sys2Proof.Machine.execCoordBlock m p owner take leg seq ack s
  | .badCtrl m => Sys2Proof.Machine.execBadCtrl m s
  | .xcDataBlock m p sof bytes => Sys2Proof.Machine.execXcDataBlock m p sof bytes s
  | .xcTimeSend m => Sys2Proof.Machine.execXcTimeSend m s
  | .xcStatusSend m => Sys2Proof.Machine.execXcStatusSend m s
  | .xcCoordSend m p => Sys2Proof.Machine.execXcCoordSend m p s
  | .xcPartnerLost m => Sys2Proof.Machine.execXcPartnerLost m s
  | .kekLoad d => Sys2Proof.Machine.execKekLoad d s
  | .keyLoad d => Sys2Proof.Machine.execKeyLoad d s
  | .keyUnwrapDone m agree => Sys2Proof.Machine.execKeyUnwrapDone m agree s
  | .keyZero d => Sys2Proof.Machine.execKeyZero d s
  | .keyDestroy m page => Sys2Proof.Machine.execKeyDestroy m page s
  | .pageBind d => Sys2Proof.Machine.execPageBind d s
  | .pageUnbind d => Sys2Proof.Machine.execPageUnbind d s
  | .streamBind d => Sys2Proof.Machine.execStreamBind d s
  | .streamStart d => Sys2Proof.Machine.execStreamStart d s
  | .streamStop d => Sys2Proof.Machine.execStreamStop d s
  | .laEncrypt d => Sys2Proof.Machine.execLaEncrypt d s
  | .laDecrypt d => Sys2Proof.Machine.execLaDecrypt d s
  | .lookasideDone ring src agree pipe => Sys2Proof.Machine.execLookasideDone ring src agree pipe s
  | .encryptFrame m stream mfas data agree pipe => Sys2Proof.Machine.execEncryptFrame m stream mfas data agree pipe s
  | .decryptFrame m stream mfas coh data agree pipe => Sys2Proof.Machine.execDecryptFrame m stream mfas coh data agree pipe s
  | .rxKeySwap m page => Sys2Proof.Machine.execRxKeySwap m page s
  | .txFramesRead m page => Sys2Proof.Machine.execTxFramesRead m page s
  | .seqRead m stream => Sys2Proof.Machine.execSeqRead m stream s
  | .candidateActive c => Sys2Proof.Machine.execCandidateActive c s
  | .candidateInactive c => Sys2Proof.Machine.execCandidateInactive c s
  | .qlReceived c ql => Sys2Proof.Machine.execQlReceived c ql s
  | .qlTimeout c => Sys2Proof.Machine.execQlTimeout c s
  | .freqMeasureUpdate offs => Sys2Proof.Machine.execFreqMeasureUpdate offs s
  | .wtrExpire c => Sys2Proof.Machine.execWtrExpire c s
  | .wtrClear c => Sys2Proof.Machine.execWtrClear c s
  | .holdoffExpire => Sys2Proof.Machine.execHoldoffExpire s
  | .timSwitch => Sys2Proof.Machine.execTimSwitch s
  | .xoLost => Sys2Proof.Machine.execXoLost s
  | .dpllLocked => Sys2Proof.Machine.execDpllLocked s
  | .dpllPhaseError => Sys2Proof.Machine.execDpllPhaseError s
  | .historySecond avg => Sys2Proof.Machine.execHistorySecond avg s
  | .timPstep v => Sys2Proof.Machine.execTimPstep v s
  | .phaseStepDone => Sys2Proof.Machine.execPhaseStepDone s
  | .ppsInEdge p spaced onTime => Sys2Proof.Machine.execPpsInEdge p spaced onTime s
  | .ppsInMissing p => Sys2Proof.Machine.execPpsInMissing p s
  | .internalSecond => Sys2Proof.Machine.execInternalSecond s
  | .ppsRealign p => Sys2Proof.Machine.execPpsRealign p s
  | .clkRealign c => Sys2Proof.Machine.execClkRealign c s
  | .clkSelWrite n lane en => Sys2Proof.Machine.execClkSelWrite n lane en s
  | .ppsTallyRead => Sys2Proof.Machine.execPpsTallyRead s
  | .doorbell fn ring aligned data => Sys2Proof.Machine.execDoorbell fn ring aligned data s
  | .descriptorFetch ring data => Sys2Proof.Machine.execDescriptorFetch ring data s
  | .nop d => Sys2Proof.Machine.execNop d s
  | .ringCreate d => Sys2Proof.Machine.execRingCreate d s
  | .ringDestroy d => Sys2Proof.Machine.execRingDestroy d s
  | .ringDestroyDone ring => Sys2Proof.Machine.execRingDestroyDone ring s
  | .ringBind d => Sys2Proof.Machine.execRingBind d s
  | .vfConfig d => Sys2Proof.Machine.execVfConfig d s
  | .tableLoad d words => Sys2Proof.Machine.execTableLoad d words s
  | .memRead d warned rivals => Sys2Proof.Machine.execMemRead d warned rivals s
  | .memWrite d data lost warned rivals => Sys2Proof.Machine.execMemWrite d data lost warned rivals s
  | .marchRun d => Sys2Proof.Machine.execMarchRun d s
  | .marchDone t faulty => Sys2Proof.Machine.execMarchDone t faulty s
  | .oeSpi d => Sys2Proof.Machine.execOeSpi d s
  | .pwrReq d => Sys2Proof.Machine.execPwrReq d s
  | .reset d => Sys2Proof.Machine.execReset d s
  | .fwUpdate d => Sys2Proof.Machine.execFwUpdate d s
  | .mailbox d => Sys2Proof.Machine.execMailbox d s
  | .mailboxAnswer t cluster answer => Sys2Proof.Machine.execMailboxAnswer t cluster answer s
  | .mailboxTimeout t cluster => Sys2Proof.Machine.execMailboxTimeout t cluster s
  | .capture d => Sys2Proof.Machine.execCapture d s
  | .assaySnap d => Sys2Proof.Machine.execAssaySnap d s
  | .surveyAcq d => Sys2Proof.Machine.execSurveyAcq d s
  | .auxSample d => Sys2Proof.Machine.execAuxSample d s
  | .completionWrite => Sys2Proof.Machine.execCompletionWrite s
  | .eventWrite fn => Sys2Proof.Machine.execEventWrite fn s
  | .interruptTimer ring => Sys2Proof.Machine.execInterruptTimer ring s
  | .hostReset => Sys2Proof.Machine.execHostReset s
  | .vfFlr v => Sys2Proof.Machine.execVfFlr v s
  | .vfDisable => Sys2Proof.Machine.execVfDisable s
  | .adminEn en => Sys2Proof.Machine.execAdminEn en s
  | .pwrRequest t dom => Sys2Proof.Machine.execPwrRequest t dom s
  | .pwrAnswer t dom => Sys2Proof.Machine.execPwrAnswer t dom s
  | .domainGrant t dom => Sys2Proof.Machine.execDomainGrant t dom s
  | .pwrTimeout t dom => Sys2Proof.Machine.execPwrTimeout t dom s
  | .pwrDeadline => Sys2Proof.Machine.execPwrDeadline s
  | .pwrEnter => Sys2Proof.Machine.execPwrEnter s
  | .pwrRelease t dom => Sys2Proof.Machine.execPwrRelease t dom s
  | .wakeSource t dom => Sys2Proof.Machine.execWakeSource t dom s
  | .domainWakeDone => Sys2Proof.Machine.execDomainWakeDone s
  | .packagePowerOff => Sys2Proof.Machine.execPackagePowerOff s
  | .budgetInterval pool => Sys2Proof.Machine.execBudgetInterval pool s
  | .grantApply => Sys2Proof.Machine.execGrantApply s
  | .thermalCheck t => Sys2Proof.Machine.execThermalCheck t s
  | .thermalTrip t => Sys2Proof.Machine.execThermalTrip t s
  | .lampClear => Sys2Proof.Machine.execLampClear s
  | .binTempReport b base top => Sys2Proof.Machine.execBinTempReport b base top s
  | .ceDetected t mem addr syn => Sys2Proof.Machine.execCeDetected t mem addr syn s
  | .ueDetected t mem addr => Sys2Proof.Machine.execUeDetected t mem addr s
  | .partialMemoryWrite t mem addr off bytes fault => Sys2Proof.Machine.execPartialMemoryWrite t mem addr off bytes fault s
  | .canaryStart t => Sys2Proof.Machine.execCanaryStart t s
  | .canaryDone t kind idx word fails1 fails2 => Sys2Proof.Machine.execCanaryDone t kind idx word fails1 fails2 s
  | .ceFree t mask => Sys2Proof.Machine.execCeFree t mask s
  | .memCntClear t => Sys2Proof.Machine.execMemCntClear t s
  | .leLockstep t cluster engine => Sys2Proof.Machine.execLeLockstep t cluster engine s
  | .auxConversionEnd t code overrange => Sys2Proof.Machine.execAuxConversionEnd t code overrange s
  | .auxInjectRequest t who ch => Sys2Proof.Machine.execAuxInjectRequest t who ch s
  | .regStart t => Sys2Proof.Machine.execRegStart t s
  | .auxRegPeriod t => Sys2Proof.Machine.execAuxRegPeriod t s
  | .refSettled t => Sys2Proof.Machine.execRefSettled t s
  | .auxCal t => Sys2Proof.Machine.execAuxCal t s
  | .auxCalDone t => Sys2Proof.Machine.execAuxCalDone t s
  | .auxQPop t => Sys2Proof.Machine.execAuxQPop t s
  | .auxSimulSample codes => Sys2Proof.Machine.execAuxSimulSample codes s
  | .telemetryWrite source m => Sys2Proof.Machine.execTelemetryWrite source m s
  | .lineMonitorUpdate n dgd pdl => Sys2Proof.Machine.execLineMonitorUpdate n dgd pdl s
  | .sopSample n s1 s2 s3 => Sys2Proof.Machine.execSopSample n s1 s2 s3 s
  | .sopRateMeasure n rot => Sys2Proof.Machine.execSopRateMeasure n rot s
  | .pmSecond source m layer c => Sys2Proof.Machine.execPmSecond source m layer c s
  | .pmRecord source m layer => Sys2Proof.Machine.execPmRecord source m layer s
  | .assayBatch vals => Sys2Proof.Machine.execAssayBatch vals s
  | .assayBatchDone => Sys2Proof.Machine.execAssayBatchDone s
  | .assaySnapshot vals => Sys2Proof.Machine.execAssaySnapshot vals s
  | .tagSeedLoad m => Sys2Proof.Machine.execTagSeedLoad m s
  | .surveyAccumulate n => Sys2Proof.Machine.execSurveyAccumulate n s
  | .surveyDone n profile anoms => Sys2Proof.Machine.execSurveyDone n profile anoms s
  | .surveyTimeout n profile anoms => Sys2Proof.Machine.execSurveyTimeout n profile anoms s
  | .captureTrigger n phi => Sys2Proof.Machine.execCaptureTrigger n phi s
  | .captureSet n bytes drained => Sys2Proof.Machine.execCaptureSet n bytes drained s
  | .captureDone n => Sys2Proof.Machine.execCaptureDone n s
  | .porstRise straps primary secondary => Sys2Proof.Machine.execPorstRise straps primary secondary s
  | .fwReady faulty => Sys2Proof.Machine.execFwReady faulty s
  | .porstFall => Sys2Proof.Machine.execPorstFall s
  | .i2cRecoveryLoad img => Sys2Proof.Machine.execI2cRecoveryLoad img s
  | .svnCommit => Sys2Proof.Machine.execSvnCommit s
  | .railFault t => Sys2Proof.Machine.execRailFault t s
  | .surfacePowerLoss => Sys2Proof.Machine.execSurfacePowerLoss s
  | .domainResetDone t dom => Sys2Proof.Machine.execDomainResetDone t dom s
  | .resetDone t faulty => Sys2Proof.Machine.execResetDone t faulty s
  | .wake => Sys2Proof.Machine.execWake s
  | .wakeRailsGood => Sys2Proof.Machine.execWakeRailsGood s
  | .railTimeout => Sys2Proof.Machine.execRailTimeout s
  | .railDischarged => Sys2Proof.Machine.execRailDischarged s
  | .fwSwapped t cluster => Sys2Proof.Machine.execFwSwapped t cluster s
  | .regAccClr => Sys2Proof.Machine.execRegAccClr s
  | .slipClr m c => Sys2Proof.Machine.execSlipClr m c s
  | .decCntClr m c => Sys2Proof.Machine.execDecCntClr m c s
  | .frmCntClr m c => Sys2Proof.Machine.execFrmCntClr m c s
  | .oduCntClr m o => Sys2Proof.Machine.execOduCntClr m o s
  | .tallySnapRead => Sys2Proof.Machine.execTallySnapRead s
  | .farSfRead m c => Sys2Proof.Machine.execFarSfRead m c s
  | .unfinishedHwmRead m c => Sys2Proof.Machine.execUnfinishedHwmRead m c s
  | .tempPeakRead t => Sys2Proof.Machine.execTempPeakRead t s
  | .sopRatePeakRead n => Sys2Proof.Machine.execSopRatePeakRead n s
  | .queueHwmRead t q occupancy peak => Sys2Proof.Machine.execQueueHwmRead t q occupancy peak s
  | .ovrSfLatch n peaks clips rx => Sys2Proof.Machine.execOvrSfLatch n peaks clips rx s
  | .oeFaultEnd n => Sys2Proof.Machine.execOeFaultEnd n s
  | .railRestored t => Sys2Proof.Machine.execRailRestored t s
  | .resetHoldEnd => Sys2Proof.Machine.execResetHoldEnd s
  | .alignLockChange m l locked corrected uncorrectable => Sys2Proof.Machine.execAlignLockChange m l locked corrected uncorrectable s
  | .pcieLinkUp => Sys2Proof.Machine.execPcieLinkUp s
  | .laneTrainRequest m l coef req beyond => Sys2Proof.Machine.execLaneTrainRequest m l coef req beyond s
  | .tableLoadDone t => Sys2Proof.Machine.execTableLoadDone t s
  | .fwStaged t cluster keyHash sigOk => Sys2Proof.Machine.execFwStaged t cluster keyHash sigOk s
  | .ppsOutPulse p => Sys2Proof.Machine.execPpsOutPulse p s

end Sys2Proof.Machine
end

