-- ==== Sys2Proof/Machine/Step.lean ====
section
/-! DEFINITION. One step: the command at the front of the queue, or one tick of time where none waits. -/

namespace Sys2Proof.Machine

/-- One tick with no command (assumption 28): the package tally counts one symbol (R46); while it is stopped, the surface
domain counts one tick (R83). -/
def State.tick (s : State) : State :=
  if s.tallyOn then { s with tally := s.tally + 1 } else s.bump .surfTicks .m0

/-- The command at the front of the queue takes effect on the state with the rest of the queue. -/
def step (s : State) : Host.Outcome State Fault Refusal :=
  match s.pending with
  | [] => .next s.tick
  | c :: rest => exec c { s with pending := rest }

/-- The state with the command that a table word spells at the front of its queue; unchanged where the word spells none. -/
def State.withFetchWord (s : State) (nbits w : Nat) : State :=
  match decodeTableWord nbits w with
  | some c => { s with pending := c :: s.pending }
  | none => s

end Sys2Proof.Machine
end

