-- ==== Sys2Proof/Safety.lean ====
section
/-! DEFINITION. What a safe step and a well-kept state are, in the terms claims use. -/

namespace Sys2Proof.Machine

/-- A byte memory in its canonical form: addresses strictly rising, no byte 0, which an unlisted address reads as. -/
def Memory.wf (m : Mem) : Bool := Cells.wf (fun _ => (0 : Byte)) m

/-- The sparse stores of a state are in their canonical forms: equal contents are equal data. -/
def State.wf (s : State) : Bool :=
  Cells.wf resetOfKey s.regs && Cells.sorted s.offs && Cells.sorted s.freeRegs && Memory.wf s.hostMem && Memory.wf s.memory

/-- A step that neither faults nor refuses. -/
def Safe (o : Host.Outcome State Fault Refusal) : Bool :=
  match o with
  | .next _ => true
  | .fault _ | .refused _ => false

/-- The opcode and the descriptor of a command that the host sends through a ring (R489); none for any other. -/
def opcodeOf : Instr → Option (Nat × Desc)
  | .nop d => some (0x00, d) | .ringCreate d => some (0x01, d) | .ringDestroy d => some (0x02, d)
  | .ringBind d => some (0x03, d) | .vfConfig d => some (0x04, d) | .shiftCommit d => some (0x08, d)
  | .tableLoad d _ => some (0x09, d) | .memRead d _ _ => some (0x10, d) | .memWrite d _ _ _ _ => some (0x11, d)
  | .marchRun d => some (0x12, d) | .oeSpi d => some (0x18, d) | .kekLoad d => some (0x20, d)
  | .keyLoad d => some (0x21, d) | .keyZero d => some (0x22, d) | .pageBind d => some (0x23, d)
  | .pageUnbind d => some (0x24, d) | .streamBind d => some (0x25, d) | .streamStart d => some (0x26, d)
  | .streamStop d => some (0x27, d) | .laEncrypt d => some (0x28, d) | .laDecrypt d => some (0x29, d)
  | .pwrReq d => some (0x30, d) | .reset d => some (0x31, d) | .fwUpdate d => some (0x32, d)
  | .mailbox d => some (0x33, d) | .capture d => some (0x38, d) | .assaySnap d => some (0x39, d)
  | .surveyAcq d => some (0x3A, d) | .auxSample d => some (0x3B, d)
  | _ => none

/-- A register field: its name, die and instance. -/
abbrev Reg := Fld × Die × Nat

/-- The listed fields of one die and instance. -/
def regsAt (d : Die) (i : Nat) (l : List Fld) : List Reg := l.map fun f => (f, d, i)

/-- `t` is `s` but for the listed register fields: every other field reads as before, staged copies and everything that is
no register are the same. -/
def SameBut (l : List Reg) (s t : State) : Prop :=
  t = { s with regs := t.regs } ∧ ∀ f d i, (f, d, i) ∉ l → t.rd f d i = s.rd f d i

/-- `t` is `s` but for the listed register fields and the assay counters, which count every event beside its effect (R602). -/
def Counted (l : List Reg) (s t : State) : Prop := SameBut l { s with assay := t.assay } t

/-- A descriptor that R488, R489 and R499 let through: neither its fence nor an earlier one of its order holds it back, the firmware
is ready, its ring is of the class that takes the opcode, its function may issue it, and its header is in order. -/
def State.Accepts (s : State) (op : Nat) (d : Desc) : Prop :=
  (s.enlist op d).fenced d = false ∧ (s.enlist op d).waitsTurn op d = false ∧ s.on .hostFwReady = true ∧ Desc.headerBad op d = false ∧
    ∃ row, opcodeRow op = some row ∧ (∀ r, Cells.find d.ring s.rings = some r → r.cls = row.1) ∧ (row.2 = true → d.fn.val = 0)

/-- A target that takes work (R506): its die present, reachable and out of reset, its domain in Run or Idle. -/
def State.Serves (s : State) (t : Die) (dom : Nat) : Prop :=
  s.has t = true ∧ s.domInReset t dom = false ∧ (s.domDead t t.anchor && s.on .plannedDown t) = false ∧ s.reach t = true ∧
    s.domSt t dom ≤ 1

/-- The state in which a descriptor's work starts: the descriptor in flight, the target awake. -/
def State.workStart (s : State) (op : Nat) (d : Desc) (t : Die) (dom : Nat) : State := (s.enlist op d).wakeBy t dom

/-- The state in which a descriptor has completed with a status and a result, after `s`. -/
def State.done (s : State) (op : Nat) (d : Desc) (st : Status) (result : Nat := 0) : State :=
  (s.enlist op d).finish op d st result

/-- A descriptor has ended between `s` and `t`: it is in flight no longer, and its completion with a status and a result
waits last of all, where its ring exists (R497). -/
def State.Completes (s t : State) (op : Nat) (d : Desc) (st : Status) (result : Nat := 0) : Prop :=
  t.inflight = (s.inflight.filter fun o => !o.isFor d) ∧
    t.compl = s.compl ++ match Cells.find d.ring s.rings with
      | none => []
      | some r => [⟨d.fn, d.ring, r.cq, op, d.tag.toNat, st.code, s.resultOf op st result, d.irqNow, Op.targetDie ⟨op, d⟩⟩]

end Sys2Proof.Machine
end

