-- ==== Sys2Proof/Certificates/Slice0/Obligations.lean ====
section
/-! DEFINITION. The statements for the provers: what the rules of spec/ say of each family of commands, when commands
complete, and what every step keeps. -/

open Sys2Proof Sys2Proof.Machine

/-- For every state and command: step, with the command at the front of the queue, is exec of it on the state with the queue's rest. On an
empty queue (the model's choice, log entry 28) the tally counts one symbol while it runs, and while it is stopped the surface
domain counts one tick. -/
def Obligations.StepRunsTheCommandInFront : Prop :=
  (∀ (c : Instr) (rest : List Instr) (s : State), step { s with pending := c :: rest } = exec c { s with pending := rest }) ∧
  ∀ s : State, s.pending = [] →
    (s.tallyOn = true → step s = .next { s with tally := s.tally + 1 }) ∧
    (s.tallyOn = false → ∃ t, step s = .next t ∧ t.rd .surfTicks = (s.rd .surfTicks + 1) % 2 ^ 48 ∧
      SameBut [(.surfTicks, .m0, 0)] s t)

/-- State.reset has no command, ring, key or memory byte listed, its tally stopped, its stores in canonical form; and registers of each
family read the reset values that the register tables give: the SURF_CLK tolerance, ADC, DAC and TIA settings, line rates,
budget and thermal thresholds, floors and caps, the ECC threshold, the auxiliary ADC's channel, the configuration. -/
def Obligations.ResetLeavesTheTabledValues : Prop :=
  let s := State.reset
  s.pending = [] ∧ s.rings = [] ∧ s.keys = [] ∧ s.memory = [] ∧ s.hostMem = [] ∧ s.tallyOn = false ∧ s.wf = true ∧
  s.rd .tallySurfPpm = 0x64 ∧ s.on .hostFwReady = false ∧ s.rd .chipConfig = 8 ∧
  (∀ n a : Fin 4, s.rd .adcOvrThresh (faceOf n) a = 0x10 ∧ s.rd .adcCalSkipLimit (faceOf n) a = 0x08 ∧
    s.rd .dacMain (faceOf n) a = 0x100 ∧ s.rd .tiaMax (faceOf n) = 0xFF) ∧
  (∀ n : Fin 4, s.on .siteTxdisState (faceOf n) = true ∧ s.rd .siteTxdisCause (faceOf n) = 3 ∧ s.rd .carCapFloor .m0 n = 4 ∧
    s.rd .carStepMax .m0 n = 0x20 ∧ s.rd .auxRegCh (faceOf n) = 8) ∧
  (∀ m c : Fin 2, s.rd .ltxEntH (millAt m) c = 0x329 ∧ s.rd .ltxM (millAt m) c = 0xF0 ∧ s.on .ltxAutoH (millAt m) c = true) ∧
  s.rd .pwrBudgetW = 0x12C ∧ s.rd .pwrGuardW = 4 ∧ s.rd .pwrTWarn = 0x5F ∧ s.rd .pwrTThrottle = 0x64 ∧
  (∀ m : Fin 2, s.rd .pmillAssayK .m0 m = 0x18) ∧ ∀ d ∈ Die.all, s.rd .memCeThresh d = 4

/-- For every state whose sparse stores are in canonical form (keys strictly rising; no register at its reset value, no zero byte listed)
and every command: if step answers a next state, its stores are in canonical form too. Equal contents stay equal data,
and each staged copy has one value. -/
def Obligations.EveryStepKeepsItsStoresCanonical : Prop :=
  ∀ s t : State, s.wf = true → step s = .next t → t.wf = true

/-- For every command and every state, whatever its operands, exec answers a next state, neither a fault nor a refusal, and the commands
still waiting in it are those that were waiting. So every step is safe. -/
def Obligations.EveryCommandCompletesAndLeavesTheQueue : Prop :=
  (∀ (c : Instr) (s : State), ∃ t, exec c s = .next t ∧ t.pending = s.pending) ∧ ∀ s : State, Safe (step s) = true

/-- For each command that a ring carries: a fenced descriptor with an earlier one of its ring outstanding, or one behind an earlier one of
its order, only waits in flight. Before
fw_ready it completes with TARGET_UNPOWERED. With fw_ready, on a ring of another class it completes with BAD_DESC; on a ring of
its class, an opcode of the physical function alone that a virtual function sent completes with NOT_PERMITTED, raising
CMD_NOT_PERMITTED. Nothing else changes but what is in flight, its counts and, for a SHIFT_COMMIT, last_status. -/
def Obligations.DescriptorsJudgedInOrder : Prop :=
  ∀ (i : Instr) (s : State) op d, opcodeOf i = some (op, d) →
    let counts : List Reg := [(.hostOpsInFlight, .m0, 0), (.vfOpsInFlight, .m0, d.fn.val), (.shiftLastStatus, .m0, 0)]
    let held : Bool := (s.enlist op d).fenced d || (s.enlist op d).waitsTurn op d
    let ends (st : Status) (events : List Event) : Prop := ∃ t, exec i s = .next t ∧ s.Completes t op d st ∧
      SameBut counts { s with inflight := t.inflight, requests := t.requests, compl := t.compl, events := events } t
    (held = true → exec i s = .next (s.enlist op d)) ∧
    (held = false →
      (s.on .hostFwReady = false → ends .targetUnpowered s.events) ∧
      ∀ cls pf, opcodeRow op = some (cls, pf) → s.on .hostFwReady = true →
        (∀ r, Cells.find d.ring s.rings = some r → r.cls ≠ cls → ends .badDesc s.events) ∧
        ((∀ r, Cells.find d.ring s.rings = some r → r.cls = cls) → pf = true → d.fn.val ≠ 0 →
          ∃ t page, exec i s = .next t ∧ s.Completes t op d .notPermitted ∧
            t.events = (s.raiseFn Reason.cmdNotPermitted (blkId .m0 Dom.hostif) d.fn (page % 256 + 256 * op)).events ∧
            SameBut counts { s with inflight := t.inflight, requests := t.requests, compl := t.compl, events := t.events } t))

/-- An access that R505 answers (`blockOff`) or R17 (`unreachable`): a read returns 0xDEAD_0FF0, a write changes no
register; either counts in dead_accesses (which stops at its greatest value) and raises BLOCK_OFF with the block and the
offset (bit 31 for a write), or DIE_UNREACHABLE with the die. Nothing else changes. Completes: BLOCK_OFF_ACCESS, DIE_UNREACHABLE_ACCESS. -/
def Obligations.DeadAccessAnsweredCountedAnnounced : Prop :=
  ∀ (addr : BitVec 26) (s : State),
    let a := addr.toNat / 4 * 4
    let count (t : State) : Prop := t.rd .accDeadAccesses .m0 0 = min (s.rd .accDeadAccesses .m0 0 + 1) 0xFFFF
    (∀ b, s.access a = .blockOff b →
      (∃ t, exec (.blockOffAccess addr false) s = .next t ∧ t.readData = 0xDEAD0FF0 ∧ count t ∧
        SameBut [(.accDeadAccesses, .m0, 0)]
          { s.raise Reason.blockOff b (a % 0x400000) with readData := t.readData } t) ∧
      ∃ t, exec (.blockOffAccess addr true) s = .next t ∧ count t ∧
        SameBut [(.accDeadAccesses, .m0, 0)] (s.raise Reason.blockOff b (a % 0x400000 + 2 ^ 31)) t) ∧
    ∀ d, s.access a = .unreachable d →
      (∃ t, exec (.dieUnreachableAccess addr false) s = .next t ∧ t.readData = 0xDEAD0FF0 ∧ count t ∧
        SameBut [(.accDeadAccesses, .m0, 0)]
          { s.raise Reason.dieUnreachable (blkId d) with readData := t.readData } t) ∧
      ∃ t, exec (.dieUnreachableAccess addr true) s = .next t ∧ count t ∧
        SameBut [(.accDeadAccesses, .m0, 0)] (s.raise Reason.dieUnreachable (blkId d)) t

/-- WINZ_CNT_CLR, SLIP_CLR, DEC_CNT_CLR, FRM_CNT_CLR, ODU_CNT_CLR and REG_ACC_CLR: where the register's domain answers, each
counter of the group reads 0 afterwards and every other register and all else is unchanged. Completes: WINZ_CNT_CLR, SLIP_CLR, DEC_CNT_CLR, FRM_CNT_CLR, ODU_CNT_CLR, REG_ACC_CLR. -/
def Obligations.ClearAllClearsItsGroupOnly : Prop :=
  let clears (i : Instr) (d : Die) (k : Nat) (f : Fld) (l : List Fld) : Prop :=
    ∀ s w fs, s.dieAccess d (f.offsetAt k) = .word w fs →
      ∃ t, exec i s = .next t ∧ (∀ g ∈ l, t.rd g d k = 0) ∧ SameBut (regsAt d k l) s t
  (∀ d (p : Fin 4), clears (.winzCntClr d p) d p .winzClearAll
    [.winzCrcErrors, .winzAbortedRequests, .winzStaleReplies, .winzTxUnderrun]) ∧
  (∀ m c : Fin 2,
    clears (.slipClr m c) (millAt m) c .slipClearAll [.slipCorrQueue, .slipRedecoded, .slipLate] ∧
    clears (.decCntClr m c) (millAt m) c .decClearAll decCounters ∧
    clears (.frmCntClr m c) (millAt m) c .frmClearAll [.frmLofCount, .frmFalseSync, .frmOhCrcErrors]) ∧
  (∀ (m : Fin 2) (o : Fin 512), clears (.oduCntClr m o) (millAt m) o .oduClearAll
    [.oduInsRepeat, .oduExtDrop, .oduBipErrors, .oduBeiErrors, .oduImpOverflow, .oduImpUnderflow]) ∧
  ∀ s, ∃ t, exec .regAccClr s = .next t ∧ t.rd .accPartialWrites .m0 0 = 0 ∧ t.rd .accDeadAccesses .m0 0 = 0 ∧
    SameBut (regsAt .m0 0 [.accPartialWrites, .accDeadAccesses]) s t

/-- TALLY_SNAP_READ and PPS_TALLY_READ return the offset and latch the SF beside it; FAR_SF_READ returns the low word of the
far SF and latches the carrier's whole block; UNFINISHED_HWM_READ, TEMP_PEAK_READ, SOP_RATE_PEAK_READ and QUEUE_HWM_READ start
their peak again at the present value (sop_rate_peak at 0). Nothing else changes. Completes: TALLY_SNAP_READ, FAR_SF_READ, PPS_TALLY_READ, UNFINISHED_HWM_READ, TEMP_PEAK_READ, SOP_RATE_PEAK_READ, QUEUE_HWM_READ. -/
def Obligations.LatchingReadsLatchAndPeaksRestart : Prop :=
  (∀ s, ∃ t, exec .tallySnapRead s = .next t ∧ t.readData = s.tally % sfLen ∧
    t.rd48 .tallySnapSfLo .tallySnapSfHi .m0 0 = s.tally / sfLen % 2 ^ 48 ∧ t.rd .tallySnapOff .m0 0 = s.tally % sfLen ∧
    SameBut (regsAt .m0 0 [.tallySnapSfLo, .tallySnapSfHi, .tallySnapOff]) { s with readData := t.readData } t) ∧
  (∀ (m c : Fin 2) s w fs, s.dieAccess (millAt m) (Fld.offsetAt .farSfLo c) = .word w fs →
    ∃ t, exec (.farSfRead m c) s = .next t ∧ t.readData = s.rd .farLiveSf (millAt m) c % 2 ^ 32 ∧
      t.rd48 .farSfLo .farSfHi (millAt m) c = s.rd .farLiveSf (millAt m) c % 2 ^ 48 ∧
      t.rd48 .farArrSfLo .farArrSfHi (millAt m) c = s.rd .farLiveArr (millAt m) c / sfLen % 2 ^ 48 ∧
      t.rd .farArrOffset (millAt m) c = s.rd .farLiveArr (millAt m) c % sfLen ∧
      SameBut (regsAt (millAt m) c [.farSfLo, .farSfHi, .farArrSfLo, .farArrSfHi, .farArrOffset])
        { s with readData := t.readData } t) ∧
  (∀ s w fs, s.dieAccess .m0 (Fld.offsetAt .timPpsTallyOff 0) = .word w fs →
    ∃ t, exec .ppsTallyRead s = .next t ∧ t.readData = s.rd .timPpsTallyOff ∧
      t.rd48 .timPpsTallySfLo .timPpsTallySfHi .m0 0 = s.rd .ppsTallyLive / sfLen % 2 ^ 48 ∧
      SameBut (regsAt .m0 0 [.timPpsTallySfLo, .timPpsTallySfHi]) { s with readData := t.readData } t) ∧
  (∀ (m c : Fin 2) s w fs, s.dieAccess (millAt m) (Fld.offsetAt .decUnfinishedHwm c) = .word w fs →
    s.rd .decUnfinished (millAt m) c < 2 ^ 11 →
    ∃ t, exec (.unfinishedHwmRead m c) s = .next t ∧
      t.rd .decUnfinishedHwm (millAt m) c = s.rd .decUnfinished (millAt m) c ∧
      SameBut [(.decUnfinishedHwm, millAt m, c)] { s with readData := t.readData } t) ∧
  (∀ d s, s.has d = true →
    ∃ t, exec (.tempPeakRead d) s = .next t ∧
      t.readData = s.rd .pdieTemp .m0 d.code + 2 ^ 12 * s.rd .pdieTempPeak .m0 d.code ∧
      t.rd .pdieTempPeak .m0 d.code = s.rd .pdieTemp .m0 d.code % 2 ^ 12 ∧
      SameBut [(.pdieTempPeak, .m0, d.code)] { s with readData := t.readData } t) ∧
  (∀ (n : Fin 4) s, s.hasCarrier n = true →
    ∃ t, exec (.sopRatePeakRead n) s = .next t ∧ t.readData = s.rd .monSopRatePeak .m0 n ∧
      t.rd .monSopRatePeak .m0 n = 0 ∧ SameBut [(.monSopRatePeak, .m0, n.val)] { s with readData := t.readData } t) ∧
  ∀ d (q : Fin 32) (occ peak : BitVec 16) s w fs, Die.hasQueue d q = true →
    s.dieAccess d (Fld.offsetAt .queueOccupancy q) = .word w fs →
    ∃ t, exec (.queueHwmRead d q occ peak) s = .next t ∧
      t.readData = occ.toNat + 2 ^ 16 * max (s.rd .queueHwm d q) (max peak.toNat occ.toNat) ∧
      t.rd .queueOccupancy d q = occ.toNat ∧ t.rd .queueHwm d q = occ.toNat ∧
      SameBut (regsAt d q [.queueOccupancy, .queueHwm]) { s with readData := t.readData } t

/-- WINZ_CRC_ERROR on a link that is up: crc_errors counts, stopping at its greatest value. The eighth error of a lane
within one SF moves the lane to a spare of its link (degraded sets, a canary test of the lane starts); with every spare
taken spare_exhausted sets with SPARE_EXHAUSTED and the lane stays in service. Any other error, or one on a lane under test,
changes the count and the lane's own tally alone. That a spare takes any lane of its link is the model's choice (log entry 55).
STALE_REPLY counts in stale_replies a reply to no outstanding request, one with another incarnation than its request, or one whose
target has a new incarnation, and does nothing else; any other reply changes nothing.
LINK_DOWN on a link that is up: both ends read link_up 0 and no operation aimed at a die beyond the link stays in flight;
the tally, host memory and the dies' memories stand. LINK_RETRAIN_DONE of a link that is down, both its dies present, powered, out
of reset, neither tripped nor down by plan: both ends read link_up 1. Completes: WINZ_CRC_ERROR, STALE_REPLY, LINK_DOWN, LINK_RETRAIN_DONE. -/
def Obligations.WinzeErrorsLinkLossAndReturn : Prop :=
  ((∀ (d : Die) (p : Fin 4) (lane : Fin 256) (s : State), s.on .winzLinkUp d p = true →
    let i := p.val * 256 + lane
    let tested : Bool := s.canary.any fun c => c.die == d && c.kind == 5 && c.idx == i
    let moves : Prop := s.rd .winzLaneSf d i = s.sf ∧ s.rd .winzLaneErrs d i = 7 ∧ tested = false
    ∃ t, exec (.winzCrcError d p lane) s = .next t ∧
      t.rd .winzCrcErrors d p = min (s.rd .winzCrcErrors d p + 1) (2 ^ 32 - 1) ∧
      (¬moves → SameBut [(.winzCrcErrors, d, p.val), (.winzLaneSf, d, i), (.winzLaneErrs, d, i)] s t) ∧
      (moves → s.rd .winzSparesUsed d p < 8 →
        t.rd .winzSparesUsed d p = s.rd .winzSparesUsed d p + 1 ∧ t.on .winzDegraded d p = true ∧ t.events = s.events ∧
          t.canary = (s.canaryStart d 5 i).canary) ∧
      (moves → 8 ≤ s.rd .winzSparesUsed d p →
        t.on .winzSpareExhausted d p = true ∧ t.events = (s.raise Reason.spareExhausted (blkId d d.anchor) 5).events ∧
          t.canary = (s.canaryStart d 5 i true).canary)) ∧
  ∀ (d : Die) (p : Fin 4) (inc : Fin 16) (ring slot : Nat) (s : State), (farPort d p).isSome = true → s.has d = true →
    let mine := s.requests.find? fun r => r.ring == ring && r.slot == slot
    (mine = none → ∃ t, exec (.staleReply d p inc ring slot) s = .next t ∧
      t.rd .winzStaleReplies d p = min (s.rd .winzStaleReplies d p + 1) (2 ^ 32 - 1) ∧ SameBut [(.winzStaleReplies, d, p.val)] s t) ∧
    ∀ r, mine = some r →
      (inc.val ≠ r.inc ∨ s.rd .incarnation r.die r.dom ≠ inc.val → ∃ t, exec (.staleReply d p inc ring slot) s = .next t ∧
        t.rd .winzStaleReplies d p = min (s.rd .winzStaleReplies d p + 1) (2 ^ 32 - 1) ∧
        SameBut [(.winzStaleReplies, d, p.val)] s t) ∧
      (inc.val = r.inc → s.rd .incarnation r.die r.dom = inc.val → exec (.staleReply d p inc ring slot) s = .next s)) ∧
  ((∀ (d : Die) (p : Fin 4) (s : State) e q, farPort d p = some (e, q) → s.on .winzLinkUp d p = true →
    ∃ t, exec (.linkDown d p) s = .next t ∧ t.rd .winzLinkUp d p = 0 ∧ t.rd .winzLinkUp e q = 0 ∧
      (∀ o ∈ t.inflight, ∀ x, o.targetDie = some x → x ∉ beyond d p) ∧
      t.tally = s.tally ∧ t.hostMem = s.hostMem ∧ t.memory = s.memory) ∧
  ∀ (d : Die) (p : Fin 4) (s : State) e q, farPort d p = some (e, q) → s.on .winzLinkUp d p = false →
    (∀ x ∈ [d, e], s.has x = true ∧ s.dieInReset x = false ∧ s.domDead x x.anchor = false ∧ s.on .plannedDown x = false ∧
      s.on .tripped x = false) →
    ∃ t, exec (.linkRetrainDone d p) s = .next t ∧ t.on .winzLinkUp d p = true ∧ t.on .winzLinkUp e q = true ∧
      t.inflight = s.inflight ∧ t.tally = s.tally)

/-- CAL_WINDOW_END at an SF count that is a multiple of 16, of a window that ran 16 SF, which nothing discarded and whose result is in
range: cal_unit moves to the next unit, from unit 64 to 0 with cal_rotations counting; with the result out of range the unit stays,
the rotation pauses and a canary test of the unit starts. ADC_OVERRANGE of a converter that runs sets ovr_sticky with one event, on
the set alone, and counts the code; it discards a running window only where it touches it, counting in cal_discards.
OVR_SF_LATCH outside foreground calibration: for each ADC lane ovr_sf_count takes the count of the SF, which starts again at 0; for
each DAC lane dac_clip_sf takes the clipped samples; the SF counts toward LOS by the mean of the four RMS codes against los_thresh.
FOREGROUND_CAL_DONE of a calibration that runs: it is over, the pause of the DACs ends, and every ADC lane that is not halted starts
at unit 0. Completes: CAL_WINDOW_END, ADC_OVERRANGE, OVR_SF_LATCH, FOREGROUND_CAL_DONE. -/
def Obligations.CalibrationOverrangeAndSuperframeLatches : Prop :=
  ((∀ (n a : Fin 4) (s : State),
    let d := faceOf n
    s.adcOn n = true → s.sf % 16 = 0 → s.on .calActive d a = true → s.rd .calStart d a + 16 ≤ s.sf → s.on .calDiscarded d a = false →
    s.rd .adcCalUnit d a ≤ 64 →
    (∃ t, exec (.calWindowEnd n a true) s = .next t ∧
      t.rd .adcCalUnit d a = (s.rd .adcCalUnit d a + 1) % 65 ∧
      t.rd .adcCalRotations d a =
        (if s.rd .adcCalUnit d a = 64 then (s.rd .adcCalRotations d a + 1) % 2 ^ 16 else s.rd .adcCalRotations d a) ∧
      Counted (regsAt d a [.adcCalUnit, .adcCalRotations, .calSkip, .calDiscarded, .calActive, .calStart]) s t) ∧
    ∃ t, exec (.calWindowEnd n a false) s = .next t ∧
      t.rd .adcCalUnit d a = s.rd .adcCalUnit d a ∧ t.on .calPaused d a = true ∧ t.on .calActive d a = false ∧
      t.canary = (s.canaryStart d 4 (a * 65 + s.rd .adcCalUnit d a)).canary) ∧
  ∀ (n a : Fin 4) (u : Fin 65) (s : State), s.adcOn n = true →
    let d := faceOf n
    let hits := s.on .calActive d a = true ∧ s.on .calDiscarded d a = false ∧ s.calTouches d a u = true
    ∃ t, exec (.adcOverrange n a u) s = .next t ∧ t.on .adcOvrSticky d a = true ∧
      t.rd .ovrCount d a = min (s.rd .ovrCount d a + 1) 0xFFFF ∧
      t.events = (if s.on .adcOvrSticky d a = true then s.events else (s.raiseField .adcOvrSticky d a).events) ∧
      (hits → t.on .calDiscarded d a = true ∧ t.rd .adcCalDiscards d a = min (s.rd .adcCalDiscards d a + 1) 0xFFFF) ∧
      (¬hits → ∀ f ∉ [Fld.adcOvrSticky, Fld.ovrCount], ∀ e j, t.rd f e j = s.rd f e j)) ∧
  ((∀ (n : Fin 4) (peaks : List (Fin 129)) (clips : List (BitVec 16)) (rx : RxReport) (s : State),
    let d := faceOf n
    let low := (rx.rms.map (·.toNat)).sum < 4 * s.rd .acqLosThresh d
    s.hasCarrier n = true → s.on .fgCal d = false → s.on .acqRestartPend d = false →
    ∃ t, exec (.ovrSfLatch n peaks clips rx) s = .next t ∧
      (∀ a : Fin 4, s.rd .ovrCount d a < 2 ^ 16 →
        t.rd .adcOvrSfCount d a = s.rd .ovrCount d a ∧ t.rd .ovrCount d a = 0 ∧ t.rd .dacClipSf d a = (clips.getD a 0).toNat) ∧
      (low → t.rd .losLow d = min 16 (s.rd .losLow d + 1) ∧ t.rd .losHigh d = 0) ∧
      (¬low → t.rd .losHigh d = min 16 (s.rd .losHigh d + 1) ∧ t.rd .losLow d = 0) ∧
      t = { s with regs := t.regs, assay := t.assay } ∧ ∀ f e i, e ≠ d → t.rd f e i = s.rd f e i) ∧
  ∀ (n : Fin 4) (s : State), s.on .fgCal (faceOf n) = true →
    ∃ t, exec (.foregroundCalDone n) s = .next t ∧ t.on .fgCal (faceOf n) = false ∧ t.on .dacPause (faceOf n) = false ∧
      (∀ a : Fin 4, s.on .adcCalHalted (faceOf n) a = false → t.rd .adcCalUnit (faceOf n) a = 0) ∧
      t = { s with regs := t.regs, assay := t.assay } ∧ (∀ f d i, d ≠ faceOf n → t.rd f d i = s.rd f d i))

/-- TIA_GAIN_DOWN after four overrange SFs and TIA_GAIN_UP after tia_up_sf quiet ones, outside hold-off and with the site
present: one write of the part's own, a step down or up, is queued, tia_requests counts and the hold-off of tia_holdoff SFs starts.
At or below tia_min no write is queued and tia_at_min sets. TIA_HOLDOFF_END at the end of the hold-off lets the lane count from 0
again. Nothing else changes. The byte that such a write sends is the lane's shadow moved by tia_step and held between tia_min and
tia_max, at the moment it is sent (the model's choice, log entry 61). Completes: TIA_GAIN_DOWN, TIA_GAIN_UP, TIA_HOLDOFF_END. -/
def Obligations.TiaGainRequestsStepWithinBounds : Prop :=
  (∀ (n a : Fin 4) (s : State),
    let d := faceOf n
    let gain := s.rd .adcTiaGainShadow d a
    let asks (i : Instr) (up : Bool) : Prop :=
      ∃ t, exec i s = .next t ∧ t.rd .adcTiaRequests d a = min (s.rd .adcTiaRequests d a + 1) 0xFFFF ∧
        t.on .tiaHold d a = true ∧ t.rd .tiaHoldUntil d a = (s.sf + s.rd .adcTiaHoldoff d) % 2 ^ 48 ∧
        t.rd .ovrRun d a = 0 ∧
        Counted (regsAt d a [.adcTiaRequests, .tiaHold, .tiaHoldUntil, .ovrRun]) { s with spi := s.spi ++ [⟨d, .tia a up, []⟩] } t
    (s.on .adcTiaReqEn d = true → 4 ≤ s.rd .ovrRun d a → s.on .tiaHold d a = false → s.on .sitePresent d = true →
      (s.rd .tiaMin d < gain → asks (.tiaGainDown n a) false) ∧
      (gain ≤ s.rd .tiaMin d → s.on .adcTiaAtMin d a = false →
        ∃ t, exec (.tiaGainDown n a) s = .next t ∧ t.on .adcTiaAtMin d a = true ∧
          SameBut [(.adcTiaAtMin, d, a.val)] (s.raiseField .adcTiaAtMin d a) t)) ∧
    (s.on .adcTiaUpEn d = true → s.rd .adcTiaUpSf d ≤ s.rd .tiaQuiet d a → gain < s.rd .tiaMax d →
      s.on .tiaHold d a = false → s.on .sitePresent d = true → asks (.tiaGainUp n a) true) ∧
    (s.on .tiaHold d a = true → s.rd .tiaHoldUntil d a ≤ s.sf →
      ∃ t, exec (.tiaHoldoffEnd n a) s = .next t ∧ t.on .tiaHold d a = false ∧ t.rd .ovrRun d a = 0 ∧
        SameBut (regsAt d a [.tiaHold, .ovrRun]) s t)) ∧
  ∀ (d : Die) (a : Fin 4) (up : Bool) (s : State), s.rd .tiaMin d ≤ s.rd .tiaMax d →
    s.rd .tiaMin d ≤ s.tiaValue d a up ∧ s.tiaValue d a up ≤ s.rd .tiaMax d ∧
      s.spiBytes d (.tia a up) = [s.rd .spiCmdWr d, (s.rd .tiaAddrBase d + a) % 256, s.tiaValue d a up]

/-- OE_SPI in order, with the site's domain serving: queued for a present site, TARGET_UNPOWERED for an absent one.
SPI_TRANSACTION_START with the controller free, the site present, its AUXM in Run or Idle and a transaction waiting: the controller
takes the first transaction of the site of the lowest rank out of the queue, with the bytes it sends, and nothing else changes.
SPI_TRANSACTION_DONE ends it: a TIA write sets that lane's shadow to the byte sent, a trim write the trim shadow, a host transaction
completes OK with the bytes read in. Completes: OE_SPI, SPI_TRANSACTION_START, SPI_TRANSACTION_DONE. -/
def Obligations.SpiTransactionsQueueStartAndComplete : Prop :=
  (∀ (d : Desc) (f : Die) (s : State), d.die = some f → f.isFace = true → d.target.toNat % 4096 = Dom.auxm * 64 →
    bits d.arg0.toNat 3 0 ≤ 8 → bits d.arg0.toNat 7 4 ≤ 8 → d.arg0.toNat / 256 = 0 → d.clearFrom 32 = true →
    s.Accepts 0x18 d → s.Serves f Dom.auxm → s.domSt f Dom.auxm = 0 → s.pwr = none →
    (s.on .sitePresent f = true → exec (.oeSpi d) s =
      .next { s.workStart 0x18 d f Dom.auxm with spi := s.spi ++ [⟨f, .host d, []⟩] }) ∧
    (s.on .sitePresent f = false → exec (.oeSpi d) s =
      .next ((s.workStart 0x18 d f Dom.auxm).finish 0x18 d .targetUnpowered))) ∧
  (∀ (n : Fin 4) (s : State) x, s.spiActive.any (·.die == faceOf n) = false → s.on .sitePresent (faceOf n) = true →
    s.domUp (faceOf n) Dom.auxm = true → nextSpi (faceOf n) s.spi = some x →
    (x ∈ s.spi ∧ x.die = faceOf n ∧ ∀ r ∈ s.spi, r.die = faceOf n → SpiKind.rank x.kind ≤ SpiKind.rank r.kind) ∧
    ∃ t, exec (.spiTransactionStart n) s = .next t ∧ t.spi = s.spi.erase x ∧
      t.spiActive = s.spiActive ++ [{ x with bytes := s.spiBytes (faceOf n) x.kind }] ∧
      t = { s with spi := t.spi, spiActive := t.spiActive }) ∧
  ∀ (n : Fin 4) (miso : BitVec 64) (s : State) r, s.spiActive.find? (·.die == faceOf n) = some r →
    let u : State := { s with spiActive := s.spiActive.erase r }
    (∀ a up, r.kind = .tia a up → ∃ t, exec (.spiTransactionDone n miso) s = .next t ∧
      t.rd .adcTiaGainShadow (faceOf n) a = r.bytes.getD 2 0 % 2 ^ 8 ∧ SameBut [(.adcTiaGainShadow, faceOf n, a)] u t) ∧
    (∀ up, r.kind = .trim up → ∃ t, exec (.spiTransactionDone n miso) s = .next t ∧
      t.rd .ptrimShadow (faceOf n) 0 = r.bytes.getD 2 0 % 2 ^ 8 ∧ SameBut [(.ptrimShadow, faceOf n, 0)] u t) ∧
    ∀ o, r.kind = .host o → ∃ t, exec (.spiTransactionDone n miso) s = .next t ∧
      (∀ k ∈ t.inflight, k.isFor o = false) ∧
      (∀ q, s.inflight.any (·.isFor o) = true → Cells.find o.ring s.rings = some q →
        t.compl = s.compl ++ [⟨o.fn, o.ring, q.cq, 0x18, o.tag.toNat, 0,
          miso.toNat % 2 ^ (8 * bits o.arg0.toNat 7 4), o.irqNow, o.die⟩])

/-- POWER_TRIM at an SF count that is a multiple of 256, of an enabled trim on a present site, with the interval's TX_TAP mean outside
the dead band: one write toward the target is queued, or at an end of the range ptrim_rail sets; the interval's sum starts anew. That
a higher trim raises TX_TAP is the model's choice (log entry 62). SITE_PRESENCE_CHANGE shows in site_present and present_changed with
one event; an absent site's loops are OFF, its SPI queues empty, OE_TXDIS asserted with cause 1. OE_FAULT sets fault and fault_sticky
with one event, asserting OE_TXDIS with cause 2 where fault_autodis is set on a present site; OE_FAULT_END clears fault. TXDIS_RELEASE
with no cause left and 64 complete SFs sent clears txdis_state. BIAS_CHIP_BOUNDARY at a multiple of chip_sf, of a loop in ACQUIRE or
TRACK that runs and is in a chip before the fourth: the chip closes and the number advances; where too few samples came, the period is
void. A loop in OFF or HOLD has no chips. Completes: POWER_TRIM, SITE_PRESENCE_CHANGE, OE_FAULT, OE_FAULT_END, TXDIS_RELEASE,
BIAS_CHIP_BOUNDARY. -/
def Obligations.SiteTrimPresenceFaultReleaseAndBiasChips : Prop :=
  (∀ (n : Fin 4) (s : State), s.hasCarrier n = true →
    let d := faceOf n
    let k := s.rd .trimCount d
    let sum := s.rd .trimSum d
    let want := s.rd .ptrimTarget d * k
    let dead := s.rd .ptrimDead d * 8 * k
    let clears := regsAt d 0 [.trimSum, .trimCount]
    (s.sf % 256 = 0 → s.on .ptrimEn d = true → s.on .sitePresent d = true →
      (sum + dead < want → s.rd .ptrimShadow d ≠ 255 → ∃ t, exec (.powerTrim n) s = .next t ∧ t.rd .trimCount d = 0 ∧
        SameBut clears { s with spi := s.spi ++ [⟨d, .trim true, []⟩] } t) ∧
      (want + dead < sum → s.rd .ptrimShadow d ≠ 0 → ∃ t, exec (.powerTrim n) s = .next t ∧ t.rd .trimCount d = 0 ∧
        SameBut clears { s with spi := s.spi ++ [⟨d, .trim false, []⟩] } t) ∧
      (sum + dead < want → s.rd .ptrimShadow d = 255 →
        ∃ t, exec (.powerTrim n) s = .next t ∧ t.on .sitePtrimRail d = true ∧ t.spi = s.spi)) ∧
    (∀ present : Bool, s.on .sitePresent d ≠ present →
      ∃ t, exec (.sitePresenceChange n present) s = .next t ∧ t.on .sitePresent d = present ∧
        t.on .sitePresentChanged d = true ∧ t.tally = s.tally ∧
        (present = true → t.events = (s.raiseField .sitePresent d).events ∧ t.spi = s.spi) ∧
        (present = false → t.rd .loopState d 0 = 0 ∧ t.rd .loopState d 1 = 0 ∧ t.on .siteTxdisState d = true ∧
          t.rd .siteTxdisCause d = 1 ∧ (∀ r ∈ t.spi, r.die ≠ d) ∧ ∀ r ∈ t.spiActive, r.die ≠ d)) ∧
    (s.on .siteFault d = false →
      ∃ t, exec (.oeFault n) s = .next t ∧ t.on .siteFault d = true ∧ t.on .siteFaultSticky d = true ∧
        (s.on .dacFaultAutodis d = true → s.on .sitePresent d = true →
          t.on .siteTxdisState d = true ∧ t.rd .siteTxdisCause d = 2) ∧
        SameBut (regsAt d 0 [.siteFault, .siteFaultSticky, .siteTxdisState, .siteTxdisCause, .spiLow, .txdisDrive, .dacUp, .dacSent,
          .dacPart]) (s.raiseField .siteFault d) t) ∧
    (s.on .siteFault d = true → ∃ t, exec (.oeFaultEnd n) s = .next t ∧ t.on .siteFault d = false ∧
      SameBut (regsAt d 0 [.siteFault, .siteTxdisState, .siteTxdisCause, .spiLow, .txdisDrive, .dacUp, .dacSent, .dacPart]) s t) ∧
    (s.txdisCause d = 0 → 64 ≤ s.rd .dacSent d →
      ∃ t, exec (.txdisRelease n) s = .next t ∧ t.on .siteTxdisState d = false ∧ t.rd .siteTxdisCause d = 0 ∧
        SameBut (regsAt d 0 [.siteTxdisState, .siteTxdisCause]) s t)) ∧
  (∀ (n : Fin 4) (p : Fin 2) (s : State),
    let d := faceOf n
    (s.rd .loopState d p < 2 → exec (.biasChipBoundary n p) s = .next s) ∧
    (2 ≤ s.rd .loopState d p → s.sf % max 1 (s.rd .loopChipSf d p) = 0 → s.rd .biasChipAt d p ≠ s.sf + 1 → s.loopsRun d = true →
      s.on .biasWait d p = false → s.on .biasModePend d p = false → s.rd .biasChip d p < 3 →
      ∃ t, exec (.biasChipBoundary n p) s = .next t ∧ t.rd .biasChip d p = s.rd .biasChip d p + 1 ∧ t.rd .biasSum d p = 0 ∧
        (2 * s.rd .biasGood d p < max 1 (s.rd .loopSamplesPerChip d p) → t.on .biasVoid d p = true) ∧
        t.rd .loopState d p = s.rd .loopState d p ∧ t.spi = s.spi ∧ t.tally = s.tally))

/-- SIGNAL_DETECTED with los 0 for 256 SF and no warm window open moves SIGNAL_DETECT to CD_SCAN; CD_SCAN_DONE, once the search has
lasted its time, holds a value that the search can find, or cd_set at once in FIXED mode, and moves to FREQ_ACQ; FREQ_ACQ_DONE of an
offset in range holds it and moves to EQ_CONVERGE; EQ_CONVERGED after 512 SF below the convergence limit, with the symbol rates
within 100 ppm, and TRAIN_LOCK_DONE after 4 SF at one position, with the far subcarriers and roll-off those of the receive set, move on with nothing else changed;
PHASE_LOCK_DONE after 64 SF without an outlier enters TRACK and raises RX_LOCK. Every move is stamped with the package tally, and a
carrier in another state, or whose condition is not met, is left as it is. Completes: SIGNAL_DETECTED, CD_SCAN_DONE, FREQ_ACQ_DONE,
EQ_CONVERGED, TRAIN_LOCK_DONE, PHASE_LOCK_DONE. -/
def Obligations.AcquisitionAdvancesStampedToTrack : Prop :=
  ∀ (n : Fin 4) (s : State), s.tally < 2 ^ 68 →
    let d := faceOf n
    let moves (i : Instr) (st : Nat) (P : State → Prop) : Prop :=
      ∃ t, exec i s = .next t ∧ t.acq n = st ∧ t.rd .acqStamp d = s.tally ∧ P t
    let own (l : List Fld) : List Reg := regsAt d 0 (acqRuns ++ [.acqState, .acqStamp] ++ l)
    (s.acq n = 1 → s.on .acqLos d = false → s.warmOpen n = false → 256 ≤ s.rd .sigRun d →
      moves (.signalDetected n) 2 (Counted (own [.cdcFftActive]) s)) ∧
    (∀ v : BitVec 16, s.acq n = 2 →
      let r := s.cdRange n
      let kept (t : State) : Prop := Counted (own [.cdcCdEst, .cdcValue, .cdcShare, .acqRateChange, .cdUpdSf, .cdcFftActive]) s t
      (s.rd .cdcCdMode d ≠ 2 → searchSf (coarseTrials r.1 r.2) * sfLen ≤ s.acqFor n → searchFinds r v.toInt = true →
        moves (.cdScanDone n v) 3 fun t => t.rd .cdcCdEst d = v.toNat ∧ t.rd .cdcValue d = v.toNat ∧ kept t) ∧
      (s.rd .cdcCdMode d = 2 → s.rd .cdcCdSet d < 2 ^ 16 →
        moves (.cdScanDone n v) 3 fun t => t.rd .cdcCdEst d = s.rd .cdcCdSet d ∧ kept t) ∧
      (s.rd .cdcCdMode d ≠ 2 → searchFinds r v.toInt = false → exec (.cdScanDone n v) s = .next s)) ∧
    (∀ v : BitVec 16, s.acq n = 3 → s.freqInRange n v.toNat = true →
      moves (.freqAcqDone n v) 4 fun t => t.rd .crFreqOffset d = v.toNat ∧ Counted (own [.crFreqOffset]) s t) ∧
    (∀ ppm : BitVec 16, s.acq n = 4 →
      (ppm.toInt.natAbs ≤ 1000 → 512 ≤ s.rd .errLowRun d → moves (.eqConverged n ppm) 5 (Counted (own []) s)) ∧
      (1000 < ppm.toInt.natAbs → exec (.eqConverged n ppm) s = .next s)) ∧
    (∀ (sub : Fin 8) (ro : BitVec 7), s.acq n = 5 →
      let same := sub.val = s.rd .rxSubcarriers d ∧ ro.toNat = s.rd .rxRolloff d
      (same → 4 ≤ s.rd .trainRun d → moves (.trainLockDone n sub ro) 6 (Counted (own []) s)) ∧
      (¬same → exec (.trainLockDone n sub ro) s = .next s)) ∧
    (s.acq n = 6 → 64 ≤ s.rd .cleanRun d → moves (.phaseLockDone n) 7 fun t =>
      t.events = (s.raise Reason.rxLock (blkId d Dom.crdm)).events ∧ t.on .decChainRunning (millOf n) (n.val % 2) = true ∧
        t.tally = s.tally) ∧
    (s.acq n ≠ 4 → ∀ ppm, exec (.eqConverged n ppm) s = .next s) ∧
    (s.acq n ≠ 5 → ∀ sub ro, exec (.trainLockDone n sub ro) s = .next s) ∧
    (s.acq n ≠ 6 → exec (.phaseLockDone n) s = .next s)

/-- ACQ_FAIL at the limit of CD_SCAN (4,096 SF), FREQ_ACQ (2,048), EQ_CONVERGE (16,384), TRAIN_LOCK (2,048) or PHASE_LOCK
(1,024): the carrier is in SIGNAL_DETECT, acq_failures counts, last_fail_state holds the failed state and ACQ_FAIL is raised.
LOS_SET after 16 SF below los_thresh sets los with one event, counting a failure from those states and leaving TRACK from TRACK;
LOS_CLEAR after 16 SF at or above it clears los with one event, and restarts warm within the window. ACQ_RESTART marks the restart,
and at the SF boundary a carrier that is not OFF is in SIGNAL_DETECT without a failure, its dispersion and frequency discarded. RX_LOCK_LOST in TRACK, for a cause that holds,
sets lock_lost, opens the warm window and raises RX_LOCK_LOST; for one that does not hold it changes nothing. Completes: ACQ_FAIL, LOS_SET,
LOS_CLEAR, ACQ_RESTART, RX_LOCK_LOST. -/
def Obligations.AcquisitionFailuresAndLossesReturnToDetect : Prop :=
  ∀ (n : Fin 4) (s : State),
    let d := faceOf n
    let failed (t : State) : Prop := t.acq n = 1 ∧ t.rd .acqFailures d = min (s.rd .acqFailures d + 1) 0xFFFF ∧
      t.rd .acqLastFailState d = s.acq n
    (∀ k, acqLimit (s.acq n) = some k → s.rd .acqStamp d + k * sfLen ≤ s.tally →
      ∃ t, exec (.acqFail n) s = .next t ∧ failed t ∧
        Counted (regsAt d 0 (acqRuns ++ [.acqState, .acqStamp, .acqFailures, .acqLastFailState, .acqWarm, .warmUntil]))
          (s.raise Reason.acqFail (blkId d Dom.crdm) (s.acq n)) t) ∧
    (s.on .acqLos d = false → 16 ≤ s.rd .losLow d →
      (s.acq n < 2 → ∃ t, exec (.losSet n) s = .next t ∧ t.on .acqLos d = true ∧
        Counted [(.acqLos, d, 0)] (s.raiseField .acqLos d) t) ∧
      (2 ≤ s.acq n → s.acq n ≤ 6 → ∃ t, exec (.losSet n) s = .next t ∧ t.on .acqLos d = true ∧ failed t) ∧
      (s.acq n = 7 → ∃ t, exec (.losSet n) s = .next t ∧ t.on .acqLos d = true ∧ t.acq n = 1 ∧ t.on .acqLockLost d = true ∧
        t.rd .acqFailures d = s.rd .acqFailures d)) ∧
    (s.on .acqLos d = true → 16 ≤ s.rd .losHigh d →
      (s.acq n ≠ 1 ∨ s.warmOpen n = false → ∃ t, exec (.losClear n) s = .next t ∧ t.on .acqLos d = false ∧
        Counted [(.acqLos, d, 0)] (s.raiseField .acqLos d) t) ∧
      (s.acq n = 1 → s.warmOpen n = true → ∃ t, exec (.losClear n) s = .next t ∧ t.on .acqLos d = false ∧ t.acq n = 5 ∧
        t.on .acqWarm d = true)) ∧
    (∀ w fs, s.dieAccess d (Fld.offsetAt .acqRestart 0) = .word w fs →
      ∃ t, exec (.acqRestart n) s = .next t ∧ t.on .acqRestartPend d = true ∧ SameBut [(.acqRestartPend, d, 0)] s t) ∧
    (∀ peaks clips rx, s.hasCarrier n = true → s.on .acqRestartPend d = true → s.acq n ≠ 0 →
      ∃ t, exec (.ovrSfLatch n peaks clips rx) s = .next t ∧ t.acq n = 1 ∧ t.on .acqRestartPend d = false ∧
        t.on .acqWarm d = false ∧ t.rd .cdcCdEst d = 0 ∧ t.rd .cdcValue d = 0 ∧ t.rd .crFreqOffset d = 0 ∧
        t.rd .acqFailures d = s.rd .acqFailures d ∧ t.events = s.events) ∧
    (∀ cause,
      let holds : Prop := match cause with
        | .los => s.on .acqLos d = true
        | .training => 8 ≤ s.rd .trainMiss d
        | .freq => 2400 < (s.rdInt .crFreqOffset d).natAbs
        | .divergence => 16 ≤ s.rd .errHighRun d
      (s.acq n = 7 → holds →
        ∃ t, exec (.rxLockLost n cause) s = .next t ∧ t.acq n = 1 ∧ t.on .acqLockLost d = true ∧
          (s.sf + 64 * 255 < 2 ^ 48 → s.rd .acqWarmWindow d ≤ 255 →
            t.rd .warmUntil d = if s.rd .acqWarmWindow d = 0 then 0 else s.sf + s.rd .acqWarmWindow d * 64) ∧
          t.events = (s.raise Reason.rxLockLost (blkId d Dom.crdm)).events ∧
          t.on .decChainRunning (millOf n) (n.val % 2) = false) ∧
      (¬holds → exec (.rxLockLost n cause) s = .next s))

/-- CD_EST_UPDATE once the search has ended and 256 SF after the last: cd_est is the applied dispersion plus the residual, in 16 bits;
with frozen taps it stays. In TRACK with a decision window, a jump above a quarter of pi on a subcarrier in use: the first candidate
keeps its start and rotation, a later one adds to the rotation. At a pilot of the subcarrier, a net rotation within a quarter of pi of the phase error,
not 0, with slip detection on counts as a slip of its polarisation and leaves a record; a candidate that is not confirmed is
dropped; a pilot without a candidate that is off by a quarter turn counts as an outlier. Subcarriers that are not in use, and jumps of at most a quarter of
pi, change nothing. Completes: CD_EST_UPDATE, SLIP_CANDIDATE, PILOT_CHECK. -/
def Obligations.DispersionUpdatesAndSlipsAreConfirmed : Prop :=
  (∀ (n : Fin 4) (r : BitVec 16) (s : State), 3 ≤ s.acq n → s.rd .cdUpdSf (faceOf n) + 256 ≤ s.sf →
    let d := faceOf n
    (s.on .eqFrozen d = false → ∃ t, exec (.cdEstUpdate n r) s = .next t ∧
      t.rd .cdcCdEst d = ofInt 16 (toInt 16 (s.rd .cdcValue d) + r.toInt) ∧
      SameBut (regsAt d 0 [.cdcCdEst, .cdUpdSf, .nlcXiCurrent, .nlcStepsActive, .nlcActive, .cdcShare]) { s with nlc := t.nlc } t) ∧
    (s.on .eqFrozen d = true → ∃ t, exec (.cdEstUpdate n r) s = .next t ∧ SameBut [(.cdUpdSf, d, 0)] s t)) ∧
  ∀ (n : Fin 4) (pol : Fin 2) (sub : Fin 16) (s : State),
    let d := faceOf n
    let i := streamIx pol sub
    let nsub := s.subcarriers n
    (∀ (jump : BitVec 16) (start : BitVec 20), s.acq n = 7 → s.rd .crDdWin d ≠ 0 →
      (sub.val < nsub → 8192 < jump.toInt.natAbs →
        (s.on .candOn d i = false →
          ∃ t, exec (.slipCandidate n pol sub jump start) s = .next t ∧ t.on .candOn d i = true ∧ t.rd .candK d i = turnsOf jump ∧
            t.rd .candStart d i = start.toNat ∧ SameBut (regsAt d i [.candOn, .candK, .candStart]) s t) ∧
        (s.on .candOn d i = true →
          ∃ t, exec (.slipCandidate n pol sub jump start) s = .next t ∧ t.rd .candK d i = (s.rd .candK d i + turnsOf jump) % 4 ∧
            SameBut [(.candK, d, i)] s t)) ∧
      (nsub ≤ sub.val ∨ jump.toInt.natAbs ≤ 8192 → exec (.slipCandidate n pol sub jump start) s = .next s)) ∧
    ∀ (err : BitVec 16) (dist : BitVec 32) (sf : BitVec 48) (pilot : BitVec 20), 6 ≤ s.acq n → sub.val < nsub →
      fixesPhase nsub sub pilot.toNat = true →
      let k := s.rd .candK d i
      let start := s.rd .candStart d i
      let est := regsAt d i [.crStep, .crEst, .noiseEst, .noiseSum, .noiseCnt, .noiseLf]
      let cands := regsAt d i [.candOn, .candK, .candStart]
      (s.on .candOn d i = false → [1, 2, 3].any (nearTurn err) = true →
        ∃ t, exec (.pilotCheck n pol sub err dist sf pilot) s = .next t ∧
          t.rd .slipPilotOutliers d = min (s.rd .slipPilotOutliers d + 1) (2 ^ 32 - 1) ∧
          Counted ((.slipPilotOutliers, d, 0) :: (.outlierSeen, d, 0) :: est) { s with pilots := t.pilots } t) ∧
      (s.on .candOn d i = true → nearTurn err k = true → k ≠ 0 → s.on .crSlipDetEn d = true →
        let c : Fld := if pol = 0 then .slipSlipsX else .slipSlipsY
        ∃ t, exec (.pilotCheck n pol sub err dist sf pilot) s = .next t ∧ t.on .candOn d i = false ∧
          t.rd c d = min (s.rd c d + 1) 0xFFFF ∧
          t.slipRecs = s.slipRecs ++ [⟨n, pol, sub, k, if start ≤ pilot.toNat then sf.toNat else sf.toNat - 1, start,
            if start ≤ pilot.toNat then pilot.toNat else sfLen⟩] ∧
          Counted ((c, d, 0) :: cands ++ est) { s with slipRecs := t.slipRecs, pilots := t.pilots } t) ∧
      (s.on .candOn d i = true → nearTurn err k = false ∨ k = 0 →
        ∃ t, exec (.pilotCheck n pol sub err dist sf pilot) s = .next t ∧ t.on .candOn d i = false ∧
          Counted (cands ++ est) { s with pilots := t.pilots } t)

/-- POSITION_COMPLETE in TRACK of a carrier whose chain runs, with a position's symbols, from the first position of an SF on, and no slip correction waiting, queues
the position, waiting, with the words of its symbols and the tally; otherwise nothing changes. POSITION_DISPATCH gives the oldest position of the die that may be taken to a
free engine in service, a token paying for one decoded again, and changes nothing else. ITERATION_END adds one to the iterations and to iter_sum; a position with its least
iterations done, its own checks and those after it satisfied, finishes converged; one that stays unconverged at its greatest count finishes; below its cap it runs on; with its checks satisfied and the next two positions
not there it waits. POSITION_RELEASE, 2^19 symbols after completion, takes the carrier's oldest position from the
pool and counts it, as shed where it has not finished. Completes: POSITION_COMPLETE, POSITION_DISPATCH, ITERATION_END, POSITION_RELEASE. -/
def Obligations.PositionsQueueDispatchIterateRelease : Prop :=
  (∀ (n : Fin 4) (sf : BitVec 48) (j : Fin 252) (syms : List RxSym) (first : Nat) (s : State),
    let d := millOf n
    let c := n.val % 2
    let r := s.rxRateAt n sf.toNat
    let ready := s.acq n = 7 ∧ s.on .decChainRunning d c = true ∧ syms.length = posLen ∧ (s.on .chainWait d c = true → j = 0)
    (ready → s.slipFixes = [] →
      ∃ t p, exec (.positionComplete n sf j syms first) s = .next t ∧ t.pool = s.pool ++ [p] ∧ p.n = n.val ∧
        p.sf = sf.toNat ∧ p.j = j.val ∧ p.done = s.tally ∧ p.phase = .waiting ∧ p.iters = 0 ∧ p.cls = r.cls ∧ p.code = r.code ∧
        p.llrs = (s.demap n r.cls (composition r.cls r.h) (s.subcarriers n) sf.toNat (posLen * j) syms).2 ∧
        t.tally = s.tally) ∧
    (¬ready → exec (.positionComplete n sf j syms first) s = .next s)) ∧
  (∀ (m : Fin 2) (e : Fin 68) (s : State) l p r, s.engReady (millAt m) e = true →
    (∀ q ∈ s.pool, ¬(millOf q.n = millAt m ∧ q.phase = .decoding e)) → s.pool = l ++ p :: r →
    (∀ q ∈ l, s.takes (millAt m) q = false) → s.takes (millAt m) p = true →
    exec (.positionDispatch m e) s = .next { (if p.redecoding then s.payOvertime p else s) with
      pool := l ++ { p with phase := .decoding e, engine := e, start := s.tally, overtime := p.overtime + b2n p.redecoding } :: r }) ∧
  (∀ (m : Fin 2) (e : Fin 68) (s : State) p,
    let here (q : Pos) : Bool := millOf q.n == millAt m && q.phase == .decoding e
    s.pool.find? here = some p → p.waits = false →
    let u := s.iterated here p
    let d := millAt m
    let c := p.n % 2
    (∀ mis, ∃ t, exec (.iterationEnd m e mis) s = .next t ∧ t.rd .decIterSum d c = (s.rd .decIterSum d c + 1) % 2 ^ 32 ∧
      t.tally = s.tally ∧ t.pool.length = s.pool.length) ∧
    ∀ l q r, u.pool = l ++ q :: r → (∀ x ∈ l, here x = false) → here q = true →
      let k := u.decCode q
      let least := max 1 (s.rd .etMinAct d) ≤ q.iters
      let ended (ok : Bool) : Pos :=
        { q with phase := .finished, converged := ok, waits := false, fin := s.tally, cap := s.rd .decCapEffective d c }
      let ends (x : Pos) : Prop := ∃ t, exec (.iterationEnd m e false) s = .next t ∧ t.pool = l ++ x :: r
      q.iters = p.iters + 1 ∧
      (least → u.allSatisfied k q = true → u.followed q = true → ends (ended true)) ∧
      (least → u.allSatisfied k q = true → u.followed q = false → ends { q with waits := true }) ∧
      (u.allSatisfied k q = false → max 8 (s.rd .iterMaxAct d) ≤ q.iters → ends (ended false)) ∧
      (u.allSatisfied k q = false → q.iters < max 8 (s.rd .iterMaxAct d) → q.iters < s.rd .decCapEffective d c →
        q.redecoding = false → ends { q with waits := false })) ∧
  ∀ (n : Fin 4) (s : State) p, s.pool.find? (·.n == n.val) = some p →
    let d := millOf n
    let c := n.val % 2
    (s.tally < p.done + 2 ^ 19 → exec (.positionRelease n) s = .next s) ∧
    (p.done + 2 ^ 19 ≤ s.tally →
      ∃ t, exec (.positionRelease n) s = .next t ∧ t.pool = s.pool.erase p ∧
        t.rd .decReleased d c = (s.rd .decReleased d c + 1) % 2 ^ 32 ∧
        (p.phase ≠ .finished → t.rd .decShedBlocks d c = min (s.rd .decShedBlocks d c + 1) (2 ^ 32 - 1)) ∧
        (p.phase = .finished → t.rd .decShedBlocks d c = s.rd .decShedBlocks d c) ∧ t.tally = s.tally)

/-- OT_TOKEN_RELOAD sets ot_tokens to ot_grant and takes up the pool's configuration. KAT_TEST that is enabled and due: after 256 SF without an opportunity it counts
in kat_skipped; while the die sheds it waits; the right answer of the next engine counts nothing; a wrong one is a self-check failure. SLIP_RECORD takes the
carrier's oldest record; where no position that it names has been taken by an engine, its positions are corrected, it counts once as corrected in
the queue, and it waits for those that still fill. FEC_PHASE_WINDOW after four SF of tests adopts the one phase
that their mismatch counts give, and without far_valid the hunt for a frame may begin; with far_valid the far value stands, a differing phase raising
FEC_PHASE with the far SF; counts that give none only end the window, and with fewer tests nothing changes. Completes: OT_TOKEN_RELOAD, KAT_TEST, SLIP_RECORD,
FEC_PHASE_WINDOW. -/
def Obligations.TokensKnownAnswersSlipRecordsAndPhaseHunt : Prop :=
  (∀ (m : Fin 2) (s : State),
    let d := millAt m
    let pairs : List (Fld × Fld) := [(.poolOtTokens, .poolOtGrant), (.highAct, .poolHighMark), (.lowAct, .poolLowMark),
      (.shedStepAct, .poolShedStep), (.shedMinAct, .poolShedMinIter), (.iterMaxAct, .poolIterMaxOt), (.otEnableAct, .poolOtEnable),
      (.etMinAct, .poolEtMin), (.katEnAct, .poolKatEn), (.katPeriodAct, .poolKatPeriod)]
    ∃ t, exec (.otTokenReload m) s = .next t ∧
      (∀ p ∈ pairs, s.rd p.2 d < 2 ^ p.1.row.width → t.rd p.1 d = s.rd p.2 d) ∧ SameBut (regsAt d 0 (pairs.map (·.1))) s t) ∧
  (∀ (m : Fin 2) (answer : List Bool) (s : State),
    let d := millAt m
    let period := s.rd .katPeriodAct d * 256
    s.on .katEnAct d = true → period ≠ 0 → s.rd .katServed d ≠ s.sf / period * period + 1 →
    (256 ≤ s.sf % period → ∃ t, exec (.katTest m answer) s = .next t ∧
      t.rd .selfchkKatSkipped d = min (s.rd .selfchkKatSkipped d + 1) 0xFFFF ∧
      SameBut (regsAt d 0 [.katServed, .selfchkKatSkipped]) s t) ∧
    (s.sf % period < 256 → s.dieSheds d = true → exec (.katTest m answer) s = .next s) ∧
    ∀ e, s.sf % period < 256 → s.dieSheds d = false → s.nextKat d = some e →
      (answer.map b2n = katPayload → ∃ t, exec (.katTest m answer) s = .next t ∧ t.rd .katNext d = (e + 1) % 68 ∧
        SameBut (regsAt d 0 [.katServed, .katNext]) s t) ∧
      (answer.map b2n ≠ katPayload → ∃ t, exec (.katTest m answer) s = .next t ∧
        t.rd .selfchkFail d = min (s.rd .selfchkFail d + 1) 0xFFFF ∧ t.rd .katNext d = (e + 1) % 68)) ∧
  (∀ (n : Fin 4) (s : State) r, s.slipRecs.find? (·.n == n.val) = some r →
    let nsub := s.subcarriers n
    let fills := s.stillFills r nsub
    (∀ p ∈ s.pool, r.touches p nsub = true → p.phase = .waiting ∧ p.redecoding = false) →
    ∃ t, exec (.slipRecord n) s = .next t ∧ t.slipRecs = s.slipRecs.erase r ∧
      t.slipFixes = (if fills then s.slipFixes ++ [r] else s.slipFixes) ∧
      t.pool = s.pool.map (fun p => if r.touches p nsub then p.corrected r nsub else p) ∧
      (fills = true ∨ (∃ p ∈ s.pool, r.touches p nsub = true) →
        t.rd .slipCorrQueue (millOf n) (n.val % 2) = min (s.rd .slipCorrQueue (millOf n) (n.val % 2) + 1) (2 ^ 32 - 1))) ∧
  ∀ (n : Fin 4) (s : State),
    let d := millOf n
    let c := n.val % 2
    let r := s.rxRate .live n
    let period := phasePeriod r.cls r.code
    let x := (Cells.find n.val s.rxLine).getD {}
    let found := adoptPhase period (phaseCounts r.cls r.code ((x.tests.getLast?.map (·.sf)).getD 0)
      (x.tests.drop (x.tests.length - phaseWindow)))
    let u : State := { s with rxLine := Cells.put n.val { x with tests := [] } s.rxLine }
    (s.on .decChainRunning d c = false ∨ period = 1 ∨ x.tests.length < phaseWindow → exec (.fecPhaseWindow n) s = .next s) ∧
    (s.on .decChainRunning d c = true → period ≠ 1 → phaseWindow ≤ x.tests.length →
      (found = none → exec (.fecPhaseWindow n) s = .next u) ∧
      ∀ k, found = some k →
        let live := s.rd .farLiveSf d c
        (s.on .farValid d c = false →
          ∃ t, exec (.fecPhaseWindow n) s = .next t ∧ t.on .decPhaseKnown d c = true ∧ t.rd .decPhase d c = (k + period - 1) % period ∧
            SameBut (regsAt d c [.decPhaseKnown, .decPhase, .frmState, .huntPos, .huntSince]) u t) ∧
        (s.on .farValid d c = true →
          ∃ t, exec (.fecPhaseWindow n) s = .next t ∧ t.on .decPhaseKnown d c = true ∧ t.rd .decPhase d c = live % period ∧
            ((k + period - 1) % period = live % period → t.events = s.events) ∧
            ((k + period - 1) % period ≠ live % period → t.on .decPhaseConflict d c = true ∧
              t.events = (s.raise Reason.fecPhase (blkId d Dom.frame c) 0 0 (some live)).events)))

/-- TX_LINE_FRAME of a carrier that transmits, its DACs not paused: the line frame due at the tally goes out with the superframe and its
number, coded where the coded-bit queue holds it, else filled with tx_underrun counting; a coded LF 0 sends the SF overhead that the state gives and
takes the oldest message byte. A carrier that does not transmit sends none; while the DACs pause the chain only notes it.
SF_OVERHEAD_RECEIVED in SYNC with a failed crc counts in oh_crc_errors and changes nothing announced; on the first one it ends
a false sync. With a good crc, in the shaping phase or past the first, the carrier holds the announced far SF, group ID, member index, member count and frame pointer, the run of
failed overheads starts again, and a message byte reaches the receive FIFO while it holds fewer than 64; a first one out of phase ends a
false sync. FAR_SF_ARRIVAL of a chain that runs: with far_valid it records the number of the boundary and the tally as its arrival; with no
number known the shaping phase steps. Completes: TX_LINE_FRAME, SF_OVERHEAD_RECEIVED, FAR_SF_ARRIVAL. -/
def Obligations.LineFramesOverheadsAndFarBoundaries : Prop :=
  (∀ (n : Fin 4) (frames : List (List (List Byte))) (s : State),
    let f := faceOf n
    let lf := s.sfOff / lfLen
    let r := s.txRate .live n
    let x := s.txLineOf n
    let b := if lf = 0 then s.lineBegin n r else (s, x)
    let y : TxLine := { b.2.feed r.m frames with sf := s.sf, lf := lf }
    let holds := b.1.lineHolds n r y (decide (lf = 0) || (x.whole && x.sf == s.sf && x.lf + 1 == lf))
    (s.lineOn n = false → exec (.txLineFrame n frames) s = .next s) ∧
    (s.lineOn n = true → s.on .dacPause f = true → exec (.txLineFrame n frames) s = .next { s with
      txLine := Cells.put n.val { x with paused := x.paused || x.whole, whole := false } s.txLine }) ∧
    (s.lineOn n = true → s.on .dacPause f = false →
      ∃ t, exec (.txLineFrame n frames) s = .next t ∧
        (∃ g, Cells.find n.val t.lfOut = some g ∧ g.sf = s.sf ∧ g.lf = lf ∧ g.filled = !holds) ∧ t.tally = s.tally ∧
        (holds = false → t.rd .winzTxUnderrun f = min (s.rd .winzTxUnderrun f + 1) (2 ^ 32 - 1) ∧ t.msgTx = s.msgTx) ∧
        (holds = true → t.rd .winzTxUnderrun f = s.rd .winzTxUnderrun f) ∧
        (holds = true → lf = 0 →
          let a := b.1.annEnds n
          let o := a.otucPtr r y
          t.msgTx = (popFor n s.msgTx).2 ∧ Cells.find n.val t.ohOut = some (a.overheadOf n (popFor n s.msgTx).1 o.1 o.2)))) ∧
  (∀ (n : Fin 4) (oh : BitVec 256) (s : State),
    let d := millOf n
    let c := n.val % 2
    let inPhase : Bool := ohField oh 0 47 % 64 == s.rd .frmShapePhase d c || s.anyPhase n
    let first := s.on .ohFirst d c = true
    let ends : Prop := ∃ t, exec (.sfOverheadReceived n oh) s = .next t ∧ t.rd .frmState d c = (if s.acq n = 7 then 1 else 0) ∧
      t.rd .frmFalseSync d c = min (s.rd .frmFalseSync d c + 1) 0xFFFF
    s.rd .frmState d c = 3 →
    (overheadCrc oh ≠ ohField oh 240 255 → ¬first →
      ∃ t, exec (.sfOverheadReceived n oh) s = .next t ∧
        t.rd .frmOhCrcErrors d c = min (s.rd .frmOhCrcErrors d c + 1) (2 ^ 32 - 1) ∧
        Counted (regsAt d c [.frmOhCrcErrors, .ohBad, .ohSince, .annRun, .cancelRun, .keyAnnRun, .keyCancelRun, .rxOtucPtr,
          .rxOtucMfas]) s t) ∧
    (overheadCrc oh ≠ ohField oh 240 255 → first → ends) ∧
    (overheadCrc oh = ohField oh 240 255 → first → inPhase = false → ends) ∧
    (overheadCrc oh = ohField oh 240 255 → ¬first ∨ inPhase = true →
      ∃ t, exec (.sfOverheadReceived n oh) s = .next t ∧ t.rd .farLastAnn d c = ohField oh 0 47 ∧
        t.rd .frmGroupIdSeen d c = ohField oh 48 55 ∧ t.rd .frmMemberIdxSeen d c = ohField oh 56 57 ∧
        t.rd .frmMemberCntSeen d c = ohField oh 58 59 ∧ t.rd .rxOtucPtr d c = ohField oh 178 199 ∧ t.rd .ohBad d c = 0 ∧
        t.rd .frmOhCrcErrors d c = s.rd .frmOhCrcErrors d c ∧ t.tally = s.tally ∧
        (ohField oh 89 89 = 0 → t.msgRx = s.msgRx) ∧
        (ohField oh 89 89 = 1 → (s.msgRx.filter (·.1 == n.val)).length < 64 →
          t.msgRx = s.msgRx ++ [(n.val, BitVec.ofNat 8 (ohField oh 208 215))]))) ∧
  ∀ (n : Fin 4) (s : State),
    let d := millOf n
    let c := n.val % 2
    (s.on .decChainRunning d c = false → exec (.farSfArrival n) s = .next s) ∧
    (s.on .decChainRunning d c = true → s.on .farValid d c = true → s.tally < 2 ^ 68 →
      ∃ t, exec (.farSfArrival n) s = .next t ∧
        t.rd .farLiveSf d c = (s.rd .farLastAnn d c + s.rd .ohSince d c + 1) % 2 ^ 48 ∧ t.rd .farLiveArr d c = s.tally ∧
        t.on .farHasArr d c = true ∧ t.tally = s.tally) ∧
    (s.on .decChainRunning d c = true → s.on .farValid d c = false → s.on .farHasArr d c = false →
      ∃ t, exec (.farSfArrival n) s = .next t ∧ t.rd .frmShapePhase d c = (s.rd .frmShapePhase d c + 1) % 64 ∧
        SameBut (regsAt d c [.frmShapePhase, .sweepRun, .decPhase]) s t)

/-- FRAME_HUNT: with the pattern of the line frame and of the three after it, each cut to its reckoned length, at one of the 4,096 offsets
looked at, the offset is the candidate to confirm (state 2); with none the hunt moves on 4,096 offsets. MYMOS_SYNC confirms a candidate in the
final data: state SYNC at that offset with MYMOS_SYNC raised; an unconfirmed one resumes the hunt after it. MYMOS_LOF in SYNC for a cause
that holds sets its sticky bit and counts, clears far_valid, and hunts on; for one that does not hold nothing changes. SHAPE_SWEEP_WINDOW after four far SFs takes the next of 64
candidates; SHAPE_UNLOCK after 64 SF of hunting unlocks the shaping phase. Completes: FRAME_HUNT, MYMOS_SYNC, MYMOS_LOF,
SHAPE_SWEEP_WINDOW, SHAPE_UNLOCK. -/
def Obligations.FrameHuntSyncLossAndShapeSweep : Prop :=
  ∀ (n : Fin 4) (s : State),
    let d := millOf n
    let c := n.val % 2
    (∀ (lf : Fin 64) looks, s.rd .frmState d c = 1 →
      let len := max 1 (s.rxLfLength n 2 lf)
      let found := ((List.range (min 4096 len)).map fun i => (s.rd .huntPos d c + i) % len).find? fun r =>
        patternRun lf r (s.cutLfs n 2 lf looks)
      (∀ r, found = some r → r < 2 ^ 18 →
        ∃ t, exec (.frameHunt n lf looks) s = .next t ∧ t.rd .frmState d c = 2 ∧ t.rd .huntCand d c = r ∧
          t.rd .huntLf d c = lf ∧ SameBut (regsAt d c [.frmState, .huntCand, .huntLf]) s t) ∧
      (found = none → len < 2 ^ 18 →
        ∃ t, exec (.frameHunt n lf looks) s = .next t ∧ t.rd .huntPos d c = (s.rd .huntPos d c + 4096) % len ∧
          SameBut [(.huntPos, d, c)] s t)) ∧
    (∀ finals, s.rd .frmState d c = 2 → s.rd .huntCand d c < 2 ^ 18 →
      let k := s.rd .huntLf d c
      (patternRun k (s.rd .huntCand d c) (s.cutLfs n 0 k finals) = true →
        ∃ t, exec (.mymosSync n finals) s = .next t ∧ t.rd .frmState d c = 3 ∧
          t.rd .frmSyncOffset d c = s.rd .huntCand d c ∧ t.on .ohFirst d c = true ∧
          t.events = (s.raise Reason.mymosSync (blkId d Dom.frame c)).events) ∧
      (patternRun k (s.rd .huntCand d c) (s.cutLfs n 0 k finals) = false → s.acq n = 7 →
        ∃ t, exec (.mymosSync n finals) s = .next t ∧ t.rd .frmState d c = 1 ∧ t.events = s.events)) ∧
    (∀ cause, s.rd .frmState d c = 3 →
      (s.lofHolds n cause = true →
        ∃ t, exec (.mymosLof n cause) s = .next t ∧ t.on .frmLofSticky d c = true ∧ t.on .farValid d c = false ∧
          t.rd .frmLofCount d c = min (s.rd .frmLofCount d c + 1) 0xFFFF ∧
          t.rd .frmState d c = (if s.acq n = 7 then 1 else 0)) ∧
      (s.lofHolds n cause = false → exec (.mymosLof n cause) s = .next s)) ∧
    (s.on .decChainRunning d c = true → s.on .decPhaseKnown d c = true → s.on .frmShapeLocked d c = false →
      s.on .farValid d c = false → 4 ≤ s.rd .sweepRun d c →
      ∃ t, exec (.shapeSweepWindow n) s = .next t ∧ t.rd .sweepCand d c = (s.rd .sweepCand d c + 1) % 64 ∧
        t.rd .frmShapePhase d c = (s.rd .sweepCand d c + 1) % 64 ∧ t.rd .sweepRun d c = 0) ∧
    (s.rd .frmState d c = 1 ∨ s.rd .frmState d c = 2 → s.on .frmShapeLocked d c = true → s.rd .huntSince d c + 64 ≤ s.sf →
      ∃ t, exec (.shapeUnlock n) s = .next t ∧ t.on .frmShapeLocked d c = false ∧ t.rd .sweepCand d c = 0)

/-- MSG_TX_WRITE appends to a transmit FIFO of fewer than 64 bytes, and is discarded with an event when it is full.
MSG_RX_READ takes the carrier's oldest received byte. REF_RESTART marks the group for a new reference; REF_CLEAR after 256
SF without a member in service drops it. RELEASE_POSITION_MSG over a link that is up delivers the oldest position.
MEMBER_IN at the release of the SF at which a member returns puts it in service, counts and raises MEMBER_IN. GROUP_RELEASE
takes the latest far SF that is due. Completes: MSG_TX_WRITE, MSG_RX_READ, REF_RESTART, REF_CLEAR, RELEASE_POSITION_MSG, GROUP_RELEASE,
MEMBER_IN. -/
def Obligations.MessageFifosAndGroupReferences : Prop :=
  (∀ (m c : Fin 2) (b : Byte) (s : State) w fs, s.dieAccess (millAt m) (Fld.offsetAt .frmMsgTxData c) = .word w fs →
    let mine := s.msgTx.filter (·.1 == carrierOf m c)
    (mine.length < 64 →
      ∃ t, exec (.msgTxWrite m c b) s = .next t ∧ t.msgTx = s.msgTx ++ [(carrierOf m c, b)] ∧ t.events = s.events) ∧
    (64 ≤ mine.length →
      exec (.msgTxWrite m c b) s = .next (s.raiseField .frmMsgTxData (millAt m) c))) ∧
  (∀ (m c : Fin 2) (s : State) w fs, s.dieAccess (millAt m) (Fld.offsetAt .frmMsgRxData c) = .word w fs →
    ∃ t, exec (.msgRxRead m c) s = .next t ∧ t.msgRx = (popFor (carrierOf m c) s.msgRx).2 ∧ t.msgTx = s.msgTx ∧
      t.readData = s.wordOf (millAt m) .frmMsgRxData c) ∧
  (∀ (g : Fin 4) (s : State),
    (∃ t, exec (.refRestart g) s = .next t ∧ t.on .lgRestart .m0 g = true ∧ SameBut [(.lgRestart, .m0, g.val)] s t) ∧
    (s.on .lgRefValid .m0 g = true → s.rd .lgInService .m0 g = 0 → s.rd .lgIdleSince .m0 g + 256 ≤ s.sf →
      ∃ t, exec (.refClear g) s = .next t ∧ t.on .lgRefValid .m0 g = false ∧ ∀ e ∈ t.groupRef, e.1 ≠ g.val) ∧
    (∀ r, s.relMsgs.find? (·.1 == g.val) = some r → s.on .winzLinkUp .m0 2 = true →
      ∃ t, exec (.releasePositionMsg g) s = .next t ∧ t.rd .lgFarRelease .m0 g = r.2.1 % 2 ^ 48 ∧
        SameBut [(.lgFarRelease, .m0, g.val)] { s with relMsgs := s.relMsgs.erase r } t) ∧
    (∀ e, (s.groupRef.filter fun e => e.1 == g.val && decide (e.2.2 + s.groupW g ≤ s.tally)).getLast? = some e →
      s.on .lgRefValid .m0 g = true → s.rd .lgMuteUntil .m0 g ≤ s.tally →
      ∃ t, exec (.groupRelease g) s = .next t ∧ t.rd .lgReleased .m0 g = e.2.1 % 2 ^ 48 ∧
        SameBut [(.lgReleased, .m0, g.val)] s t)) ∧
  ∀ (n : Fin 4) (s : State) g a, s.groupOf n = some g → s.refNear g (s.rd .lgResume .m0 (mem4 g n)) = some a →
    s.rd .lgResume .m0 (mem4 g n) ≠ 0 → s.inService g n = false → a + s.groupW g ≤ (s.tally : Int) →
    s.rd .lgInService .m0 g < 2 ^ 4 →
    ∃ t, exec (.memberIn n) s = .next t ∧ t.inService g n = true ∧
      t.rd .lgMemberReturns .m0 g = min (s.rd .lgMemberReturns .m0 g + 1) 0xFFFF ∧
      t.events = (s.raise Reason.memberIn (blkId (millOf n) Dom.frame (n.val % 2)) g 0
        (some (s.rd .lgResume .m0 (mem4 g n)))).events

/-- OTN_FRAME_RECEIVED on a running OTN layer: a slice's frame takes the MFAS after that of its last one; a slice's or an enabled context's
BIP-8 errors are added to its counter, which stops at its greatest value; the third STAT in a row of a context's PM byte raises
dAIS, dLCK or dOCI as its value says; a group's overhead is kept for its loopbacks. A disabled context takes no frame. OTN_FRAME_TRANSMIT leaves for each layer the overhead
of its last frame: the group's as generated, or as last received under LINE_FAC; a slice's; an enabled context's with the rank and signal of its
replacement shown, as last received where a loopback sends it back. Under LINE_TERM receive processing sees what the layer
sends (log entry 54), else the line. Completes: OTN_FRAME_RECEIVED, OTN_FRAME_TRANSMIT. -/
def Obligations.OtnFramesCountedJudgedAndSent : Prop :=
  ∀ (m : Fin 2) (mfas : BitVec 8) (omfi : Fin 20) (oh : List Byte) (bip : List Nat) (s : State), s.otnRuns (millAt m) = true →
    let d := millAt m
    (∀ (x : Fin 48) psi il gmp far, ∃ t, exec (.otnFrameReceived m (.slice x) mfas omfi oh bip psi il gmp far) s = .next t ∧
      t.rd .sliceBipErrors d x = min (s.rd .sliceBipErrors d x + bip.headD 0) (2 ^ 32 - 1) ∧
      t.rd .sliceMfas d x = (s.rd .sliceMfas d x + 1) % 2 ^ 8 ∧ t.tally = s.tally) ∧
    (∀ l, (∀ g < 4, s.rd .lgLb .m0 g ≠ 2) → s.rxContent d l oh = oh) ∧
    (∀ (g : Fin 4) x, s.rd .lgLb .m0 g = 2 → Cells.find (layerKey d (.group g)) s.ohSent = some x →
      s.rxContent d (.group g) oh = x) ∧
    (∀ (g : Fin 4) psi il gmp far, ∃ t, exec (.otnFrameReceived m (.group g) mfas omfi oh bip psi il gmp far) s = .next t ∧
      Cells.find (layerKey d (.group g)) t.ohRecv = some (s.rxContent d (.group g) oh) ∧ t.tally = s.tally) ∧
    (∀ (o : Fin 512) psi il gmp far,
      (s.on .oduEnable d o = true →
        let oh' := s.rxContent d (.ctx o) oh
        ∃ t, exec (.otnFrameReceived m (.ctx o) mfas omfi oh bip psi il gmp far) s = .next t ∧
          t.rd .oduBipErrors d o = min (s.rd .oduBipErrors d o + bip.headD 0) (2 ^ 32 - 1) ∧
          Cells.find (layerKey d (.ctx o)) t.ohRecv = some oh' ∧
          (2 ≤ s.rd .oduStatRun d o → s.rd .oduStatLast d o = byteAt oh' 25 % 8 →
            t.on .oduDAis d o = (byteAt oh' 25 % 8 == 7) ∧ t.on .oduDLck d o = (byteAt oh' 25 % 8 == 5) ∧
              t.on .oduDOci d o = (byteAt oh' 25 % 8 == 6)) ∧ t.tally = s.tally) ∧
      (s.on .oduEnable d o = false → exec (.otnFrameReceived m (.ctx o) mfas omfi oh bip psi il gmp far) s = .next s)) ∧
    (∀ (g : Fin 4) entry client x,
      (if s.rd .lgLb .m0 g = 1 then Cells.find (layerKey d (.group g)) s.ohRecv = some x else x = oh) →
      let u := if omfi.val = 0 then s.txOmfi d g else s
      exec (.otnFrameTransmit m (.group g) mfas omfi oh entry client) s =
        .next { u with ohSent := Cells.put (layerKey d (.group g)) x u.ohSent }) ∧
    (∀ (x : Fin 48) entry client, ∃ t, exec (.otnFrameTransmit m (.slice x) mfas omfi oh entry client) s = .next t ∧
      (Cells.find (layerKey d (.slice x)) t.ohSent).isSome = true ∧ t.rd .smBei d x = 0 ∧ t.tally = s.tally) ∧
    ∀ (o : Fin 512) entry client, s.on .oduEnable d o = true →
      ∃ t, exec (.otnFrameTransmit m (.ctx o) mfas omfi oh entry client) s = .next t ∧
        (Cells.find (layerKey d (.ctx o)) t.ohSent).isSome = true ∧
        (∀ x, (s.lineOut d o).1 = 6 → Cells.find (layerKey d (.ctx o)) s.ohRecv = some x →
          Cells.find (layerKey d (.ctx o)) t.ohSent = some x) ∧
        t.rd .oduSig d o = (s.lineOut d o).2 % 4 ∧ t.on .oduTxRepActive d o = ((s.lineSignal d o).1 != 0) ∧
        t.tally = s.tally

/-- ETH_BLOCK_RECEIVED of an enabled Ethernet context on a port in service, none taken and no frame being dropped: below 4,096 blocks it is
queued; with the buffer full an idle block is dropped alone, and with no idle to remove a frame's block counts an overflow and
its frame is dropped to its end. LCR_HANDSHAKE with the slots that the committed map gives the context uses them; with any
other set it raises LCR_NACK and changes nothing. APS_TX stores APS_TX_VAL for its level. Completes: ETH_BLOCK_RECEIVED,
LCR_HANDSHAKE, APS_TX. -/
def Obligations.AdaptationResizeAndProtectionBytes : Prop :=
  ∀ (m : Fin 2) (o : Fin 512) (s : State),
    let d := millAt m
    (s.otnRuns d = true → s.on .oduEnable d o = true → s.rd .oduType d o = 6 → s.portFails d (s.rd .oduClientPort d o) = false →
      s.on .impDrop d o = false →
      s.rd .impIdles d o ≤ s.rd .impLevel d o →
      (∀ kind, s.rd .impLevel d o < 4096 →
        ∃ t, exec (.ethBlockReceived m o kind 0) s = .next t ∧ t.rd .impLevel d o = s.rd .impLevel d o + 1 ∧
          SameBut (regsAt d o [.impLevel, .impIdles]) s t) ∧
      (s.rd .impLevel d o = 4096 →
        ∃ t, exec (.ethBlockReceived m o .idle 0) s = .next t ∧ t.rd .impLevel d o = 4096 ∧
          SameBut (regsAt d o [.impLevel, .impIdles]) s t) ∧
      (s.rd .impLevel d o = 4096 → s.rd .impIdles d o = 0 →
        ∃ t, exec (.ethBlockReceived m o .data 0) s = .next t ∧ t.rd .impLevel d o = 4096 ∧ t.on .impDrop d o = true ∧
          t.rd .oduImpOverflow d o = min (s.rd .oduImpOverflow d o + 1) 0xFFFF ∧
          SameBut (regsAt d o [.impLevel, .impIdles, .impDrop, .oduImpOverflow]) s t)) ∧
    (s.otnRuns d = true → s.on .oduEnable d o = true → s.rd .oduType d o = 7 → ∀ l : List (Fin 960),
      ((∀ k, k ∈ s.flexOf d o ↔ k ∈ l.map Fin.val) →
        ∃ t, exec (.lcrHandshake m o l) s = .next t ∧
          (∀ k ∈ l, t.rd .fmapUse d k = o + 1024 * (if d = .m1 then 1 else 0)) ∧ t = { s with regs := t.regs }) ∧
      (¬(∀ k, k ∈ s.flexOf d o ↔ k ∈ l.map Fin.val) →
        exec (.lcrHandshake m o l) s = .next (s.raise Reason.lcrNack (blkId d Dom.otn) o))) ∧
    ∀ (k : Fin 8) w fs, s.dieAccess d (Fld.offsetAt .oduApsTxLevel o) = .word w fs →
      ∃ t, exec (.apsTx m o k) s = .next t ∧ t.rd .apsTxVal d (o * 8 + k) = s.rd .oduApsTxVal d o % 2 ^ 32 ∧
        t.on .apsTxOn d (o * 8 + k) = true ∧ SameBut (regsAt d (o * 8 + k) [.apsTxVal, .apsTxOn]) s t

/-- CDR_LOCK_CHANGE of a lane that runs, to another value, sets cdr_lock with one event of the lane where the received rate lies within
the loop's range, and finds no lock beyond it; a loss takes a TRAINED lane back to TRAINING. LANE_TRAINED, LANE_TRAIN_FAIL (counted, LANE_TRAIN_FAIL raised) and LANE_RETRAIN move training states 1 to 2, 1 to 3
and 3 to 1. LANE_TRAIN_REQUEST steps a coefficient or answers maximum or minimum. ALIGN_LOCK_CHANGE of an Ethernet or FlexO
port on lanes that run and no checker takes counts its codewords, sets align_lock and raises the port failure event on a loss. Completes:
CDR_LOCK_CHANGE, LANE_TRAINED, LANE_TRAIN_FAIL, LANE_RETRAIN, LANE_TRAIN_REQUEST, ALIGN_LOCK_CHANGE. -/
def Obligations.LanesLockTrainAndAlign : Prop :=
  ∀ (m : Fin 2) (l : Fin 24) (s : State),
    let d := millAt m
    (∀ ppm : BitVec 16, s.laneRuns d l = true →
      (s.on .laneCdrLock d l = false → ppm.toInt.natAbs ≤ s.cdrRange d l →
        ∃ t, exec (.cdrLockChange m l true ppm) s = .next t ∧ t.on .laneCdrLock d l = true ∧
          SameBut [(.laneCdrLock, d, l.val)] (s.raiseField .laneCdrLock d l) t) ∧
      (s.cdrRange d l < ppm.toInt.natAbs → exec (.cdrLockChange m l true ppm) s = .next s) ∧
      (s.on .laneCdrLock d l = true →
        ∃ t, exec (.cdrLockChange m l false ppm) s = .next t ∧ t.on .laneCdrLock d l = false ∧
          (s.rd .laneTrainState d l = 2 → t.rd .laneTrainState d l = 1) ∧ t.tally = s.tally)) ∧
    (s.rd .laneTrainState d l = 1 →
      (∃ t, exec (.laneTrained m l) s = .next t ∧ t.rd .laneTrainState d l = 2 ∧
        SameBut [(.laneTrainState, d, l.val)] s t) ∧
      (∃ t, exec (.laneTrainFail m l) s = .next t ∧ t.rd .laneTrainState d l = 3 ∧
        t.rd .laneTrainFailures d l = min (s.rd .laneTrainFailures d l + 1) 0xFFFF ∧
        SameBut (regsAt d l [.laneTrainState, .laneTrainFailures]) (s.raise Reason.laneTrainFail (laneBlk d l)) t) ∧
      ∀ (k : Fin 5), (∃ t, exec (.laneTrainRequest m l k 1 false) s = .next t ∧
          t.rd .laneCoef d (l * 8 + k) = (s.rd .laneCoef d (l * 8 + k) + 1) % 256 ∧ t.rd .laneCoefSts d (l * 8 + k) = 1 ∧
          SameBut (regsAt d (l * 8 + k) [.laneCoef, .laneCoefSts]) s t) ∧
        (∃ t, exec (.laneTrainRequest m l k 1 true) s = .next t ∧ t.rd .laneCoefSts d (l * 8 + k) = 2 ∧
          SameBut [(.laneCoefSts, d, l * 8 + k)] s t) ∧
        ∃ t, exec (.laneTrainRequest m l k 2 true) s = .next t ∧ t.rd .laneCoefSts d (l * 8 + k) = 3 ∧
          SameBut [(.laneCoefSts, d, l * 8 + k)] s t) ∧
    (s.rd .laneTrainState d l = 3 →
      ∃ t, exec (.laneRetrain m l) s = .next t ∧ t.rd .laneTrainState d l = 1 ∧
        SameBut [(.laneTrainState, d, l.val)] s t) ∧
    (∀ v corr unc, s.rd .portMode d l = 1 ∨ s.rd .portMode d l = 2 → s.on .portAlignLock d l ≠ v → s.laneRuns d l = true →
      ((List.range (s.portWidth d l)).all fun k => !s.on .laneChkEn d (l + k)) = true →
      ∃ t, exec (.alignLockChange m l v corr unc) s = .next t ∧ t.on .portAlignLock d l = v ∧
        t.rd .portCwCorrected d l = min (s.rd .portCwCorrected d l + corr) (2 ^ 32 - 1) ∧
        t.rd .portCwUncorrectable d l = min (s.rd .portCwUncorrectable d l + unc) (2 ^ 32 - 1) ∧
        t.events = (if v then s.events else (s.raiseField .portAlignLock d l).events))

/-- PRBS_LOCK of a running checker on a lane that runs sets its lock. PRBS_LOCK_LOST adds what was counted and sets chk_lost. PRBS_ERR_READ
returns the low word and latches errors and bits together. INJ_SINGLE and INJ_BURST start an injection of 1 and of burst_len
bits (0 taken as 1) where none runs, else they are discarded with an event; INJ_DONE ends one. Completes: PRBS_LOCK, PRBS_LOCK_LOST,
PRBS_ERR_READ, INJ_SINGLE, INJ_BURST, INJ_DONE. -/
def Obligations.PrbsCheckersAndInjection : Prop :=
  ∀ (m : Fin 2) (l : Fin 24) (s : State),
    let d := millAt m
    (s.laneRuns d l = true → s.chkOn d l = true → ∃ t, exec (.prbsLock m l) s = .next t ∧ t.on .laneChkLock d l = true ∧
      SameBut [(.laneChkLock, d, l.val)] s t) ∧
    (∀ errs nbits : BitVec 48, s.on .laneChkLock d l = true →
      (∃ t, exec (.prbsLockLost m l errs nbits) s = .next t ∧ t.on .laneChkLock d l = false ∧
        t.on .laneChkLost d l = true ∧ t.rd .prbsErrs d l = min (s.rd .prbsErrs d l + errs.toNat) (2 ^ 48 - 1) ∧
        t.rd .prbsBits d l = min (s.rd .prbsBits d l + nbits.toNat) (2 ^ 48 - 1) ∧
        SameBut (regsAt d l [.laneChkLock, .laneChkLost, .prbsErrs, .prbsBits]) s t)) ∧
    (∀ (errs nbits : BitVec 48) w fs, s.on .laneChkLock d l = false → s.rd .prbsErrs d l < 2 ^ 48 →
      s.dieAccess d (Fld.offsetAt .lanePrbsErrLo l) = .word w fs →
      ∃ t, exec (.prbsErrRead m l errs nbits) s = .next t ∧ t.readData = s.rd .prbsErrs d l % 2 ^ 32 ∧
        t.rd48 .lanePrbsErrLo .lanePrbsErrHi d l = s.rd .prbsErrs d l ∧
        SameBut (regsAt d l [.lanePrbsErrLo, .lanePrbsErrHi, .lanePrbsBitsLo, .lanePrbsBitsHi])
          { s with readData := t.readData } t) ∧
    (∀ w fs, s.dieAccess d (Fld.offsetAt .laneInjSingle l) = .word w fs →
      (s.on .laneInjBusy d l = false → ∃ t, exec (.injSingle m l) s = .next t ∧ t.on .laneInjBusy d l = true ∧
        t.rd .injLeft d l = 1 ∧ SameBut (regsAt d l [.laneInjBusy, .injLeft]) s t) ∧
      (s.on .laneInjBusy d l = true → exec (.injSingle m l) s = .next (s.raiseField .laneInjSingle d l))) ∧
    (∀ w fs, s.dieAccess d (Fld.offsetAt .laneInjBurst l) = .word w fs → s.rd .laneBurstLen d l < 2 ^ 10 →
      s.on .laneInjBusy d l = false → ∃ t, exec (.injBurst m l) s = .next t ∧ t.on .laneInjBusy d l = true ∧
        t.rd .injLeft d l = max 1 (s.rd .laneBurstLen d l) ∧ SameBut (regsAt d l [.laneInjBusy, .injLeft]) s t) ∧
    ∃ t, exec (.injDone m l) s = .next t ∧ t.on .laneInjBusy d l = false ∧ t.rd .injLeft d l = 0 ∧
      SameBut (regsAt d l [.laneInjBusy, .injLeft]) s t

/-- BLOCK_LOCK and ALIGN_BLOCK set a lane's block lock and position; BLOCK_LOCK_LOST clears lock and deskew and counts.
STATUS_BLOCK on a link that hears shows the partner's identity, quality and state; TIME_BLOCK the tally offset; BAD_CTRL counts.
XC_DATA_BLOCK on a link that is up keeps the frame's bytes from its start. XC_PARTNER_LOST after the wait, with no lane in
lock, sets partner_lost. Completes: BLOCK_LOCK, ALIGN_BLOCK, BLOCK_LOCK_LOST, STATUS_BLOCK, TIME_BLOCK, BAD_CTRL,
XC_DATA_BLOCK, XC_PARTNER_LOST. -/
def Obligations.CrosscutLinkLocksHearsAndLosesPartner : Prop :=
  ∀ (m : Fin 2) (s : State),
    let d := millAt m
    (∀ l : Fin 24, s.laneRuns d l = true → s.onLink d l = true → s.on .laneChkEn d l = false →
      ∃ t, exec (.blockLock m l) s = .next t ∧ t.on .laneBlockLock d l = true ∧ t.tally = s.tally) ∧
    (∀ (l : Fin 24) pos skew, s.on .laneBlockLock d l = true →
      ∃ t, exec (.alignBlock m l pos skew) s = .next t ∧ t.rd .lanePos d l = pos.toNat ∧
        t.on .laneDeskewed d l = decide (skew ≤ 128) ∧ t.tally = s.tally) ∧
    (∀ l : Fin 24, s.on .laneBlockLock d l = true →
      ∃ t, exec (.blockLockLost m l) s = .next t ∧ t.on .laneBlockLock d l = false ∧ t.on .laneDeskewed d l = false ∧
        t.rd .laneLockLosses d l = min (s.rd .laneLockLosses d l + 1) 0xFF) ∧
    (s.linkHears d = true →
      (∀ (id : BitVec 12) (ql : BitVec 4) (st : BitVec 3), ∃ t, exec (.statusBlock m id ql st) s = .next t ∧
        t.rd .xcPartnerIdSeen d = id.toNat ∧ t.rd .xcPartnerQl d = ql.toNat ∧ t.rd .xcPartnerTstate d = st.toNat) ∧
      (∀ (id : BitVec 12) (count : BitVec 48) (st : BitVec 3), ∃ t, exec (.timeBlock m id count st) s = .next t ∧
        t.rd48 .xcToffLo .xcToffHi d = ofInt 48 ((s.sf : Int) - count.toNat) ∧
        SameBut (regsAt d 0 [.xcToffLo, .xcToffHi]) s t) ∧
      ∃ t, exec (.badCtrl m) s = .next t ∧ t.rd .xcBadCtrl d = min (s.rd .xcBadCtrl d + 1) 0xFFFF ∧
        SameBut [(.xcBadCtrl, d, 0)] s t) ∧
    (∀ (p : Fin 32) (bytes : List Byte), s.on .xcLinkUp d = true → bytes.length = 15 →
      ∃ t, exec (.xcDataBlock m p true bytes) s = .next t ∧ Cells.find (d.code * 32 + p) t.xcBuf = some bytes ∧
        t.on .xcSofSeen d p = true ∧
        SameBut (regsAt d p [.xcSofAt, .xcSofSeen]) { s with xcBuf := t.xcBuf } t) ∧
    ((s.linkLanes d).isEmpty = false → s.linkHears d = false → s.on .xcPartnerLost d = false →
      s.rd .xcOutAt d + max 1 (s.rd .xcLostUs d) * s.rq * 250 ≤ s.tally →
      ∃ t, exec (.xcPartnerLost m) s = .next t ∧ t.on .xcPartnerLost d = true ∧ t.tally = s.tally)

/-- XC_TIME_SEND at a tally multiple of 16 SF, XC_STATUS_SEND and XC_COORD_SEND of an enabled pair leave their block of 16
bytes, 0x66, 0x78 or 0x4B first, on a die whose crosscut link has a lane that drives its signal; nothing else changes. COORD_BLOCK with the
opposite role and the pair's own seq acknowledged agrees the pair; with the same role it raises XC_ROLE_CONFLICT, and an
owner whose role was not taken over yields it. Completes: XC_TIME_SEND, XC_STATUS_SEND, XC_COORD_SEND, COORD_BLOCK. -/
def Obligations.CrosscutBlocksSentAndRolesAgreed : Prop :=
  ∀ (m : Fin 2) (s : State),
    let d := millAt m
    let sends (i : Instr) (kind p : Nat) : Prop := ∃ b : List Byte, b.length = 16 ∧ b.head? = some (BitVec.ofNat 8 kind) ∧
      exec i s = .next { s with xcSent := Cells.put ((d.code * 256 + kind) * 32 + p) b s.xcSent }
    (s.linkSends d = true → (s.sf % 16 = 0 → sends (.xcTimeSend m) 0x66 0) ∧ sends (.xcStatusSend m) 0x78 0 ∧
      ∀ p : Fin 32, s.on .pairEn d p = true → sends (.xcCoordSend m p) 0x4B p) ∧
    ∀ (p : Fin 32) (owner take leg : Bool) (seq ack : BitVec 16), s.linkHears d = true → s.on .pairEn d p = true →
      (s.on .pairRoleActive d p ≠ owner → ack.toNat = s.rd .pairSeq d p →
        ∃ t, exec (.coordBlock m p owner take leg seq ack) s = .next t ∧ t.on .pairAgreed d p = true ∧
          t.rd .pairRxSeq d p = seq.toNat ∧
          SameBut (regsAt d p [.pairRxSeq, .pairAgreed, .pairAgRole, .pairAgLoss, .pairAgFarLoss]) s t) ∧
      (s.on .pairRoleActive d p = owner →
        ∃ t, exec (.coordBlock m p owner take leg seq ack) s = .next t ∧ t.on .pairAgreed d p = false ∧
          t.events = (s.raise Reason.xcRoleConflict (blkId d Dom.otn p)).events ∧
          (owner = true → s.on .pairTaken d p = false → t.on .pairRoleActive d p = false) ∧
          (owner = false → t.rd .pairRoleActive d p = s.rd .pairRoleActive d p))

/-- KEK_LOAD and KEY_LOAD in order, into an off-shift slot that takes a key, wait for the engine of their die, which shows
busy. KEY_UNWRAP_DONE of the oldest one: where the two computations differ it completes RETRY and counts; where the integrity
check fails AUTH_FAIL with no key changed; else the key stands in its slot, under its index. KEY_ZERO of an off-shift slot
empties it at once; of an on-shift slot it marks it, and KEY_DESTROY empties the marked slots of the page. Completes: KEK_LOAD, KEY_LOAD,
KEY_UNWRAP_DONE, KEY_ZERO, KEY_DESTROY. -/
def Obligations.KeysLoadedThroughEngineAndDestroyed : Prop :=
  (∀ (d : Desc) (s : State), d.target.toNat = Dom.crypto * 64 → d.arg0 = 0 → s.Accepts 0x20 d →
    s.Serves .m0 Dom.crypto → s.kwTested .m0 = false →
    ∃ t, exec (.kekLoad d) s = .next t ∧ t.kw = s.kw ++ [⟨0x20, d⟩] ∧ t.on .cryKwBusy .m0 = true ∧ t.keys = s.keys ∧
      t.compl = (s.workStart 0x20 d .m0 Dom.crypto).compl) ∧
  (∀ (d : Desc) (s : State), cryptoTargetBad d = false → d.arg0.toNat / 2 ^ 11 = 0 → s.Accepts 0x21 d →
    s.bound d.mill d.page d.fn = true → s.Serves d.mill Dom.crypto → (s.kek d.mill).isSome = true →
    (bits d.arg0.toNat 9 8 = slotRxOff ∧ s.on .pageKeyStaged d.mill d.page = false ∨
      bits d.arg0.toNat 9 8 = slotTxOff ∧ ((s.key d.mill d.page slotTxOn).isSome = true →
        s.keyIdx d.mill d.page slotTxOn ≠ bits d.arg0.toNat 10 10)) → s.on .viewFrozen d.mill = false →
    s.kwTested d.mill = false →
    ∃ t, exec (.keyLoad d) s = .next t ∧ t.kw = s.kw ++ [⟨0x21, d⟩] ∧ t.on .cryKwBusy d.mill = true ∧ t.keys = s.keys ∧
      t.compl = (s.workStart 0x21 d d.mill Dom.crypto).compl) ∧
  (∀ (m : Fin 2) (s : State) o, s.kw.find? (·.desc.mill == millAt m) = some o → s.inflight.any (·.isFor o.desc) = true →
    (∃ t, exec (.keyUnwrapDone m false) s = .next t ∧ t.kw = s.kw.erase o ∧ t.keys = s.keys ∧
      t.rd .cryKwMismatch (millAt m) = min (s.rd .cryKwMismatch (millAt m) + 1) 0xFFFF ∧
      t.inflight.any (·.isFor o.desc) = false) ∧
    ∀ k, o.opcode = 0x21 → s.kek (millAt m) = some k →
      (keyUnwrap k o.desc.wrapped = none →
        ∃ t, exec (.keyUnwrapDone m true) s = .next t ∧ t.kw = s.kw.erase o ∧ t.keys = s.keys ∧
          t.inflight.any (·.isFor o.desc) = false) ∧
      ∀ v, keyUnwrap k o.desc.wrapped = some v →
        ∃ t, exec (.keyUnwrapDone m true) s = .next t ∧
          t.key (millAt m) o.desc.page (bits o.desc.arg0.toNat 9 8) = some v ∧
          t.keyIdx (millAt m) o.desc.page (bits o.desc.arg0.toNat 9 8) = bits o.desc.arg0.toNat 10 10) ∧
  (∀ (d : Desc) (s : State), cryptoTargetBad d = false → d.arg0.toNat / 2 ^ 10 = 0 → d.clearFrom 24 = true →
    s.Accepts 0x22 d → s.Serves d.mill Dom.crypto →
    let k := bits d.arg0.toNat 9 8
    (k % 2 = 1 → ∃ t, exec (.keyZero d) s = .next t ∧ t.key d.mill d.page k = none ∧
      t.inflight.any (·.isFor d) = false) ∧
    (k % 2 = 0 → ∃ t, exec (.keyZero d) s = .next t ∧ t.keys = s.keys ∧ t.on .zeroPend d.mill (d.page * 4 + k) = true ∧
      t.zeroing = s.zeroing ++ [⟨0x22, d⟩])) ∧
  ∀ (m : Fin 2) (p : Fin 256) (s : State), s.on .zeroPend (millAt m) (p * 4 + slotTxOn) = true →
    ∃ t, exec (.keyDestroy m p) s = .next t ∧ t.key (millAt m) p slotTxOn = none ∧
      t.on .zeroPend (millAt m) (p * 4 + slotTxOn) = false

/-- PAGE_BIND writes the functions of the page and its mode; PAGE_UNBIND leaves no function bound, empties the off-shift
slots, marks the on-shift ones and stops the page's streams. STREAM_BIND with a free number for a page of its own stages the
stream registers. STREAM_START and STREAM_STOP at or after the tally are kept for their SF. Each completes OK, but PAGE_UNBIND,
which waits for its keys. Completes: PAGE_BIND, PAGE_UNBIND, STREAM_BIND, STREAM_START, STREAM_STOP. -/
def Obligations.PagesBoundAndStreamsStagedStartedStopped : Prop :=
  (∀ (d : Desc) (s : State), cryptoTargetBad d = false → d.arg0.toNat / 2 ^ 9 = 0 → d.clearFrom 28 = true →
    (∀ j < 4, d.at (24 + j) 1 < 128 ∨ d.at (24 + j) 1 % 128 ≤ 64) → s.Accepts 0x23 d → s.Serves d.mill Dom.crypto →
    ∃ t, exec (.pageBind d) s = .next t ∧ t.inflight.any (·.isFor d) = false ∧
      (∀ j < 4, t.rd .pageFuncValid d.mill (d.page * 4 + j) = d.at (24 + j) 1 / 128 ∧
        t.rd .pageFunc d.mill (d.page * 4 + j) = d.at (24 + j) 1 % 128) ∧
      t.rd .pageCompat d.mill d.page = bits d.arg0.toNat 8 8) ∧
  (∀ (d : Desc) (s : State), cryptoTargetBad d = false → d.arg0.toNat / 2 ^ 8 = 0 → d.clearFrom 24 = true →
    s.Accepts 0x24 d → s.Serves d.mill Dom.crypto →
    ∃ t, exec (.pageUnbind d) s = .next t ∧ t.pageFuncs d.mill d.page = [] ∧ t.key d.mill d.page slotTxOff = none ∧
      t.key d.mill d.page slotRxOff = none ∧ t.on .zeroPend d.mill (d.page * 4 + slotTxOn) = true ∧
      t.on .zeroPend d.mill (d.page * 4 + slotRxOn) = true ∧
      (∀ i ∈ s.pageStreams .live d.mill d.page, t.rd .strmTxState d.mill i = 0 ∧ t.rd .strmRxState d.mill i = 0) ∧
      t.zeroing = s.zeroing ++ [⟨0x24, d⟩] ∧ t.compl = (s.workStart 0x24 d d.mill Dom.crypto).compl) ∧
  (∀ (d : Desc) (s : State), cryptoTargetBad d = false → d.arg0.toNat / 2 ^ 9 = 0 → d.clearFrom 36 = true →
    d.at 24 4 / 2 ^ 22 = 0 → d.at 28 4 / 2 ^ 20 = 0 → bits (d.at 24 4) 21 20 ≠ 3 →
    (bit (d.at 24 4) 0 = true → bits (d.at 24 4) 9 1 < 4) → s.Accepts 0x25 d → s.Serves d.mill Dom.crypto →
    d.at 28 4 ≠ 0xFFFFF → s.numTaken d.mill d.stream (d.at 28 4) = false →
    s.bound d.mill (bits (d.at 24 4) 17 10) d.fn = true → s.on .viewFrozen d.mill = false →
    let at_ (f : Fld) : Nat := f.offsetAt d.stream
    ∃ t, exec (.streamBind d) s = .next t ∧ t.inflight.any (·.isFor d) = false ∧ t.rd .strmBound d.mill d.stream = 1 ∧
      t.offs = (((s.shWrite (.die d.mill) (at_ .strmTargetKind) (d.at 24 4)).shWrite (.die d.mill) (at_ .strmNum)
        (d.at 28 4)).shWrite (.die d.mill) (at_ .strmFarId) (d.at 32 4)).offs ∧
      t.rd .strmNum d.mill d.stream = s.rd .strmNum d.mill d.stream) ∧
  ∀ (d : Desc) (s : State), cryptoTargetBad d = false → d.arg0.toNat / 2 ^ 9 = 0 → d.off = 0 → s.tally ≤ d.pos →
    s.bound d.mill (s.rd .strmPage d.mill d.stream) d.fn = true → s.Serves d.mill Dom.crypto →
    (d.clearFrom 32 = true → s.Accepts 0x26 d → s.on .tallyOriginLost = false →
      (d.at 24 8 = 0 ∨ s.on .strmSent d.mill d.stream = false ∨ s.rd .strmSeq d.mill d.stream < d.at 24 8) →
      ∃ t, exec (.streamStart d) s = .next t ∧ t.on .strmStartOn d.mill d.stream = true ∧
        t.rd .strmStartAt d.mill d.stream = d.sf.toNat % 2 ^ 48 ∧ t.inflight.any (·.isFor d) = false ∧
        t.rd .strmTxState d.mill d.stream = s.rd .strmTxState d.mill d.stream) ∧
    (d.clearFrom 24 = true → s.Accepts 0x27 d →
      ∃ t, exec (.streamStop d) s = .next t ∧ t.on .strmStopOn d.mill d.stream = true ∧
        t.rd .strmStopAt d.mill d.stream = d.sf.toNat % 2 ^ 48 ∧ t.inflight.any (·.isFor d) = false ∧
        t.rd .strmTxState d.mill d.stream = s.rd .strmTxState d.mill d.stream)

/-- ENCRYPT_FRAME of a stream that runs, with no start or stop waiting, its key in place and not worn out, the datapaths in
agreement: the frame carries the GCM output for key, stream ID and sequence; the sequence advances by one and the page counts
one frame. Without the key the frame is replaced, its sequence advancing all the same. DECRYPT_FRAME with the sequence locked
and met, on the key that the frame names: a frame whose tag is the computed one leaves as plain data and rx_state is 2. Completes: ENCRYPT_FRAME, DECRYPT_FRAME. -/
def Obligations.FramesEncryptedInSequenceAndPassedOnTag : Prop :=
  (∀ (m : Fin 2) (i : Fin 512) (mfas : BitVec 8) (data : List Byte) (pipe : Fin 17) (s : State),
    let d := millAt m
    let p := s.rd .strmPage d i
    let seq := s.rd .strmNext d i
    s.has d = true → s.on .strmTxEn d i = true → s.domUp d Dom.crypto = true → s.domInReset d Dom.crypto = false →
    s.on .strmStartOn d i = false → s.on .strmStopOn d i = false → s.rd .strmTxState d i = 1 → seq < 2 ^ 64 →
    s.on .pageOut d p = false →
    (∀ k agree, s.key d p slotTxOn = some k → s.on .zeroPend d (p * 4 + slotTxOn) = false → agree = true →
      let cst := s.keyIdx d p slotTxOn * 128 + seq % 64
      let r := gcmEncrypt k (s.streamId d i * 2 ^ 64 + seq) (frameAad mfas.toNat cst) data
      ∃ t, exec (.encryptFrame m i mfas data agree pipe) s = .next t ∧
        Cells.find (d.code * 512 + i) t.cipherOut = some ⟨0, seqByte seq mfas.toNat, cst, r.2.toNat / 2 ^ 32, r.1⟩ ∧
        t.rd .strmNext d i = (seq + 1) % 2 ^ 65 ∧ t.rd .strmSeq d i = seq ∧
        t.rd .pageTxCount d p = (s.rd .pageTxCount d p + 1) % 2 ^ 41) ∧
    (∀ agree, s.key d p slotTxOn = none →
      ∃ t, exec (.encryptFrame m i mfas data agree pipe) s = .next t ∧ t.rd .strmTxState d i = 2 ∧
        t.rd .strmNext d i = (seq + 1) % 2 ^ 65 ∧ t.rd .pageTxCount d p = s.rd .pageTxCount d p ∧
        ∃ f, Cells.find (d.code * 512 + i) t.cipherOut = some f ∧ f.replaced = s.repSignal d i ∧ f.data = [])) ∧
  ∀ (m : Fin 2) (i : Fin 512) (mfas : BitVec 8) (c : Coh) (data : List Byte) (pipe : Fin 17) (s : State) slot k,
    let d := millAt m
    let p := s.rd .strmPage d i
    let seq := s.rd .rxSeq d i
    s.has d = true → s.on .strmRxEn d i = true → s.domUp d Dom.crypto = true → s.domInReset d Dom.crypto = false →
    s.on .strmStartOn d i = false → s.on .strmStopOn d i = false → s.rd .strmRxState d i ≠ 0 →
    s.on .strmSeqLock d i = true → bit c.cst.toNat 6 = false → c.cst.toNat % 64 = seq % 64 →
    s.rxSlotFor d p (c.cst.toNat / 128) = some slot → s.key d p slot = some k →
    let r := gcmDecrypt k (s.rd .strmFarId d i * 2 ^ 64 + seq) (frameAad mfas.toNat c.cst.toNat) data
    r.2.toNat / 2 ^ 32 = c.tag.toNat →
    ∃ t, exec (.decryptFrame m i mfas (some c) data true pipe) s = .next t ∧ t.rd .strmRxState d i = 2 ∧
      Cells.find (d.code * 512 + i) t.plainOut = some (.plain, r.1) ∧
      t.rd .strmAuthFail d i = s.rd .strmAuthFail d i

/-- LA_ENCRYPT with a counter above the page's last one and LA_DECRYPT with a receive key join the running operations, with
host memory unchanged. LOOKASIDE_DONE of an encryption writes the data and the tag and completes; of an operation whose key
was destroyed, or whose datapaths differ, it writes nothing. RX_KEY_SWAP at its target exchanges the receive slots and
reloads the off-shift one. TX_FRAMES_READ and SEQ_READ return the low word and latch the count. Completes: LA_ENCRYPT, LA_DECRYPT,
LOOKASIDE_DONE, RX_KEY_SWAP, TX_FRAMES_READ, SEQ_READ. -/
def Obligations.LookasideRunsAndReceiveKeysSwap : Prop :=
  (∀ (d : Desc) (s : State), cryptoTargetBad d = false → laBad d = false → s.laExcluded d = false →
    s.Serves d.mill Dom.crypto →
    (d.clearFrom 52 = true → s.Accepts 0x28 d → s.txKeyless d.mill (s.laPage d) = false →
      s.rd48 .pageLaCtrLo .pageLaCtrHi d.mill (s.laPage d) < d.at 44 8 → s.on .pageOut d.mill (s.laPage d) = false →
      ∃ t o, exec (.laEncrypt d) s = .next t ∧ t.la = s.la ++ [o] ∧ o.op = ⟨0x28, d⟩ ∧ o.slot = slotTxOn ∧
        o.dead = false ∧ some o.key = s.key d.mill (s.laPage d) slotTxOn ∧
        t.rd48 .pageLaCtrLo .pageLaCtrHi d.mill (s.laPage d) = d.at 44 8 ∧ t.hostMem = s.hostMem) ∧
    (∀ k, d.clearFrom 56 = true → s.Accepts 0x29 d → s.key d.mill (s.laPage d) slotRxOn = some k →
      ∃ t, exec (.laDecrypt d) s = .next t ∧
        t.la = s.la ++ [⟨⟨0x29, d⟩, s.laPage d, slotRxOn, k, beNat (leBytes 12 (d.at 44 12)), false⟩] ∧
        t.hostMem = s.hostMem)) ∧
  (∀ (ring : BitVec 18) (src : List Byte) (pipe : Fin 17) (s : State) o,
    s.la.find? (·.op.desc.ring == ring.toNat) = some o →
    (∀ agree, o.dead = true → ∃ t, exec (.lookasideDone ring src agree pipe) s = .next t ∧ t.la = s.la.erase o ∧
      t.hostMem = s.hostMem ∧ t.inflight.any (·.isFor o.op.desc) = false) ∧
    (∃ t, exec (.lookasideDone ring src false pipe) s = .next t ∧ t.la = s.la.erase o ∧ t.hostMem = s.hostMem ∧
      t.inflight.any (·.isFor o.op.desc) = false) ∧
    (o.dead = false → o.op.opcode = 0x28 →
      let x := o.op.desc
      let r := gcmEncrypt o.key o.iv (src.take (x.at 40 2)) ((src.drop (x.at 40 2)).take x.arg0.toNat)
      ∃ t, exec (.lookasideDone ring src true pipe) s = .next t ∧ t.la = s.la.erase o ∧
        t.hostMem = (s.toHost (x.at 32 8) (r.1 ++ (leBytes 16 r.2.toNat).reverse)).hostMem ∧
        t.inflight.any (·.isFor x) = false)) ∧
  (∀ (m : Fin 2) (p : Fin 256) (s : State), s.on .pageKeyStaged (millAt m) p = true →
    s.rd .pageKeyTarget (millAt m) p ≤ s.farNow (s.rd .pageKeyCarrier (millAt m) p) →
    ∃ t, exec (.rxKeySwap m p) s = .next t ∧ t.key (millAt m) p slotRxOn = s.key (millAt m) p slotRxOff ∧
      t.key (millAt m) p slotRxOff = s.key (millAt m) p slotRxOff ∧
      t.key (millAt m) p slotTxOn = s.key (millAt m) p slotTxOn ∧ t.on .pageKeyStaged (millAt m) p = false) ∧
  (∀ (m : Fin 2) (p : Fin 256) (s : State) w fs, s.dieAccess (millAt m) (Fld.offsetAt .pageTxFramesLo p) = .word w fs →
    ∃ t, exec (.txFramesRead m p) s = .next t ∧ t.readData = s.rd .pageTxCount (millAt m) p % 2 ^ 32 ∧
      t.rd .pageTxFramesLo (millAt m) p = s.rd .pageTxCount (millAt m) p % 2 ^ 32 ∧
      SameBut (regsAt (millAt m) p [.pageTxFramesLo, .pageTxFramesHi]) { s with readData := t.readData } t) ∧
  ∀ (m : Fin 2) (i : Fin 512) (s : State) w fs, s.dieAccess (millAt m) (Fld.offsetAt .strmTxSeqLo i) = .word w fs →
    ∃ t, exec (.seqRead m i) s = .next t ∧ t.readData = s.rd .strmSeq (millAt m) i % 2 ^ 32 ∧
      t.rd .strmTxSeqLo (millAt m) i = s.rd .strmSeq (millAt m) i % 2 ^ 32 ∧
      SameBut (regsAt (millAt m) i [.strmTxSeqLo, .strmTxSeqHi]) { s with readData := t.readData } t

/-- DOORBELL, one aligned write of its owner that keeps the index rule: a host-written ring takes the producer index; a part-written
one takes the consumer index and is armed again, interrupting at once or not. Any other doorbell raises DOORBELL_BAD and
changes no ring. DESCRIPTOR_FETCH of the ring in turn, with the link up, advances the part's index and puts the descriptor of the
slot in flight; one whose opcode does not belong to the ring completes BAD_DESC. INTERRUPT_TIMER of an armed ring with unsignalled
entries and a time disarms it. Completes: DOORBELL, DESCRIPTOR_FETCH, INTERRUPT_TIMER. -/
def Obligations.DoorbellsFetchAndInterruptTimer : Prop :=
  (∀ (fn : Fin 65) (ring : BitVec 18) (data : BitVec 64) (s : State) r, Cells.find ring.toNat s.rings = some r →
    data.toNat / 2 ^ 17 = 0 → r.owner = fn.val → r.accepts data.toNat = true →
    (hostWritten r.cls = true →
      exec (.doorbell fn ring true data) s = .next ((s.count .m0 0x152).setRing ring.toNat { r with hostIdx := data.toNat })) ∧
    (hostWritten r.cls = false → ∃ t q, exec (.doorbell fn ring true data) s = .next t ∧
      Cells.find ring.toNat t.rings = some q ∧ q.hostIdx = data.toNat ∧ q.partIdx = r.partIdx ∧
      (r.irqEn = false → q.armed = true ∧ t.msixSent = s.msixSent) ∧ t.regs = s.regs)) ∧
  (∀ (fn : Fin 65) (ring : BitVec 18) (aligned : Bool) (data : BitVec 64) (s : State),
    (∀ r, Cells.find ring.toNat s.rings = some r → aligned = false ∨ data.toNat / 2 ^ 17 ≠ 0 ∨ r.owner ≠ fn.val ∨
      r.accepts data.toNat = false) →
    exec (.doorbell fn ring aligned data) s =
      .next ((s.count .m0 0x152).raiseFn Reason.doorbellBad (blkId .m0 Dom.hostif) fn ring.toNat)) ∧
  (∀ (ring : BitVec 18) (data : BitVec 512) (s : State) r, Cells.find ring.toNat s.rings = some r → s.on .pcieUp = true →
    s.ringInTurn = some ring.toNat → r.owner < 65 →
    let x := Desc.ofBytes ring.toNat (r.partIdx % r.size) (Fin.ofNat 65 r.owner) data
    s.inflight.any (·.isFor x.2) = false →
    ∃ t q, exec (.descriptorFetch ring data) s = .next t ∧ Cells.find ring.toNat t.rings = some q ∧
      q.partIdx = (r.partIdx + 1) % (2 * r.size) ∧ q.hostIdx = r.hostIdx ∧
      ((∃ pf, opcodeRow x.1 = some (r.cls, pf)) → t.inflight = s.inflight ++ [⟨x.1, x.2⟩] ∧ t.compl = s.compl) ∧
      ((¬∃ pf, opcodeRow x.1 = some (r.cls, pf)) → t.inflight = s.inflight ∧
        ∃ v, t.compl = s.compl ++ [⟨x.2.fn, ring.toNat, r.cq, x.1, x.2.tag.toNat, Status.badDesc.code, v, x.2.irqNow,
          Op.targetDie ⟨x.1, x.2⟩⟩])) ∧
  ∀ (ring : BitVec 18) (s : State) r, Cells.find ring.toNat s.rings = some r → r.irqEn = true → r.armed = true →
    r.modTime ≠ 0 → r.fresh ≠ 0 →
    ∃ t q, exec (.interruptTimer ring) s = .next t ∧ Cells.find ring.toNat t.rings = some q ∧ q.armed = false ∧ q.fresh = 0 ∧
      (s.msixMasked.contains (r.owner, r.vec) = false → t.msixSent = s.msixSent ++ [(r.owner, r.vec)])

/-- COMPLETION_WRITE with the link up writes the oldest completion whose ring has room: its 32 bytes stand at the slot of
the part's index, from the ring's base, that index moves on by one, and the completion is gone from the queue; every other byte
of host memory is unchanged. EVENT_WRITE does the same with the oldest event for a function and its Event ring. Completes:
COMPLETION_WRITE, EVENT_WRITE. -/
def Obligations.EntriesWrittenAtTheRingsIndex : Prop :=
  let wrote (s t : State) (id : Nat) (r : Ring) (b : List Byte) : Prop :=
    let a := r.base + r.partIdx % r.size * 32
    (∀ k < 32, t.hostByte (a + k) = b.getD k 0) ∧ (∀ x, x < a ∨ a + 32 ≤ x → t.hostByte x = s.hostByte x) ∧
      (∃ q, Cells.find id t.rings = some q ∧ q.partIdx = (r.partIdx + 1) % (2 * r.size) ∧ q.hostIdx = r.hostIdx) ∧
      t.tally = s.tally ∧ t.inflight = s.inflight
  (∀ (s : State) c r, s.on .pcieUp = true →
    s.compl.find? (fun c => (Cells.find c.cq s.rings).any Ring.room) = some c → Cells.find c.cq s.rings = some r →
    r.cls = 1 →
    ∃ t, exec .completionWrite s = .next t ∧ t.compl = s.compl.erase c ∧ t.events = s.events ∧
      wrote s t c.cq r (s.complBytes c r.phase)) ∧
  ∀ (fn : Fin 65) (s : State) e id r, s.on .pcieUp = true → s.events.find? (fun e => e.dest == fn.val) = some e →
    s.eventRing fn = some (id, r) → r.room = true → r.cls = 2 →
    ∃ t, exec (.eventWrite fn) s = .next t ∧ t.events = s.events.erase e ∧ t.compl = s.compl ∧ t.regs = s.regs ∧
      wrote s t id r (e.bytes r.phase)

/-- NOP in order completes OK. RING_CREATE of a ring its function may create, not there yet: the ring stands as its operands
say, empty and armed, and the operation completes. RING_BIND of a listed source that no ring has binds it. RING_DESTROY
marks the ring closing; RING_DESTROY_DONE with nothing of it left removes it. VF_CONFIG of a free window within the sum of
operations gives it to the function. Completes: NOP, RING_CREATE, RING_BIND, RING_DESTROY, RING_DESTROY_DONE, VF_CONFIG. -/
def Obligations.NopRingsAndVirtualFunctionWindows : Prop :=
  (∀ (d : Desc) (s : State), d.target = 0 → d.arg0 = 0 → d.clearFrom 24 = true → s.Accepts 0x00 d →
    ∃ t, exec (.nop d) s = .next t ∧ t.inflight = (s.inflight.filter fun o => !o.isFor d) ∧ t.rings = s.rings ∧
      (∀ r, Cells.find d.ring s.rings = some r →
        t.compl = s.compl ++ [⟨d.fn, d.ring, r.cq, 0, d.tag.toNat, 0, 0, d.irqNow, none⟩]) ∧ t.tally = s.tally) ∧
  (∀ (d : Desc) (s : State), s.Accepts 0x01 d → d.target = 0 → d.clearFrom 42 = true →
    let a := d.arg0.toNat
    let id := bits a 17 0
    let cls := bits a 21 18
    let lg := bits a 26 22
    let w := d.at 32 4
    let md := d.at 36 4
    let pg := d.at 40 2
    let hostRing := cls = 0 ∨ cls = 6
    bits a 31 27 = 0 → cls < 8 → 6 ≤ lg → lg ≤ 16 → d.at 24 8 % 4096 = 0 → bits w 31 30 = 0 → bits md 31 18 = 0 →
    bits pg 15 9 = 0 →
    (hostRing → bits w 29 18 = 0 ∧ md = 0 ∧
      ∃ r, Cells.find (bits w 17 0) s.rings = some r ∧ r.cls = 1 ∧ r.owner = d.fn.val) →
    (¬hostRing → bits w 17 0 = 0x3FFFF ∧ bits w 28 18 < s.msixSize d.fn) →
    (cls = 6 → s.bound (millAt (bits pg 8 8)) (bits pg 7 0) d.fn = true) → (cls ≠ 6 → pg = 0x1FF) →
    (cls = 2 → s.eventRing d.fn = none) → s.mayCreate d.fn id = true → Cells.find id s.rings = none →
    ∃ t, exec (.ringCreate d) s = .next t ∧ t.inflight.any (·.isFor d) = false ∧
      t.rings = Cells.put id (Ring.new d.fn cls lg (d.at 24 8) (bits w 17 0) (bits w 28 18) (bit w 29) (bits md 7 0)
        (bits md 17 8) (bits pg 7 0) (bits pg 8 8)) s.rings) ∧
  (∀ (d : Desc) (s : State) r, s.Accepts 0x03 d → d.target = 0 → bits d.arg0.toNat 31 18 = 0 →
    bits (d.at 26 2) 15 11 = 0 → d.clearFrom 28 = true →
    let id := bits d.arg0.toNat 17 0
    let kind := d.at 24 2
    let index := bits (d.at 26 2) 9 0
    let die := bits (d.at 26 2) 10 10
    (d.fn.val ≠ 0 → r.owner = d.fn.val ∧ kind < 2 ∧ s.ownsSource d.fn kind index (millAt die) = true) →
    Cells.find id s.rings = some r → classTakes r.cls kind = true → sourceListed kind index die = true →
    s.ringFor r.cls kind index die = none →
    ∃ t, exec (.ringBind d) s = .next t ∧ t.inflight.any (·.isFor d) = false ∧
      t.rings = Cells.put id { r with source := some (kind, index, die) } s.rings) ∧
  (∀ (d : Desc) (s : State) r, s.Accepts 0x02 d → d.target = 0 → bits d.arg0.toNat 31 18 = 0 → d.clearFrom 24 = true →
    let id := bits d.arg0.toNat 17 0
    Cells.find id s.rings = some r → r.owner = d.fn.val → 3 ≤ id → s.cqNamed id = false →
    ∃ t, exec (.ringDestroy d) s = .next t ∧ t.rings = Cells.put id { r with closing := true } s.rings ∧
      t.inflight.any (·.isFor d) = true ∧ t.compl = s.compl) ∧
  (∀ (ring : BitVec 18) (s : State) r, Cells.find ring.toNat s.rings = some r → r.closing = true →
    (∀ o ∈ s.inflight, o.desc.ring ≠ ring.toNat ∧ o.destroys ring.toNat = false) →
    (∀ c ∈ s.compl, c.ring ≠ ring.toNat) →
    exec (.ringDestroyDone ring) s = .next { s with rings := Cells.del ring.toNat s.rings }) ∧
  ∀ (d : Desc) (s : State), s.Accepts 0x04 d → d.target = 0 → bits d.arg0.toNat 31 7 = 0 → d.clearFrom 30 = true →
    let fn := bits d.arg0.toNat 6 0
    fn ≠ 0 → fn ≤ 64 → d.at 24 4 < 2 ^ 18 → d.at 28 2 < 2 ^ 14 → s.windowFree fn (d.at 24 4) = true →
    ((List.range 64).map fun v => if v + 1 = fn then d.at 28 2 else s.rd .vfOpsMax .m0 (v + 1)).sum ≤ 15360 →
    ∃ t, exec (.vfConfig d) s = .next t ∧ t.rd .vfWindowBase .m0 fn = d.at 24 4 ∧ t.on .vfWindowValid .m0 fn = true ∧
      t.rd .vfOpsMax .m0 fn = d.at 28 2 ∧ t.inflight.any (·.isFor d) = false ∧ t.rings = s.rings

/-- ADMIN_EN of 1 with bases and lengths in order and the firmware ready creates rings 0 to 2, admin_ready set; with a base or
a length out of order it sets admin_err and creates none; of 0 it destroys every ring. HOST_RESET destroys every ring and
disables SR-IOV. VF_FLR of an enabled function leaves none of its rings and operations; VF_DISABLE leaves NumVFs 0 and no ring
of an enabled function. PCIE_LINK_UP after the boot has started brings the link up. Completes: ADMIN_EN, HOST_RESET,
VF_FLR, VF_DISABLE, PCIE_LINK_UP. -/
def Obligations.AdminRingsAndFunctionResets : Prop :=
  (∀ (s : State), s.adminBad = false → s.on .hostAdminReady = false →
    ∃ t, exec (.adminEn true) s = .next t ∧ t.on .hostAdminReady = true ∧ t.on .hostAdminErr = false ∧
      (∃ r, Cells.find 0 t.rings = some r ∧ r.cls = 0 ∧ r.cq = 1 ∧ r.owner = 0 ∧ r.base = s.adminBase .hostSqLo .hostSqHi) ∧
      (∃ r, Cells.find 1 t.rings = some r ∧ r.cls = 1 ∧ r.owner = 0 ∧ r.base = s.adminBase .hostCqLo .hostCqHi) ∧
      (∃ r, Cells.find 2 t.rings = some r ∧ r.cls = 2 ∧ r.owner = 0 ∧ r.base = s.adminBase .hostEqLo .hostEqHi) ∧
      t.tally = s.tally) ∧
  (∀ (s : State), s.adminBad = true → ∃ t, exec (.adminEn true) s = .next t ∧ t.on .hostAdminErr = true ∧
    SameBut [(.hostAdminErr, .m0, 0)] s t) ∧
  (∀ (s : State), ∃ t, exec (.adminEn false) s = .next t ∧ t.rings = [] ∧ t.on .hostAdminReady = false ∧
    t.on .hostAdminEn = false ∧ t.inflight = s.inflight) ∧
  (∀ (s : State), ∃ t, exec .hostReset s = .next t ∧ t.rings = [] ∧ t.rd .numVfs = 0 ∧ t.on .hostAdminEn = false ∧
    t.inflight = s.inflight ∧ t.tally = s.tally ∧ t.offs = s.offs ∧ t.keys = s.keys ∧ t.hostMem = s.hostMem) ∧
  (∀ (v : Fin 64) (s : State), v.val < s.rd .numVfs →
    ∃ t, exec (.vfFlr v) s = .next t ∧ (∀ q ∈ t.rings, q.2.owner ≠ v.val + 1) ∧
      (∀ o ∈ t.inflight, o.desc.fn.val ≠ v.val + 1) ∧ t.rd .vfOpsMax .m0 (v.val + 1) = s.rd .vfOpsMax .m0 (v.val + 1) ∧
      t.tally = s.tally) ∧
  (∀ (s : State), ∃ t, exec .vfDisable s = .next t ∧ t.rd .numVfs = 0 ∧
    (∀ q ∈ t.rings, ¬(1 ≤ q.2.owner ∧ q.2.owner ≤ s.rd .numVfs)) ∧ t.tally = s.tally) ∧
  ∀ (s : State), s.on .bootStarted = true → ∃ t, exec .pcieLinkUp s = .next t ∧ t.on .pcieUp = true ∧
    SameBut [(.pcieUp, .m0, 0)] s t

/-- CANDIDATE_ACTIVE of one that may be active: active, unqualified, its requalification started. CANDIDATE_INACTIVE: neither
active nor qualified. QL_RECEIVED of a client candidate, or the third alike of a line candidate, is its level; QL_TIMEOUT marks it, but for a crosscut
candidate, which waits for none.
FREQ_MEASURE_UPDATE gives each active candidate its offset, and nothing while XO_IN is lost. WTR_EXPIRE and WTR_CLEAR end a
wait: a candidate fit otherwise is eligible. HOLDOFF_EXPIRE ends the hold-off. CLK_SEL_WRITE writes the selector.
Completes: CANDIDATE_ACTIVE, CANDIDATE_INACTIVE, QL_RECEIVED, QL_TIMEOUT, FREQ_MEASURE_UPDATE, WTR_EXPIRE, WTR_CLEAR, HOLDOFF_EXPIRE,
CLK_SEL_WRITE. -/
def Obligations.TimingCandidatesFollowTheirInputs : Prop :=
  (∀ (c : Fin 14) (s : State),
    (s.on .candActive .m0 c = false → s.candMayBe c = true → s.rd .timRequalS ≤ 255 →
      ∃ t, exec (.candidateActive c) s = .next t ∧ t.on .candActive .m0 c = true ∧ t.on .candQualified .m0 c = false ∧
        t.rd .candRequalLeftS .m0 c = max 1 (s.rd .timRequalS) ∧ t.tally = s.tally) ∧
    (s.on .candActive .m0 c = true → (c.val < 6 ∨ s.candMayBe c = false) →
      ∃ t, exec (.candidateInactive c) s = .next t ∧ t.on .candActive .m0 c = false ∧
        t.on .candQualified .m0 c = false ∧ t.rd .candRequalLeftS .m0 c = 0 ∧ t.tally = s.tally) ∧
    (∀ ql : BitVec 4,
      (10 ≤ c.val → s.on .cselSelEn .m0 (c - 10) = true →
        ∃ t, exec (.qlReceived c ql) s = .next t ∧ t.rd .candRxQl .m0 c = ql.toNat ∧ t.on .candQlTimeout .m0 c = false) ∧
      (6 ≤ c.val → c.val < 10 → s.rd .candQlLast .m0 c = ql.toNat → 2 ≤ s.rd .candQlRun .m0 c →
        ∃ t, exec (.qlReceived c ql) s = .next t ∧ t.rd .candRxQl .m0 c = ql.toNat ∧ t.on .candQlTimeout .m0 c = false)) ∧
    (6 ≤ c.val → s.crosscutCand c = false →
      ∃ t, exec (.qlTimeout c) s = .next t ∧ t.on .candQlTimeout .m0 c = true ∧ t.tally = s.tally) ∧
    (c.val < 6 ∨ s.crosscutCand c = true → exec (.qlTimeout c) s = .next s) ∧
    (s.candBaseNow c = true → (s.candRank c).isSome = true → s.on .candWtrDue .m0 c = false →
      (s.on .candWtrRunning .m0 c = true →
        ∃ t, exec (.wtrExpire c) s = .next t ∧ t.on .candEligible .m0 c = true ∧ t.on .candWtrRunning .m0 c = false) ∧
      ∀ w fs, s.dieAccess .m0 (Fld.offsetAt .candWtrClear c) = .word w fs →
        ∃ t, exec (.wtrClear c) s = .next t ∧ t.on .candEligible .m0 c = true ∧ t.on .candWtrRunning .m0 c = false)) ∧
  (∀ (offs : List (BitVec 16)) (s : State), s.on .timXoLost = false →
    ∃ t, exec (.freqMeasureUpdate offs) s = .next t ∧ t.tally = s.tally ∧
      ∀ c < 14, s.on .candActive .m0 c = true → ∀ v, offs[c]? = some v → t.rd .candFreqOff .m0 c = v.toNat) ∧
  (∀ (offs : List (BitVec 16)) (s : State), s.on .timXoLost = true → exec (.freqMeasureUpdate offs) s = .next s) ∧
  (∀ (s : State), s.on .timHold = true → ∃ t, exec .holdoffExpire s = .next t ∧ t.on .timHold = false ∧ t.tally = s.tally) ∧
  ∀ (n : Fin 4) (lane : BitVec 6) (en : Bool) (s : State) w fs,
    s.dieAccess .m0 (Fld.offsetAt .cselLane n) = .word w fs →
    ∃ t, exec (.clkSelWrite n lane en) s = .next t ∧ t.rd .cselLane .m0 n = lane.toNat ∧ t.on .cselSelEn .m0 n = en

/-- DPLL_LOCKED moves ACQUIRING to LOCKED, the input within the pull-in range, and DPLL_PHASE_ERROR LOCKED to ACQUIRING, each with
TIM_STATE and neither in a hold-off or a switch; in other states they do nothing. TIM_SWITCH of a switch in progress ends it, counted
with TIM_SWITCH unless an input only returned within its hold-off (log entry 72). XO_LOST sets xo_lost with XO_LOST, and with no
reference selected the state is FREERUN. HISTORY_SECOND of a locked second keeps its average in front, 30 at most. TIM_PSTEP
adds to the pending step, held in 32 bits; PHASE_STEP_DONE clears it. Completes: DPLL_LOCKED, DPLL_PHASE_ERROR, TIM_SWITCH,
XO_LOST, HISTORY_SECOND, TIM_PSTEP, PHASE_STEP_DONE. -/
def Obligations.TimingStateSwitchesAndPhaseSteps : Prop :=
  ∀ (s : State),
    (s.rd .timTstate = 1 → s.dpllFollows = true → s.pullsIn = true → ∃ t, exec .dpllLocked s = .next t ∧ t.rd .timTstate = 2 ∧
      t.events = (s.raise Reason.timState (blkId .m0 Dom.timing)).events ∧ t.tally = s.tally) ∧
    (s.rd .timTstate = 2 → s.dpllFollows = true → ∃ t, exec .dpllPhaseError s = .next t ∧ t.rd .timTstate = 1 ∧
      t.events = (s.raise Reason.timState (blkId .m0 Dom.timing)).events ∧ t.tally = s.tally) ∧
    (s.rd .timTstate ≠ 1 → exec .dpllLocked s = .next s) ∧ (s.pullsIn = false → exec .dpllLocked s = .next s) ∧ (s.rd .timTstate ≠ 2 → exec .dpllPhaseError s = .next s) ∧
    (s.on .timSwitching = true →
      (s.on .timReturn = false → ∃ t, exec .timSwitch s = .next t ∧
        t.rd .timSwitches = min (s.rd .timSwitches + 1) 0xFFF ∧ (∃ e ∈ t.events, e.reason = Reason.timSwitch) ∧
        t.tally = s.tally) ∧
      (s.on .timReturn = true → ∃ t, exec .timSwitch s = .next t ∧ t.rd .timSwitches = s.rd .timSwitches)) ∧
    (s.on .timXoLost = false → ∃ t, exec .xoLost s = .next t ∧ t.on .timXoLost = true ∧
      (∃ e ∈ t.events, e.reason = Reason.xoLost) ∧ (s.rd .timSelCand = 15 → t.rd .timTstate = 0)) ∧
    (∀ avg : BitVec 64, s.rd .timTstate = 2 → s.on .timHold = false → s.on .timSecVoid = false →
      ∃ t, exec (.historySecond avg) s = .next t ∧ t.hist = (avg.toInt :: s.hist).take 30 ∧
        t.rd .timHistS = min 30 (s.rd .timHistS + 1) ∧ SameBut [(.timHistS, .m0, 0)] { s with hist := t.hist } t) ∧
    (∀ (v : BitVec 32) w fs, s.dieAccess .m0 (Fld.offsetAt .timPstep 0) = .word w fs →
      ∃ t, exec (.timPstep v) s = .next t ∧
        t.rd .timPstepPending = ofInt 32 (clampInt 32 (toInt 32 (s.rd .timPstepPending) + v.toInt)) ∧
        SameBut (regsAt .m0 0 [.timPstepPending, .timStepBusy]) s t) ∧
    ∃ t, exec .phaseStepDone s = .next t ∧ t.rd .timPstepPending = 0 ∧ t.on .timStepBusy = false ∧
      SameBut (regsAt .m0 0 [.timPstepPending, .timStepBusy]) s t

/-- PPS_IN_EDGE: the third evenly spaced edge of an invalid input makes it valid with one event; PPS_IN_MISSING of a valid one
makes it invalid with one event. INTERNAL_SECOND latches the tally and lets each clock output take its frequency where it is
in range, else none. PPS_REALIGN of PPS_OUT2 or PPS_OUT3 takes the staged offset and does nothing to the first two; CLK_REALIGN
waits for the second. PPS_OUT_PULSE of an open output with no move pending pulses at the tally. Completes:
PPS_IN_EDGE, PPS_IN_MISSING, INTERNAL_SECOND, PPS_REALIGN, CLK_REALIGN, PPS_OUT_PULSE. -/
def Obligations.PulseInputsSecondsAndOutputs : Prop :=
  ∀ (s : State),
    (∀ (p : Fin 2), s.on (ppsValid p) = false → 2 ≤ s.rd .ppsRunIn .m0 p → ∀ onTime,
      ∃ t, exec (.ppsInEdge p true onTime) s = .next t ∧ t.on (ppsValid p) = true ∧
        t.events = (s.raiseField (ppsValid p) .m0).events ∧ t.tally = s.tally) ∧
    (∀ (p : Fin 2), s.on (ppsValid p) = true →
      ∃ t, exec (.ppsInMissing p) s = .next t ∧ t.on (ppsValid p) = false ∧
        t.events = (s.raiseField (ppsValid p) .m0).events ∧ t.tally = s.tally) ∧
    (s.tally < 2 ^ 68 → ∃ t, exec .internalSecond s = .next t ∧ t.rd .ppsTallyLive = s.tally ∧
      t.rd .timPpsTallyOff = s.tally % sfLen ∧
      (∀ c < 4, s.rd .clkFreqHz .m0 c < 2 ^ 30 →
        t.rd .clkUse .m0 c = if 1000 ≤ s.rd .clkFreqHz .m0 c ∧ s.rd .clkFreqHz .m0 c ≤ 800000000 then s.rd .clkFreqHz .m0 c
          else 0) ∧ t = { s with regs := t.regs }) ∧
    (∀ (p : Fin 4) w fs, s.dieAccess .m0 (Fld.offsetAt .ppsRealign p) = .word w fs →
      (p.val < 2 → exec (.ppsRealign p) s = .next s) ∧
      (2 ≤ p.val → ∃ t, exec (.ppsRealign p) s = .next t ∧ t.rd .ppsUse .m0 p = s.rd .ppsOffset .m0 p % 2 ^ 32 ∧
        t.on .ppsMoved .m0 p = true ∧ SameBut (regsAt .m0 p [.ppsUse, .ppsMoved]) s t)) ∧
    (∀ (c : Fin 4) w fs, s.dieAccess .m0 (Fld.offsetAt .clkRealign c) = .word w fs →
      ∃ t, exec (.clkRealign c) s = .next t ∧ t.on .clkRealigning .m0 c = true ∧ SameBut [(.clkRealigning, .m0, c.val)] s t) ∧
    ∀ (p : Fin 4), s.ppsOpen p = true → s.on .ppsMoved .m0 p = false → s.tally < 2 ^ 68 →
      ∃ t, exec (.ppsOutPulse p) s = .next t ∧ t.rd .ppsLast .m0 p = s.tally ∧
        t.rd .ppsPulse .m0 p = s.rd .ppsWidth .m0 p % 2 ^ 3 ∧
        SameBut (regsAt .m0 p [.ppsLast, .ppsEver, .ppsMoved, .ppsPulse]) s t

/-- PWR_REQ in order waits behind a request that runs; alone in the queue it begins the handshake with the domains not yet
there, in entry order. PWR_REQUEST: a domain refuses with its first reason, else waits or grants. PWR_ANSWER: the last grant sends
ENTER for the next SF boundary; a refusal, as a PWR_TIMEOUT after 1,024 SF, ends the entry with RELEASE to every domain, none
of which changes state. DOMAIN_GRANT ends a DELAY. PWR_DEADLINE sends ENTER for its boundary, or RELEASE where an answer is missing, and an answer that
comes when its boundary is four SF away or less ends the entry with RELEASE. PWR_RELEASE ends dom_busy. Completes: PWR_REQ, PWR_REQUEST,
PWR_ANSWER, DOMAIN_GRANT, PWR_TIMEOUT, PWR_DEADLINE, PWR_RELEASE. -/
def Obligations.PowerRequestsHandshakeAndRelease : Prop :=
  (∀ (d : Desc) (s : State), powerBad d = false → s.Accepts 0x30 d → s.has d.mill = true → s.reach d.mill = true →
    let a := d.arg0.toNat
    let r : PwrReq := ⟨some ⟨0x30, d⟩, bits a 2 0, s.namedDoms d, bit a 5, bits a 4 3 == 2, if bit a 6 then some d.sf.toNat else none⟩
    (s.pwr.isSome = true → ∃ t, exec (.pwrReq d) s = .next t ∧ t.pwrQ = s.pwrQ ++ [r] ∧ t.pwr = s.pwr ∧ t.compl = s.compl) ∧
    let mine := entryOrder (r.doms.filter fun e => !decide (r.target ≤ s.domSt e.1 e.2))
    (s.pwr = none → s.waking = none → s.pwrQ = [] → r.target ≠ 0 → bit a 6 = false →
      (∀ e ∈ r.doms, s.domInReset e.1 e.2 = false) → mine ≠ [] →
      ∃ t, exec (.pwrReq d) s = .next t ∧ t.pwrQ = [] ∧ t.compl = s.compl ∧
        t.pwr = some ⟨r, s.sf, mine.map fun e => ⟨e.1, e.2, .none, false⟩, none⟩)) ∧
  ∀ (die : Die) (dom : Fin 16) (s : State) r, s.pwr = some r →
    (∀ e, r.find die dom = some e → s.reach die = true →
      (e.ans = .none →
        (∀ k, s.refusal r.req die dom = some k →
          exec (.pwrRequest die dom) s = .next { s with pwr := some (r.setDom die dom (.refuse k) false) }) ∧
        (s.refusal r.req die dom = none → ∃ t, exec (.pwrRequest die dom) s = .next t ∧
          t.pwr = some (r.setDom die dom (if s.mustWait r.req.target die dom then .delay else .grant) false))) ∧
      (e.seen = false → e.ans = .grant → r.req.boundary = none → (r.setDom die dom .grant true).allGranted = true →
        exec (.pwrAnswer die dom) s = .next { s with pwr := some { r.setDom die dom .grant true with enter := some (s.sf + 1) } }) ∧
      (∀ b, e.seen = false → e.ans ≠ .none → r.enter = none → r.req.boundary = some b → b ≤ s.sf + 4 → s.pwrQ = [] →
        ∃ t, exec (.pwrAnswer die dom) s = .next t ∧ t.pwr = none ∧
          ∀ x ∈ r.doms, (x.die, x.dom) ∈ t.releases ∧ t.domSt x.die x.dom = s.domSt x.die x.dom) ∧
      ∀ k, e.seen = false → e.ans = .refuse k → (∀ b, r.req.boundary = some b → s.sf + 4 < b) → s.pwrQ = [] →
        ∃ t, exec (.pwrAnswer die dom) s = .next t ∧ t.pwr = none ∧ (∀ x ∈ r.doms, (x.die, x.dom) ∈ t.releases) ∧
          (∀ x ∈ r.doms, t.domSt x.die x.dom = s.domSt x.die x.dom) ∧
          (∃ v ∈ t.events, v.reason = Reason.pwrRefused ∧ v.block = blkId die dom)) ∧
    (∀ e, r.find die dom = some e → e.ans = .delay → s.mustWait r.req.target die dom = false →
      exec (.domainGrant die dom) s = .next { s with pwr := some (r.setDom die dom .grant false) }) ∧
    (∀ e, r.find die dom = some e → (e.ans = .none ∨ e.ans = .delay) → r.since + 1024 ≤ s.sf → r.enter = none → s.pwrQ = [] →
      ∃ t, exec (.pwrTimeout die dom) s = .next t ∧ t.pwr = none ∧ (∀ x ∈ r.doms, (x.die, x.dom) ∈ t.releases) ∧
        (∀ x ∈ r.doms, t.domSt x.die x.dom = s.domSt x.die x.dom) ∧
        (∃ v ∈ t.events, v.reason = Reason.pwrAborted ∧ v.block = blkId die dom)) ∧
    (∀ b, r.req.boundary = some b → r.enter = none → b ≤ s.sf + 4 →
      (r.allGranted = true → exec .pwrDeadline s = .next { s with pwr := some { r with enter := some b } }) ∧
      (r.allGranted = false → s.pwrQ = [] → ∃ t, exec .pwrDeadline s = .next t ∧ t.pwr = none ∧
        (∀ x ∈ r.doms, (x.die, x.dom) ∈ t.releases ∧ t.domSt x.die x.dom = s.domSt x.die x.dom))) ∧
    (s.releases.contains (die, dom.val) = true → s.reach die = true →
      ∃ t, exec (.pwrRelease die dom) s = .next t ∧ t.on .domBusy die dom = false ∧ t.pwr = s.pwr ∧
        t.releases = s.releases.filter (· != (die, dom.val)) ∧ t.domSt die dom = s.domSt die dom)

/-- PWR_ENTER at its boundary, no other request waiting: every affected domain is in the state requested. DOMAIN_WAKE_DONE:
every named domain is in Run and the request has ended. WAKE_SOURCE wakes a domain in Idle, and ends an entry to which that
domain has granted, every domain keeping its state. LAMP_CLEAR frees every entry of the lamp board and clears its counters, and leaves every other register. Completes: PWR_ENTER,
DOMAIN_WAKE_DONE, WAKE_SOURCE, LAMP_CLEAR. -/
def Obligations.DomainsEnterWakeAndTheLampBoardClears : Prop :=
  (∀ (s : State) r b, s.pwr = some r → r.enter = some b → b ≤ s.sf → r.req.target ≤ 4 → s.pwrQ = [] →
    ∃ t, exec .pwrEnter s = .next t ∧ t.pwr = none ∧ ∀ x ∈ r.doms, t.domSt x.die x.dom = r.req.target) ∧
  (∀ (s : State) r, s.waking = some r → (s.tallyOn = true → r.boundary = none) → s.pwrQ = [] →
    ∃ t, exec .domainWakeDone s = .next t ∧ t.waking = none ∧ ∀ x ∈ r.doms, x.2 ∈ x.1.domains → t.domSt x.1 x.2 = 0) ∧
  (∀ (die : Die) (dom : Fin 16) (s : State), s.has die = true →
    (s.pwr = none → s.domSt die dom = 1 → ∃ t, exec (.wakeSource die dom) s = .next t ∧ t.domSt die dom = 0) ∧
    ∀ r e, s.pwr = some r → r.enter = none → r.find die dom = some e → e.ans = .grant → s.domSt die dom ≠ 1 → s.pwrQ = [] →
      ∃ t, exec (.wakeSource die dom) s = .next t ∧ t.pwr = none ∧ (∀ x ∈ r.doms, (x.die, x.dom) ∈ t.releases) ∧
        (∀ x ∈ r.doms, t.domSt x.die x.dom = s.domSt x.die x.dom) ∧
        (∃ v ∈ t.events, v.reason = Reason.pwrAborted ∧ v.block = blkId die dom)) ∧
  ∀ (s : State), ∃ t, exec .lampClear s = .next t ∧ (∀ e : Nat, t.on .lampValid .m0 e = false) ∧ t.rd .pwrLampUsed = 0 ∧
    t.rd .pwrLampOverflow = 0 ∧ t.rd .pwrRefusals = 0 ∧ t.rd .pwrAborts = 0 ∧
    (∀ f d i, f.row.blk ≠ .lamp → f ∉ [Fld.pwrLampUsed, .pwrLampOverflow, .pwrRefusals, .pwrAborts] → t.rd f d i = s.rd f d i) ∧
    t = { s with regs := t.regs, offs := t.offs, freeRegs := t.freeRegs }

/-- BUDGET_INTERVAL, at an SF whose count is a multiple of 256: each good supply reading is shown, a bad one leaves the last good one
or, at the fourth in a row, the greatest; P_meas is their sum; and grants are issued. At another SF it changes nothing. GRANT_APPLY of
grants issued in an earlier SF: each carrier's steps and cap in force are the grants raised to their floors, the steps at most 16
unless NLC1 runs, each Mill die's overtime and k the grants; grants issued in this SF wait. THERMAL_CHECK of a Face or Mill die shows
the temperature of its last good conversion and judges its level by the thresholds; an ore bin die's level follows the reading it last
sent. BIN_TEMP_REPORT shows the higher of the two sensors of an ore bin die that M0 reaches, and the die doubles the refresh above
85 °C. Completes: BUDGET_INTERVAL, GRANT_APPLY, THERMAL_CHECK, BIN_TEMP_REPORT. -/
def Obligations.GrantsTakeEffectAboveFloorsAndLevelsFollowTemperature : Prop :=
  (∀ (pool : List (List Nat)) (s : State),
    (s.sf % 256 = 0 → ∃ t, exec (.budgetInterval pool) s = .next t ∧ t.grants.isSome = true ∧
      (∀ d v, s.has d = true → s.supplyOf d = some v → v < 2 ^ 16 →
        t.rd .pdiePDie .m0 d.code = v ∧ t.on .pdieStale .m0 d.code = false) ∧
      (∀ d, s.has d = true → s.supplyOf d = none → t.rd .pdiePDie .m0 d.code =
        if 3 ≤ s.rd .supBad d ∨ s.on .supGood d = false then maxDie d else s.rd .supLast d) ∧
      t.rd .pwrPMeasW = min 1023 (((Die.all.filter s.has).map fun d => t.rd .pdiePDie .m0 d.code).sum / 100)) ∧
    (s.sf % 256 ≠ 0 → exec (.budgetInterval pool) s = .next s)) ∧
  (∀ (s : State) (g : Grants), s.grants = some g → (∀ d, s.on .thermFast d = false) →
    (s.sf ≤ s.rd .grantSf → ∃ t, exec .grantApply s = .next t ∧ t.grants = some g ∧
      SameBut (Die.all.map fun d => (.thermLimit, d, 0)) { s with events := t.events } t) ∧
    (s.rd .grantSf < s.sf → ∃ t, exec .grantApply s = .next t ∧ t.grants = none ∧
      (∀ n, s.hasCarrier n = true → nth g.steps n < 64 → nth g.cap n < 64 → nth g.survey n ≤ 64 → s.rd .carNlFloor .m0 n < 64 →
        s.rd .carCapFloor .m0 n < 64 →
        t.rd .carStepsGrant .m0 n = (let x := max (nth g.steps n) (s.rd .carNlFloor .m0 n)
          if s.nlc1Runs n then x else min 16 x) ∧
        t.rd .carCapGrant .m0 n = max (nth g.cap n) (s.rd .carCapFloor .m0 n) ∧ t.rd .carSurveyDuty .m0 n = nth g.survey n) ∧
      ∀ m ∈ s.mills, nth g.ot m < 2 ^ 14 → nth g.k m < 32 →
        t.rd .pmillOtGrant .m0 m = nth g.ot m ∧ t.rd .pmillAssayK .m0 m = nth g.k m)) ∧
  (∀ (d : Die) (s : State), s.has d = true → s.on .tripped d = false →
    (d.isBin = false → s.on .tempGood d = true →
      let temp := tempOfCode (s.rd .tempCode d)
      ∃ t, exec (.thermalCheck d) s = .next t ∧ t.rd .pdieTemp .m0 d.code = temp.toNat ∧
        t.level d = s.levelAt (s.level d) temp.toInt ∧ t.grants = s.grants ∧ t.tally = s.tally) ∧
    (d.isBin = true → s.rd .binMiss d < 4 →
      ∃ t, exec (.thermalCheck d) s = .next t ∧ t.rd .pdieTemp .m0 d.code = s.rd .pdieTemp .m0 d.code ∧
        t.level d = s.levelAt (s.level d) (s.tempOf d) ∧ t.grants = s.grants ∧ t.tally = s.tally)) ∧
  ∀ (b : Fin 2) (base top : BitVec 12) (s : State),
    let d := if b = 0 then Die.b0 else .b1
    let code := max base.toNat top.toNat
    s.has d = true → s.dieInReset d = false → s.domDead d Dom.binCtrl = false →
    ∃ t, exec (.binTempReport b base top) s = .next t ∧ t.on .binRefresh2x d = decide (2384 < code) ∧
      (s.reach d = true → t.rd .pdieTemp .m0 d.code = (tempOfCode code).toNat ∧ t.on .binSeen d = true ∧
        SameBut [(.binRefresh2x, d, 0), (.pdieTemp, .m0, d.code), (.pdieTempPeak, .m0, d.code), (.binSeen, d, 0)] s t) ∧
      (s.reach d = false → SameBut [(.binRefresh2x, d, 0)] s t)

/-- MEM_READ in order of a target that takes work, no destructive march on the memory and no warned access of a memory in test mode:
every byte moves to host memory, zeros for a poisoned word, and it completes with UNCORRECTABLE where it met one, else OK. MEM_WRITE of
words without poison, none lost to port A, stores every byte and no other, and completes OK with its length. A warned access of a shared
scratchpad in test mode completes with RETRY and moves nothing. PARTIAL_MEMORY_WRITE stores its bytes and makes the line valid, a
whole word clears its poison; a partial one of a poisoned word changes no byte and counts.
Completes: MEM_READ, MEM_WRITE, PARTIAL_MEMORY_WRITE. -/
def Obligations.HostAndPartialMemoryAccesses : Prop :=
  (∀ (d : Desc) (rivals : List (List (BitVec 5))) (warned : Bool) (s : State), memBad d = false →
    let m := d.arg0.toNat % 256
    let x := memIx d.mill m
    let a := d.at 24 8
    let ends (t : State) (op : Nat) (st : Status) (n : Nat) : Prop :=
      let u := (s.workStart op d d.mill (memDom d.mill m)).finish op d st n
      t.inflight = u.inflight ∧ t.compl = u.compl
    s.Serves d.mill (memDom d.mill m) → s.marching d.mill m true = false →
    (s.Accepts 0x10 d → (warned = true → m = 0 → s.testMode d.mill m = false) →
      let word := if d.mill.isBin then 64 else 8
      let poison (k : Nat) : Bool := s.poisoned x ((a + k) / word)
      ∃ t, exec (.memRead d warned rivals) s = .next t ∧ t.memory = s.memory ∧
        (∀ k < memLen d, t.hostByte (d.at 32 8 + k) = if poison k then 0 else s.memByte x (a + k)) ∧
        ends t 0x10 (if (List.range (memLen d)).any poison then .uncorrectable else .ok) (memLen d)) ∧
    (s.Accepts 0x10 d → warned = true → m = 0 → s.testMode d.mill m = true →
      ∃ t, exec (.memRead d warned rivals) s = .next t ∧ t.memory = s.memory ∧ t.hostMem = s.hostMem ∧ ends t 0x10 .retry 0) ∧
    (s.Accepts 0x11 d → regionBarred d = false → (warned = true → m = 0 → s.testMode d.mill m = false) →
      ∀ (data : List Byte) g, memShape d.mill m = some g → (∀ k < memLen d, s.poisoned x ((a + k) / g.bytes) = false) →
      ∃ t, exec (.memWrite d data [] warned rivals) s = .next t ∧ t.hostMem = s.hostMem ∧ ends t 0x11 .ok (memLen d) ∧
        (∀ k < memLen d, t.memByte x (a + k) = data.getD k 0 ∧ t.lineValid x (g.lineOf ((a + k) / g.bytes)) = true) ∧
        ∀ y b, b < 2 ^ 34 → ¬(y = x ∧ a ≤ b ∧ b < a + memLen d) → t.memByte y b = s.memByte y b)) ∧
  ∀ (die : Die) (mem : Byte) (addr : BitVec 32) (off : Nat) (bytes : List Byte) (s : State) g,
    let m := mem.toNat
    let w := addr.toNat
    let x := memIx die m
    memShape die m = some g → w < g.words → s.memUp die m = true → bytes ≠ [] → off + bytes.length ≤ g.bytes →
    (s.poisoned x w = false ∨ bytes.length = g.bytes →
      ∃ t, exec (.partialMemoryWrite die mem addr off bytes none) s = .next t ∧ t.regs = s.regs ∧
        t.lineValid x (g.lineOf w) = true ∧ t.poisoned x w = false ∧
        (∀ k < bytes.length, t.memByte x (w * g.bytes + off + k) = bytes.getD k 0) ∧
        ∀ y b, b < 2 ^ 34 → ¬(y = x ∧ w * g.bytes + off ≤ b ∧ b < w * g.bytes + off + bytes.length) →
          t.memByte y b = s.memByte y b) ∧
    (s.poisoned x w = true → bytes.length < g.bytes → ∀ fault,
      exec (.partialMemoryWrite die mem addr off bytes fault) s = .next (s.inc .memPartialRefused die))

/-- The ring-context region is the top 2 MiB of M0's shared scratchpad, word indices 1,835,008 to 2,097,151. A MEM_WRITE in
order, of a memory that takes work (R506), that names a byte of one of these words completes with NOT_PERMITTED, whatever the data, and
no memory, host memory or off-shift setting changes. The same holds of the ring-context range of B0 and the firmware ranges of
the ore bins, array offsets 0x1_E000_0000 (on B1 0x1_E100_0000) to 0x3_7FFF_FFFF. -/
def Obligations.RingContextRegionIsNotWritten : Prop :=
  ∀ (d : Desc) (s : State) (data : List Byte) (lost : List (Nat × BitVec 64)) (warned : Bool) (rivals : List (List (BitVec 5))),
    let m := d.arg0.toNat % 256
    memBad d = false → s.Accepts 0x11 d → s.Serves d.mill (memDom d.mill m) →
    ((d.mill = .m0 ∧ m = 0 ∧ ∃ k < memLen d, 1835008 ≤ (d.at 24 8 + k) / 8 ∧ (d.at 24 8 + k) / 8 ≤ 2097151) ∨
      (d.mill = .b0 ∧ ∃ k < memLen d, 0x1E0000000 ≤ d.at 24 8 + k ∧ d.at 24 8 + k ≤ 0x37FFFFFFF) ∨
      (d.mill = .b1 ∧ ∃ k < memLen d, 0x1E1000000 ≤ d.at 24 8 + k ∧ d.at 24 8 + k ≤ 0x37FFFFFFF)) →
    let t := (s.workStart 0x11 d d.mill (memDom d.mill m)).finish 0x11 d .notPermitted
    exec (.memWrite d data lost warned rivals) s = .next t ∧ (s.pwr = none → s.Completes t 0x11 d .notPermitted) ∧
      t.memory = s.memory ∧ t.memValid = s.memValid ∧ t.poison = s.poison ∧ t.hostMem = s.hostMem ∧ t.offs = s.offs

/-- CE_DETECTED of a live word counts and advances its entry's hits. UE_DETECTED counts, raises UE_DETECTED, poisons the word and
has it tested. CANARY_START starts the oldest waiting test of a word. CANARY_DONE ends it with CANARY_DONE: a word that holds its patterns in one of the two passes is
TRANSIENT and restarts the hits, one that fails both is STUCK and its row goes to the next free spare row of its bank. CE_FREE frees the entries named whose test does not wait or run.
Another unit's test ends the same way. MEM_CNT_CLEAR clears the counters. LE_LOCKSTEP of an engine that runs tasks counts, raises
LE_LOCKSTEP and uses the cluster's spare. Completes: CE_DETECTED, UE_DETECTED, CANARY_START, CANARY_DONE, CE_FREE, MEM_CNT_CLEAR,
LE_LOCKSTEP. -/
def Obligations.MemoryErrorsLoggedTestedAndFreed : Prop :=
  ∀ (die : Die) (s : State),
    (∀ (mem : Byte) (addr : BitVec 32) g, s.wordLive die mem.toNat addr.toNat = some g →
      s.poisoned (memIx die mem.toNat) addr.toNat = false →
      (∀ syn : BitVec 22, ∃ t, exec (.ceDetected die mem addr syn) s = .next t ∧ t.memory = s.memory ∧ t.poison = s.poison ∧
        t.rd .memCeTotal die = min (s.rd .memCeTotal die + 1) (2 ^ 32 - 1) ∧
        ∀ e, s.ceEntry die mem.toNat addr.toNat = some e →
          t.rd .ceHitCount die e = min (s.rd .ceHitCount die e + 1) 0xFFFF ∧ t.rd .ceLastSf die e = s.sf % 2 ^ 32) ∧
      ∃ t, exec (.ueDetected die mem addr) s = .next t ∧ t.memory = s.memory ∧
        t.rd .memUeTotal die = min (s.rd .memUeTotal die + 1) 0xFFFF ∧
        t.poisoned (memIx die mem.toNat) addr.toNat = true ∧ (∃ v ∈ t.events, v.reason = Reason.ueDetected) ∧
        (((s.wordTests die).filter fun c => !c.running).length < 16 →
          ∃ c ∈ t.canary, c.die = die ∧ c.kind = 0 ∧ c.mem = mem.toNat ∧ c.addr = addr.toNat)) ∧
    (∀ c l, s.wordTests die = c :: l → ((c :: l).any fun c => c.running) = false →
      ∃ t, exec (.canaryStart die) s = .next t ∧ t.on .memCanaryBusy die = true ∧
        t.canary = updateWhere (· == c) (fun c => { c with running := true }) s.canary) ∧
    (∀ c idx g word f1 f2, (s.canary.find? fun c => c.die == die && c.kind == 0 && c.running) = some c →
      memShape die c.mem = some g →
      let bank := (g.rowOf c.addr).1
      let row := (g.rowOf c.addr).2
      let x := memIx die c.mem
      ∃ t, exec (.canaryDone die 0 idx word f1 f2) s = .next t ∧ t.canary = s.canary.erase c ∧ t.memory = s.memory ∧
        (∃ v ∈ t.events, v.reason = Reason.canaryDone) ∧
        (failsCanary word g.raw = false → t.rowMap = s.rowMap ∧ t.spareRows = s.spareRows ∧
          ∀ e, s.ceEntry die c.mem c.addr = some e → t.rd .ceCanaryState die e = 2 ∧ t.rd .ceHitCount die e = 0) ∧
        (failsCanary word g.raw = true → ∀ k, s.freeSpare x bank = some k →
          t.sparesTaken x bank = s.sparesTaken x bank ||| 2 ^ k ∧
          Cells.get (fun _ => 0) ((x * 1024 + bank) * 2 ^ 20 + row) t.rowMap = 1 + k) ∧
        (failsCanary word g.raw = true → s.freeSpare x bank = none → t.rowMap = s.rowMap ∧
          ∃ v ∈ t.events, v.reason = Reason.spareExhausted)) ∧
    (∀ (kind : Fin 7) c idx word f1 f2, kind ≠ 0 →
      (s.canary.find? fun c => c.die == die && c.kind == kind.val && c.running && c.idx == idx) = some c →
      ∃ t, exec (.canaryDone die kind idx word f1 f2) s = .next t ∧ t.canary = s.canary.erase c ∧ t.memory = s.memory ∧
        ∃ v ∈ t.events, v.reason = Reason.canaryDone) ∧
    (∀ (mask : BitVec 16) w fs, s.dieAccess die (Fld.offsetAt .memCeFree 0) = .word w fs →
      ∃ t, exec (.ceFree die mask) s = .next t ∧ t = { s with regs := t.regs } ∧ ∀ e < 16,
        (bit mask.toNat e = true → s.rd .ceCanaryState die e ≠ 1 → t.on .ceValid die e = false) ∧
        (bit mask.toNat e = false ∨ s.rd .ceCanaryState die e = 1 → t.rd .ceValid die e = s.rd .ceValid die e ∧
          t.rd .ceHitCount die e = s.rd .ceHitCount die e)) ∧
    (∀ w fs, s.dieAccess die (Fld.offsetAt .memCntClear 0) = .word w fs →
      ∃ t, exec (.memCntClear die) s = .next t ∧ t.rd .memCeTotal die = 0 ∧ t.rd .memUeTotal die = 0 ∧
        (∀ v < 32, t.rd .memConflictCycles die v = 0) ∧
        SameBut (regsAt die 0 [.memCeTotal, .memUeTotal, .memPartialRefused, .memCeUnlogged, .memCanaryDropped, .memWriteLost,
          .memSpBusyEvents] ++ (List.range 32).map fun v => (.memConflictCycles, die, v)) s t) ∧
    ∀ (k : Fin 6) (engine : Fin 65), s.leRuns die k engine = true →
      ∃ t, exec (.leLockstep die k engine) s = .next t ∧ (∃ v ∈ t.events, v.reason = Reason.leLockstep) ∧
        t.rd .lespareLockstepMismatch die k = min (s.rd .lespareLockstepMismatch die k + 1) 0xFFFF ∧
        ((∀ c ∈ s.canary, ¬(c.die = die ∧ c.kind = 6 ∧ c.idx = k * 128 + engine)) →
          (s.on .leSpareUsed die k = false → t.on .leSpareUsed die k = true) ∧
          ∃ c ∈ t.canary, c.die = die ∧ c.kind = 6 ∧ c.idx = k * 128 + engine)

/-- MARCH_RUN in order of a memory that carries no traffic and holds no loaded firmware, no march on the die, marks the march and
march_busy and completes nothing yet. MARCH_DONE ends the die's march: its operation completes OK with the failing rows, the
rows repaired and the failing words, as the test of each word that is not sound gives them; a march not to repair changes no spare
row, one to repair takes its failing row to the next free spare row, and after a destructive one every byte of the memory reads zero,
every line invalid, while other memories keep theirs. Completes: MARCH_RUN, MARCH_DONE. -/
def Obligations.MarchesRunReportAndRepair : Prop :=
  (∀ (d : Desc) (s : State),
    let a := d.arg0.toNat
    let m := a % 256
    dieTargetBad d = false → a / 1024 = 0 → d.clearFrom 24 = true → (memShape d.mill m).isSome = true → s.Accepts 0x12 d →
    s.Serves d.mill (memDom d.mill m) →
    (bit a 8 = true ∨ (memUsers d.mill m).any (s.trafficOn d.mill) = false ∧
      ∀ c, clusterOf d.mill (memDom d.mill m) = some c → s.on .fwRunning d.mill c = false ∧ s.on .fwSwapping d.mill c = false) →
    s.on .memMarchBusy d.mill = false →
    let s' := s.workStart 0x12 d d.mill (memDom d.mill m)
    let t := State.wr { s' with marches := s'.marches ++ [⟨d.mill, m, bit a 8, bit a 9, ⟨0x12, d⟩⟩] } .memMarchBusy d.mill 0 1
    exec (.marchRun d) s = .next t ∧ t.on .memMarchBusy d.mill = true ∧ t.memory = s.memory ∧
      (s.pwr = none → t.inflight.any (·.isFor d) = true ∧ t.compl = s.compl)) ∧
  ∀ (die : Die) (faulty : List FaultyWord) (s : State) m, s.marches.find? (·.die == die) = some m →
    s.inflight.any (·.isFor m.op.desc) = true →
    let l := failRows die m.preserve (faulty.filter (·.mem == m.mem))
    ∃ t, exec (.marchDone die faulty) s = .next t ∧ t.marches = s.marches.erase m ∧ t.on .memMarchBusy die = false ∧
      (m.repair = false → t.rowMap = s.rowMap ∧ t.spareRows = s.spareRows ∧
        s.Completes t m.op.opcode m.op.desc .ok (min 0xFFFF l.length + 2 ^ 32 * min 0xFFFF (l.map (·.words)).sum)) ∧
      (∀ f g k, m.repair = true → l = [f] → memShape die f.mem = some g → f.row < g.rows →
        s.freeSpare (memIx die f.mem) f.bank = some k →
        Cells.get (fun _ => 0) ((memIx die f.mem * 1024 + f.bank) * 2 ^ 20 + f.row) t.rowMap = 1 + k ∧
        s.Completes t m.op.opcode m.op.desc .ok (1 + 2 ^ 16 + 2 ^ 32 * min 0xFFFF f.words)) ∧
      (l = [] → t.events = s.events) ∧ (∀ f ∈ l, ∃ v ∈ t.events, v.reason = Reason.marchFail) ∧
      (m.preserve = true → t.memory = s.memory ∧ t.memValid = s.memValid) ∧
      (m.preserve = false → ∀ y, (∀ b < 2 ^ 34, t.memByte y b = if y = memIx die m.mem then 0 else s.memByte y b) ∧
        ∀ k < 2 ^ 32, t.lineValid y k = if y = memIx die m.mem then false else s.lineValid y k)

/-- PORST_RISE with power latches the straps and boots the primary image where it passes; where it fails and BOOTSEL
allows it the secondary, boot_fallback set; where none passes boot_failed is set and the boot stays unready. I2C_RECOVERY_LOAD of a
passing image in BOOT_FAILED, or with BOOTSEL 0b10, boots it; one that fails sets boot_failed. FW_READY sets fw_ready and starts the tally: at 0 with origin_lost, or from the count held
while stopped plus the advance. SVN_COMMIT raises the fused version to the running one.
Completes: PORST_RISE, I2C_RECOVERY_LOAD, FW_READY, SVN_COMMIT. -/
def Obligations.BootSelectsAnImageAndReadiesTheFirmware : Prop :=
  ∀ (s : State),
    (∀ (straps : Straps) (primary secondary : BootImage), s.on .bootStarted = false → s.rd .pkgOff = 0 → s.on .railBad .m0 = false →
      ∃ t, exec (.porstRise straps primary secondary) s = .next t ∧ t.on .bootStarted = true ∧
        t.rd .chipBootsel = straps.bootsel.toNat ∧ t.rd .chipPkgId = straps.pkgId.toNat ∧ t.rd .i2cAddr = straps.i2cAddr.toNat ∧
        (straps.bootsel.toNat ≠ 2 → s.bootCheck primary = 0 → t.on .bootReady = true ∧ t.bootImage = some primary ∧
          t.rd .svnRunning = primary.svn.toNat ∧ t.on .chipBootFailed = false ∧ t.on .chipBootFallback = false) ∧
        (straps.bootsel.toNat % 3 = 0 → s.bootCheck primary ≠ 0 → t.rd .chipBootFailReason = s.bootCheck primary ∧
          (s.bootCheck secondary = 0 → t.on .bootReady = true ∧ t.bootImage = some secondary ∧
            t.on .chipBootFallback = true ∧ t.on .chipBootFailed = false) ∧
          (s.bootCheck secondary ≠ 0 → t.on .chipBootFailed = true ∧ t.rd .bootReady = s.rd .bootReady ∧
            t.rd .chipSecFailReason = s.bootCheck secondary)) ∧
        (straps.bootsel.toNat = 1 → s.bootCheck primary ≠ 0 → t.on .chipBootFailed = true ∧ t.rd .bootReady = s.rd .bootReady) ∧
        (straps.bootsel.toNat = 2 → t.rd .bootReady = s.rd .bootReady ∧ t.bootImage = s.bootImage)) ∧
    (∀ img, s.on .bootStarted = true → s.on .bootReady = false → s.on .hostFwReady = false →
      s.on .chipBootFailed = true ∨ s.rd .chipBootsel = 2 → ∃ t, exec (.i2cRecoveryLoad img) s = .next t ∧
        (s.bootCheck img = 0 → t.on .bootReady = true ∧ t.bootImage = some img ∧ t.on .chipBootFailed = false) ∧
        (s.bootCheck img ≠ 0 → t.on .bootReady = false ∧ t.bootImage = s.bootImage ∧ t.on .chipBootFailed = true)) ∧
    (∀ faulty, s.on .bootReady = true →
      ∃ t, exec (.fwReady faulty) s = .next t ∧ t.on .hostFwReady = true ∧ t.on .bootReady = false ∧ t.tallyOn = true ∧
        (s.on .surfEverHeld = false → t.tally = 0 ∧ t.on .tallyOriginLost = true) ∧
        (s.on .surfEverHeld = true → s.tallyOn = false → t.tally =
          (s.rd .surfHeldSf + wakeAdvance (s.rd .surfTicks) (s.rd .surfRate) (s.on .surfOsc)) * sfLen)) ∧
    (s.on .pcieUp = true → s.on .hostFwReady = true → s.rd .chipSvnFused < 2 ^ 32 → s.rd .svnRunning < 2 ^ 32 →
      ∃ t, exec .svnCommit s = .next t ∧ t.rd .chipSvnFused = max (s.rd .chipSvnFused) (s.rd .svnRunning) ∧
        SameBut [(.chipSvnFused, .m0, 0)] s t)

/-- PORST_FALL, as the rail of M0 failing, stops the tally, keeps its SF in the surface domain and leaves no ring, key or memory;
SURFACE_POWER_LOSS leaves the fuses only. RAIL_FAULT of another die holds it in reset, RAIL_RESTORED ends that with every domain in
Run. PACKAGE_POWER_OFF, WAKE, RAIL_DISCHARGED, RAIL_TIMEOUT and WAKE_RAILS_GOOD take the package to Off and back to its reset.
THERMAL_TRIP takes the die to Off and records it. SURF_CLK_LOST sets surf_clk_lost, and the oscillator
counts until the surface domain loses power (the model's choice, log entry 57). Completes: PORST_FALL, RAIL_FAULT, SURFACE_POWER_LOSS,
RAIL_RESTORED, PACKAGE_POWER_OFF, WAKE, RAIL_DISCHARGED, RAIL_TIMEOUT, WAKE_RAILS_GOOD, THERMAL_TRIP, SURF_CLK_LOST. -/
def Obligations.PowerLossTripAndWake : Prop :=
  ∀ (s : State),
    (s.rd .pkgOff ≠ 2 →
      (∃ t, exec .porstFall s = .next t ∧ t.on .chipPor = true ∧ t.rd .pkgOff = 0 ∧ t.on .hostFwReady = false ∧ t.tallyOn = false ∧
        (s.tallyOn = true → t.tally = s.sf * sfLen ∧ (s.sf < 2 ^ 48 → t.rd .surfHeldSf = s.sf)) ∧ t.rings = [] ∧ t.keys = [] ∧
        t.memory = [] ∧ t.inflight = [] ∧ t.hostMem = s.hostMem ∧ t.bootImage = s.bootImage) ∧
      ∀ d, s.has d = true → s.on .railBad d = false → ∃ t, exec (.railFault d) s = .next t ∧ t.on .chipPor = true ∧
        (d = .m0 → t.tallyOn = false ∧ t.memory = [] ∧ t.keys = []) ∧
        (d ≠ .m0 → t.dieInReset d = true ∧ t.on .railBad d = true ∧ t.tally = s.tally ∧ t.tallyOn = s.tallyOn)) ∧
    (∃ t, exec .surfacePowerLoss s = .next t ∧ t.tallyOn = false ∧ t.tally = 0 ∧ t.on .surfEverHeld = false ∧ t.memory = [] ∧
      t.keys = [] ∧ t.rowMap = [] ∧ t.bootImage = none ∧ t.rd .chipConfig = s.rd .chipConfig ∧
      t.rd .chipSvnFused = s.rd .chipSvnFused) ∧
    (∀ d, d ≠ .m0 → s.on .railBad d = true → s.on .tripped d = false → s.on .hostFwReady = true →
      (s.resets.any fun r => r.die == d && r.dom == 63) = false →
      ∃ t, exec (.railRestored d) s = .next t ∧ t.on .railBad d = false ∧ t.dieInReset d = false ∧
        (∀ k ∈ d.domains, t.domSt d k = 0) ∧ t.tally = s.tally) ∧
    (s.rd .pkgOff = 1 →
      (∃ t, exec .packagePowerOff s = .next t ∧ t.rd .pkgOff = 2 ∧ t.on .railEn = false ∧ t.tallyOn = false ∧ t.keys = []) ∧
      ∃ t, exec .wake s = .next t ∧ t.on .wakeLatch = true ∧ SameBut [(.wakeLatch, .m0, 0)] s t) ∧
    (s.rd .pkgOff = 2 →
      (∃ t, exec .wake s = .next t ∧ t.on .railEn = true ∧ SameBut [(.railEn, .m0, 0)] s t) ∧
      (s.on .wakeLatch = true → ∃ t, exec .railDischarged s = .next t ∧ t.on .railEn = true ∧ t.on .wakeLatch = false ∧
        SameBut (regsAt .m0 0 [.railEn, .wakeLatch]) s t) ∧
      (s.on .railEn = true →
        (∃ t, exec .railTimeout s = .next t ∧ t.on .railEn = false ∧ t.on .chipRailFault = true ∧
          SameBut (regsAt .m0 0 [.railEn, .chipRailFault]) s t) ∧
        ∃ t, exec .wakeRailsGood s = .next t ∧ t.rd .pkgOff = 0 ∧ t.on .chipWake = true ∧ t.on .bootStarted = false ∧
          (∀ d, t.on .railBad d = false) ∧ t = { s with regs := t.regs })) ∧
    (∀ d, s.has d = true → s.on .tripped d = false → s.rd .pkgOff ≠ 2 →
      ∃ t, exec (.thermalTrip d) s = .next t ∧ t.on .chipTrip = true ∧ t.rd .chipTripDie = d.code ∧
        (d = .m0 → t.rd .pkgOff = 2 ∧ t.tallyOn = false) ∧
        (d ≠ .m0 → t.on .tripped d = true ∧ (∀ k ∈ d.domains, t.domSt d k = 4) ∧ t.tally = s.tally)) ∧
    ∃ t, exec .surfClkLost s = .next t ∧ t.on .tallySurfClkLost = true ∧ t.on .surfOsc = true ∧
      SameBut (regsAt .m0 0 [.tallySurfClkLost, .surfOsc]) s t

/-- RESET in order, none running on the die and its target reachable: of a domain in Run the domain is in reset with a new
incarnation, of a die the die is, and both complete later; of the package the tally stops and the image that booted boots again.
With a reset running on the die it completes with RETRY, with one held before it, it is held. RESET_HOLD_END starts a held one.
DOMAIN_RESET_DONE and RESET_DONE leave reset, the domains in Run, raise RESET_DONE and end the operation.
Completes: RESET, RESET_HOLD_END, DOMAIN_RESET_DONE, RESET_DONE. -/
def Obligations.ResetsOfDomainsDiesAndThePackage : Prop :=
  (∀ (d : Desc) (s : State), s.resetBad d = false → s.Accepts 0x31 d →
    let die := d.mill
    let begun (t : State) : Prop := t.on .inReset die (resetDom d) = true ∧
      t.rd .incarnation die (resetDom d) = (s.rd .incarnation die (resetDom d) + 1) % 16 ∧
      t.resets = s.resets ++ [⟨⟨0x31, d⟩, die, resetDom d, bit d.arg0.toNat 2⟩] ∧ t.tally = s.tally
    (bits d.arg0.toNat 1 0 ≠ 2 → (s.resets.any fun r => r.die == die) = true → s.has die = true →
      ∃ t, exec (.reset d) s = .next t ∧ s.Completes t 0x31 d .retry ∧ t.resets = s.resets) ∧
    (bits d.arg0.toNat 1 0 ≠ 2 → (s.resets.any fun r => r.die == die) = false → s.dieInReset die = false → s.reach die = true →
      (s.resetHeld die = false → (∀ o ∈ s.heldResets, o.desc.mill ≠ die) → (∀ k ∈ die.domains, s.domSt die k ≤ 1) →
        ∃ t, exec (.reset d) s = .next t ∧ begun t) ∧
      ((∃ o ∈ s.heldResets, o.desc.mill = die) → ∃ t, exec (.reset d) s = .next t ∧
        t.heldResets = s.heldResets ++ [⟨0x31, d⟩] ∧ t.resets = s.resets ∧ t.compl = s.compl)) ∧
    (bits d.arg0.toNat 1 0 = 2 → ∃ t, exec (.reset d) s = .next t ∧ t.tallyOn = false ∧ t.keys = [] ∧ t.rings = [] ∧
      t.memory = [] ∧ t.on .hostFwReady = false ∧ t.on .chipPkgReset = true ∧ t.bootImage = s.bootImage ∧
      (s.bootImage.isSome = true → t.on .bootReady = true) ∧ (s.bootImage = none → t.on .chipBootFailed = true))) ∧
  (∀ (s : State) o, s.heldResets.find? (fun o => !s.resetHeld o.desc.mill && !s.dieInReset o.desc.mill &&
      !(s.resets.any fun r => r.die == o.desc.mill)) = some o → (∀ k ∈ o.desc.mill.domains, s.domSt o.desc.mill k ≤ 1) →
    ∃ t, exec .resetHoldEnd s = .next t ∧ t.heldResets = s.heldResets.erase o ∧
      t.on .inReset o.desc.mill (resetDom o.desc) = true ∧
      t.resets = s.resets ++ [⟨o, o.desc.mill, resetDom o.desc, bit o.desc.arg0.toNat 2⟩]) ∧
  ∀ (die : Die) (s : State),
    (∀ (dom : Fin 16) r, (s.resets.find? fun r => r.die == die && r.dom == dom.val) = some r →
      ∃ t, exec (.domainResetDone die dom) s = .next t ∧ t.resets = s.resets.erase r ∧ t.on .inReset die dom = false ∧
        t.domSt die dom = 0 ∧ t.inflight.any (·.isFor r.op.desc) = false ∧ ∃ v ∈ t.events, v.reason = Reason.resetDone) ∧
    ∀ faulty r, (s.resets.find? fun r => r.die == die && r.dom == 63) = some r → s.on .railBad die = false →
      ∃ t, exec (.resetDone die faulty) s = .next t ∧ t.resets = s.resets.erase r ∧ t.dieInReset die = false ∧
        (∀ k ∈ die.domains, die ≠ .m0 → t.domSt die k = 0) ∧ t.inflight.any (·.isFor r.op.desc) = false ∧
        ∃ v ∈ t.events, v.reason = Reason.resetDone

/-- FW_UPDATE and MAILBOX in order, the cluster's domain serving, wait for the cluster. FW_STAGED of the oldest update: AUTH_FAIL with
FW_AUTH_FAIL where no key slot that is fused and not revoked holds the key, the signature fails or its svn is below the fused one, the
bank unchanged; RETRY where the die is frozen; else the bank is staged with its svn, FW_STAGED raised, completed OK (that any key slot
may sign is the model's choice, log entry 79). FW_SWAPPED ends a swap: the engines run. MAILBOX_ANSWER of a running cluster
completes its oldest request with the answer, MAILBOX_TIMEOUT with RETRY.
Completes: FW_UPDATE, FW_STAGED, FW_SWAPPED, MAILBOX, MAILBOX_ANSWER, MAILBOX_TIMEOUT. -/
def Obligations.ClusterFirmwareUpdatesAndMailbox : Prop :=
  (∀ (d : Desc) (s : State), clusterBad d = false → s.Serves d.mill d.dom →
    (s.Accepts 0x32 d → d.arg0.toNat ≤ 131072 → d.arg0 ≠ 0 → d.sf = 0 → d.off = 0 → d.clearFrom 36 = true →
      let t := s.workStart 0x32 d d.mill d.dom
      exec (.fwUpdate d) s = .next { t with fwOps := t.fwOps ++ [⟨0x32, d⟩] }) ∧
    (s.Accepts 0x33 d → d.arg0.toNat / 2 ^ 16 = 0 →
      let t := s.workStart 0x33 d d.mill d.dom
      exec (.mailbox d) s = .next { t with
        fwOps := t.fwOps ++ [⟨0x33, d⟩]
        assay := if d.mill.isFace then (t.count d.mill (0x92 + 5 * (d.dom - 0x0A))).assay else t.assay })) ∧
  ∀ (die : Die) (c : Fin 6) (s : State),
    (∀ o, s.fwOp 0x32 die c = some o → s.inflight.any (·.isFor o.desc) = true → ∀ (keyHash : BitVec 384) (sigOk : Bool),
      let svn := o.desc.at 32 4
      let passes : Prop := (∃ k < 4, s.keyFused k keyHash = true) ∧ sigOk = true ∧ s.rd .chipSvnFused ≤ svn
      ∃ t, exec (.fwStaged die c keyHash sigOk) s = .next t ∧ t.fwOps = s.fwOps.erase o ∧
        (¬passes → s.Completes t o.opcode o.desc .authFail ∧ t.rd .fwStaged die c = s.rd .fwStaged die c ∧
          t.rd .fwBankSvn die c = s.rd .fwBankSvn die c ∧ ∃ v ∈ t.events, v.reason = Reason.fwAuthFail) ∧
        (passes → s.on .viewFrozen die = true → s.Completes t o.opcode o.desc .retry ∧
          t.rd .fwStaged die c = s.rd .fwStaged die c ∧ t.rd .fwBankSvn die c = s.rd .fwBankSvn die c) ∧
        (passes → s.on .viewFrozen die = false → s.Completes t o.opcode o.desc .ok ∧ t.on .fwStaged die c = true ∧
          t.rd .fwBankSvn die c = svn ∧ ∃ v ∈ t.events, v.reason = Reason.fwStaged)) ∧
    (s.on .fwSwapping die c = true → ∃ t, exec (.fwSwapped die c) s = .next t ∧ t.on .fwSwapping die c = false ∧
      t.on .fwRunning die c = true ∧ (∃ v ∈ t.events, v.reason = Reason.fwSwapped) ∧
      SameBut (regsAt die c [.fwSwapping, .fwRunning]) { s with events := t.events } t) ∧
    ∀ o, s.fwOp 0x33 die c = some o → s.inflight.any (·.isFor o.desc) = true →
      (∀ answer : BitVec 64, s.on .fwRunning die c = true → ∃ t, exec (.mailboxAnswer die c answer) s = .next t ∧
        t.fwOps = s.fwOps.erase o ∧ s.Completes t o.opcode o.desc .ok answer.toNat) ∧
      ∃ t, exec (.mailboxTimeout die c) s = .next t ∧ t.fwOps = s.fwOps.erase o ∧ s.Completes t o.opcode o.desc .retry

/-- AUX_INJECT_REQUEST of the shift boss, or of a bias loop that still asks in its chip, which names its monitor channel, starts at
once on a free converter that keeps no simultaneous sample, is denied while a calibration runs, and is denied and counted when 16 wait.
AUX_CONVERSION_END of a regular conversion, or of an injected one with queue_inj, queues its result where there is room; a good
temperature that the shift boss asked for is kept. REG_START in single mode and AUX_REG_PERIOD in periodic mode start reg_ch.
REF_SETTLED sets ref_settled. AUX_CAL begins with a settled reference and waits without one; AUX_CAL_DONE ends it.
Completes: AUX_INJECT_REQUEST, AUX_CONVERSION_END, REG_START, AUX_REG_PERIOD, REF_SETTLED, AUX_CAL, AUX_CAL_DONE. -/
def Obligations.AuxiliaryConversionsAndCalibration : Prop :=
  ∀ (die : Die) (s : State), s.auxUp die = true →
    let noWaits := ∀ c ∈ s.auxWait, c.die ≠ die
    let idle := s.on .auxCalBusy die = false ∧ (∀ c ∈ s.auxRun, c.die ≠ die) ∧ noWaits
    let free := idle ∧ s.auxKept die 4 = false
    (∀ (who : Fin 3) (chan : BitVec 5), (who.val ≠ 0 → s.loopAsks die (who.val - 1) = true) →
      let p := who.val - 1
      let ch := if who.val = 0 then chan.toNat else p
      let s' := if who.val = 0 then s else s.wr .biasAsked die p (s.rd .biasAsked die p + 1)
      (free → ∃ t, exec (.auxInjectRequest die who chan) s = .next t ∧ t.auxWait = s.auxWait ∧
        t.auxRun = s.auxRun ++ [⟨die, who, ch, s.auxUnsettled die, s.tally⟩] ∧
        SameBut [(.auxLate, die, 0)] { s' with auxRun := t.auxRun } t) ∧
      (s.on .auxCalBusy die = true → exec (.auxInjectRequest die who chan) s = .next (s'.auxDeny die who ch)) ∧
      (s.on .auxCalBusy die = false → 16 ≤ (s.auxWait.filter fun c => c.die == die && decide (c.who < 3)).length →
        exec (.auxInjectRequest die who chan) s = .next ((s'.inc .auxInjDropped die).auxDeny die who ch))) ∧
    (∀ (code : BitVec 12) overrange c, s.auxRun.find? (·.die == die) = some c →
      let ovr := overrange && !s.auxOpen die c.ch
      (c.who = 3 ∨ s.on .auxQueueInj die = true → (s.auxQ.filter (·.die == die)).length < 64 →
        ∃ t, exec (.auxConversionEnd die code overrange) s = .next t ∧ t.auxQ = s.auxQ ++
          [⟨die, s.auxCode die c.ch code.toNat ovr, c.ch, decide (c.who < 3), ovr, c.unsettled, false, c.stamp⟩]) ∧
      (c.who < 3 → s.on .auxQueueInj die = false →
        ∃ t, exec (.auxConversionEnd die code overrange) s = .next t ∧ t.auxQ = s.auxQ) ∧
      (c.who = 0 → c.ch = 8 → overrange = false → c.unsettled = false →
        ∃ t, exec (.auxConversionEnd die code overrange) s = .next t ∧ t.rd .tempCode die = code.toNat ∧ t.on .tempGood die = true)) ∧
    (∀ w fs, s.dieAccess die (Fld.offsetAt .auxRegStart 0) = .word w fs → s.rd .auxRegMode die = 1 → free →
      ∃ t, exec (.regStart die) s = .next t ∧ t.auxWait = s.auxWait ∧
        t.auxRun = s.auxRun ++ [⟨die, 3, s.rd .auxRegCh die, s.auxUnsettled die, s.tally⟩]) ∧
    (s.rd .auxRegMode die = 2 → free →
      ∃ t, exec (.auxRegPeriod die) s = .next t ∧ t.auxWait = s.auxWait ∧
        t.auxRun = s.auxRun ++ [⟨die, 3, s.rd .auxRegCh die, s.auxUnsettled die, s.tally⟩]) ∧
    (s.on .auxRefEn die = true → ∃ t, exec (.refSettled die) s = .next t ∧ t.on .auxRefSettled die = true ∧ t.auxQ = s.auxQ) ∧
    (∀ w fs, s.dieAccess die (Fld.offsetAt .auxCal 0) = .word w fs → idle →
      (s.on .auxRefSettled die = true → s.auxKept die 1024 = false → ∃ t, exec (.auxCal die) s = .next t ∧ t.on .auxCalBusy die = true ∧ t.auxWait = s.auxWait ∧
        SameBut [(.auxCalBusy, die, 0)] s t) ∧
      (s.on .auxRefSettled die = false → ∃ t, exec (.auxCal die) s = .next t ∧ t.auxWait = s.auxWait ++ [⟨die, 5, 0, false, 0⟩] ∧
        t.regs = s.regs)) ∧
    (s.on .auxCalBusy die = true → noWaits → ∃ t, exec (.auxCalDone die) s = .next t ∧ t.on .auxCalBusy die = false ∧
      SameBut [(.auxCalBusy, die, 0)] s t)

/-- AUX_Q_POP of an accessible, unbound queue returns its oldest result with its tags and drops it; of an empty one it returns 0.
AUX_SAMPLE in order waits for its position, completes with RETRY while another is pending and with LATE once it has passed.
AUX_SIMUL_SAMPLE at its position queues a tagged result of every named die whose converter is up and has room, and completes
it; where no named die is up it completes with TARGET_UNPOWERED. Completes: AUX_Q_POP, AUX_SAMPLE, AUX_SIMUL_SAMPLE. -/
def Obligations.AuxiliaryResultsPoppedAndSampledTogether : Prop :=
  (∀ (die : Die) (s : State) w fs, die.isBin = false → s.dieAccess die (Fld.offsetAt .auxQResult 0) = .word w fs →
    s.auxBound die = false →
    (∀ e, s.auxQ.find? (·.die == die) = some e → e.code < 2 ^ 12 → e.ch < 2 ^ 5 →
      ∃ t, exec (.auxQPop die) s = .next t ∧ t.readData = e.lo ∧ t.auxQ = s.auxQ.erase e ∧
        t.rd .auxQOffset die = e.stamp % sfLen ∧ t.rd .auxQSfLow die = e.stamp / sfLen % 2 ^ 12 ∧
        SameBut (regsAt die 0 (.auxQLevel :: auxQFields)) { s with auxQ := t.auxQ, readData := t.readData } t) ∧
    (s.auxQ.find? (·.die == die) = none → ∃ t, exec (.auxQPop die) s = .next t ∧ t.readData = 0 ∧ t.auxQ = s.auxQ)) ∧
  (∀ (d : Desc) (s : State), d.target = 0 → d.arg0 = 0 → d.clearFrom 32 = true → d.off.toNat % lfLen = 0 →
    s.farAhead d.pos = false → (∀ die, sampleCh d die ≠ 0xFF → die.isBin = false ∧ s.has die = true ∧ sampleCh d die ≤ 0x1F) →
    s.Accepts 0x3B d →
    (s.auxSimul = none → s.passed d.pos = false → ∃ t, exec (.auxSample d) s = .next t ∧ t.auxSimul = some ⟨0x3B, d⟩ ∧
      t.compl = s.compl ∧ t.inflight.any (·.isFor d) = true) ∧
    (s.auxSimul.isSome = true → ∃ t, exec (.auxSample d) s = .next t ∧ s.Completes t 0x3B d .retry ∧ t.auxSimul = s.auxSimul) ∧
    (s.auxSimul = none → s.passed d.pos = true → ∃ t, exec (.auxSample d) s = .next t ∧ s.Completes t 0x3B d .late ∧
      t.auxSimul = none)) ∧
  ∀ (codes : List (BitVec 12 × Bool)) (s : State) o, s.auxSimul = some o → o.desc.pos ≤ s.tally →
    s.inflight.any (·.isFor o.desc) = true →
    ((∀ die, sampleCh o.desc die ≠ 0xFF → s.auxUp die = false) →
      ∃ t, exec (.auxSimulSample codes) s = .next t ∧ t.auxSimul = none ∧ t.auxQ = s.auxQ ∧
        s.Completes t o.opcode o.desc .targetUnpowered) ∧
    ∀ die, sampleCh o.desc die ≠ 0xFF → s.auxUp die = true → (s.auxQ.filter (·.die == die)).length < 64 →
      ∃ t, exec (.auxSimulSample codes) s = .next t ∧ t.auxSimul = none ∧ t.inflight.any (·.isFor o.desc) = false ∧
        ∃ e ∈ t.auxQ, e.die = die ∧ e.simul = true ∧ e.ch = sampleCh o.desc die ∧ e.stamp = o.desc.pos ∧
          ∀ c, codes[die.code]? = some (c, false) → e.code = if s.auxOpen die e.ch then 0 else c.toNat

/-- LINE_MONITOR_UPDATE at a multiple of 256 SF of a carrier in TRACK shows the SNR of its noise estimates, the pre-FEC rate of the
positions released, the margin over the threshold, and its acquisition values; of another carrier it only ends the interval. SOP_SAMPLE
of a bound source, at an SF boundary that follows a sample instant, keeps six samples and makes a record of the seventh.
SOP_RATE_MEASURE keeps the peak and raises SOP_FAST above the threshold. PM_SECOND closes a layer's second at the first SF after the
internal second edge and opens the next; PM_RECORD drops the oldest once ten follow it, with a record where the source is bound
and has room. TELEMETRY_WRITE writes the oldest record of a source to its ring where it has room. Completes: LINE_MONITOR_UPDATE,
SOP_SAMPLE, SOP_RATE_MEASURE, PM_SECOND, PM_RECORD, TELEMETRY_WRITE. -/
def Obligations.MonitorsAndRecordsOfSources : Prop :=
  (∀ (n : Fin 4) (s : State), s.hasCarrier n = true →
    let m := millOf n
    let d := faceOf n
    (∀ (dgd : BitVec 16) (pdl : BitVec 10),
      (s.sf % 256 = 0 → s.acq n = 7 → ∃ t, exec (.lineMonitorUpdate n dgd pdl) s = .next t ∧
        (s.rd .berBits m (n % 2) ≠ 0 → t.rd .monPrefecBer .m0 n =
          min (2 ^ 24 - 1) (s.rd .berErrs m (n % 2) * 10 ^ 8 / (s.rd .berBits m (n % 2) * 2 ^ 24))) ∧
        (let snr := clampInt 16 (centiBel (s.snrRatio n) (2 ^ 16));
          t.rd .monSnrDb .m0 n = ofInt 16 snr ∧
          t.rd .carMargin .m0 n = ofInt 16 (clampInt 16 (snr - snrThr (s.rxRate .live n)))) ∧
        t.rd .monCd .m0 n = s.rd .cdcCdEst d % 2 ^ 16 ∧ t.rd .monFreqOffset .m0 n = s.rd .crFreqOffset d % 2 ^ 16 ∧
        t.rd .monDgdPs .m0 n = dgd.toNat ∧ t.rd .monPdl .m0 n = pdl.toNat ∧ t.rd .monSf .m0 n = s.sf % 2 ^ 32 ∧
        t.rd .berErrs m (n % 2) = 0 ∧ t.rd .berBits m (n % 2) = 0 ∧ t.tally = s.tally ∧ t.rings = s.rings) ∧
      (s.sf % 256 = 0 → s.acq n ≠ 7 → ∃ t, exec (.lineMonitorUpdate n dgd pdl) s = .next t ∧
        t.rd .berErrs m (n % 2) = 0 ∧ t.rd .berBits m (n % 2) = 0 ∧ SameBut (regsAt m (n % 2) [.berErrs, .berBits]) s t) ∧
      (s.sf % 256 ≠ 0 → exec (.lineMonitorUpdate n dgd pdl) s = .next s)) ∧
    (∀ s1 s2 s3 : BitVec 16, (s.ringFor 3 2 (4 + n) 0).isSome = true → s.sopDue n = true →
      let x := (s1.toNat, s2.toNat, s3.toNat)
      (s.rd .sopTaken .m0 n = s.sf → exec (.sopSample n s1 s2 s3) s = .next s) ∧
      (s.rd .sopTaken .m0 n ≠ s.sf →
        (s.sopBuf.find? (·.1 == n.val) = none → ∃ t, exec (.sopSample n s1 s2 s3) s = .next t ∧ t.telem = s.telem ∧
          (n.val, s.sf * sfLen, [x]) ∈ t.sopBuf) ∧
        ∀ p l, s.sopBuf.find? (·.1 == n.val) = some (n.val, p, l) →
          (l.length < 6 → ∃ t, exec (.sopSample n s1 s2 s3) s = .next t ∧ t.telem = s.telem ∧ (n.val, p, l ++ [x]) ∈ t.sopBuf) ∧
          (l.length = 6 → (s.telem.filter fun r => r.source == 4 + n.val && r.die == 0).length < 16 →
            ∃ t, exec (.sopSample n s1 s2 s3) s = .next t ∧ (∀ e ∈ t.sopBuf, e.1 ≠ n.val) ∧
              ∃ r, t.telem = s.telem ++ [r] ∧ r.source = 4 + n.val ∧ r.recType = 0x04 ∧ r.stamp = p))) ∧
    (∀ rot : BitVec 17, let rate := s.sopRate rot.toNat
      s.rd .monSopRatePeak .m0 n < 2 ^ 32 → rate < 2 ^ 32 →
      ∃ t, exec (.sopRateMeasure n rot) s = .next t ∧ t.rd .monSopRatePeak .m0 n = max (s.rd .monSopRatePeak .m0 n) rate ∧
        SameBut [(.monSopRatePeak, .m0, n.val)] { s with events := t.events } t ∧
        (rate ≤ s.rd .monSopThr .m0 n * 10 → t.events = s.events) ∧
        (s.rd .monSopThr .m0 n * 10 < rate → ∃ e ∈ t.events, e.reason = Reason.sopFast))) ∧
  (∀ (source : BitVec 10) (m : Fin 2) (layer : Fin 10) (s : State),
    let mine (x : PmSec) : Bool := x.ofLayer source.toNat m layer
    let b := ceilDiv (s.rd .ppsTallyLive) sfLen
    (∀ c : PortCounts, s.pmLayer source.toNat m layer = true →
      (b ≤ s.sf → (s.pmSecs.any fun x => mine x && x.edge == b) = false →
        ∃ t, exec (.pmSecond source m layer c) s = .next t ∧ t.pmSecs.length = s.pmSecs.length + 1 ∧
          (∀ x ∈ t.pmSecs, mine x = true → x.stop = none → x.edge = b) ∧
          ∃ x ∈ t.pmSecs, mine x = true ∧ x.edge = b ∧ x.stop = none ∧ x.start = (s.pmBoundary source.toNat m b).2 ∧
            x.blocks = 0 ∧ x.near = 0 ∧ x.farErr = 0 ∧ x.judged = false) ∧
      (s.sf < b ∨ (s.pmSecs.any fun x => mine x && x.edge == b) = true → exec (.pmSecond source m layer c) s = .next s)) ∧
    ∀ x l, s.pmSecs.filter mine = x :: l → x.judged = true → 10 ≤ (l.filter (·.stop.isSome)).length →
      ∃ t, exec (.pmRecord source m layer) s = .next t ∧ t.pmSecs = s.pmSecs.erase x ∧
        (s.ringFor 3 2 source.toNat m = none → t.telem = s.telem) ∧
        ((s.ringFor 3 2 source.toNat m).isSome = true →
          (s.telem.filter fun r => r.source == source.toNat && r.die == m.val).length < 16 →
          ∃ r, t.telem = s.telem ++ [r] ∧ r.recType = 0x01 ∧ r.stamp = x.start * sfLen ∧
            r.payload = (x.payload (s.pmFar source.toNat m layer) ++ List.replicate 48 0).take 48)) ∧
  ∀ (source : BitVec 10) (m : Fin 2) (s : State) q r, s.on .pcieUp = true → s.ringFor 3 2 source.toNat m = some q →
    q.2.room = true → s.telem.find? (fun r => r.source == source.toNat && r.die == m.val) = some r →
    ∃ t, exec (.telemetryWrite source m) s = .next t ∧ t.telem = s.telem.erase r ∧
      (∃ g, Cells.find q.1 t.rings = some g ∧ g.partIdx = (q.2.partIdx + 1) % (2 * q.2.size)) ∧
      ∀ k < 64, t.hostByte (q.2.base + q.2.partIdx % q.2.size * 64 + k) =
        (r.bytes q.2.phase ++ List.replicate 64 0).getD k 0

/-- ASSAY_BATCH, no batch busy, sets batch_busy and latches, for each entry whose event ID no earlier entry holds, the counter with its
stamp, or 0 for an ID that names no event: the model's own count of an event that the commands show, else the count advanced by what
the command brings (the model's choice, log entry 25). ASSAY_BATCH_DONE clears it. ASSAY_SNAP in order waits for its position,
completes with RETRY while another is pending, LATE once passed. ASSAY_SNAPSHOT at its position reads the named counters, and ends
the operation unless a record still waits for its ring. TAG_SEED_LOAD loads a pending seed, 0 as 1.
Completes: ASSAY_BATCH, ASSAY_BATCH_DONE, ASSAY_SNAP, ASSAY_SNAPSHOT, TAG_SEED_LOAD. -/
def Obligations.AssayBatchesSnapshotsAndTagSeeds : Prop :=
  let shown (id : Nat) : Bool := (dieOfCode (id / 4096)).any fun t => assayShown t (id % 512)
  (∀ (vals : List (BitVec 48)) (s : State), s.on .assayBatchBusy = false →
    ∃ t, exec (.assayBatch vals) s = .next t ∧ t.on .assayBatchBusy = true ∧ t.tally = s.tally ∧
      ∀ k < s.batchLen, let id := s.rd .assayEventId .m0 k
        (∀ j < k, s.rd .assayEventId .m0 j ≠ id) →
        t.rd .assayStamp .m0 k = s.tally / 1024 % 2 ^ 16 ∧
        (s.assayLive id = false → t.rd48 .assayCountLo .assayCountHi .m0 k = 0) ∧
        (s.assayLive id = true → shown id = true → t.rd48 .assayCountLo .assayCountHi .m0 k = s.assayCount id % 2 ^ 48) ∧
        (s.assayLive id = true → shown id = false → ∀ v, vals[k]? = some v →
          t.rd48 .assayCountLo .assayCountHi .m0 k = (s.assayCount id + v.toNat) % 2 ^ 48)) ∧
  (∀ (s : State), ∃ t, exec .assayBatchDone s = .next t ∧ t.on .assayBatchBusy = false ∧
    SameBut [(.assayBatchBusy, .m0, 0)] s t) ∧
  (∀ (d : Desc) (s : State), d.target = 0 → d.arg0.toNat < 256 → d.at 24 2 < 512 → 1 ≤ d.at 26 2 → d.at 26 2 ≤ 512 →
    d.clearFrom 28 = true → d.off.toNat % lfLen = 0 → (s.ringFor 3 2 0xD 0).isSome = true →
    (∀ die : Die, bit d.arg0.toNat die.code = true → s.has die = true) → s.farAhead d.pos = false → s.Accepts 0x39 d →
    (s.assaySnap = none → s.passed d.pos = false → ∃ t, exec (.assaySnap d) s = .next t ∧ t.assaySnap = some ⟨0x39, d⟩ ∧
      t.compl = s.compl ∧ t.inflight.any (·.isFor d) = true) ∧
    (s.assaySnap.isSome = true → ∃ t, exec (.assaySnap d) s = .next t ∧ s.Completes t 0x39 d .retry ∧ t.assaySnap = s.assaySnap) ∧
    (s.assaySnap = none → s.passed d.pos = true → ∃ t, exec (.assaySnap d) s = .next t ∧ s.Completes t 0x39 d .late ∧
      t.assaySnap = none)) ∧
  (∀ (vals : List (List (BitVec 48))) (s : State) o, s.assaySnap = some o → s.on .snapTaken = false → o.desc.pos ≤ s.tally →
    ∃ t, exec (.assaySnapshot vals) s = .next t ∧
      (t.telem.any (·.source == 0xD) = false → t.assaySnap = none ∧ t.inflight.any (·.isFor o.desc) = false) ∧
      (t.telem.any (·.source == 0xD) = true → t.assaySnap = some o ∧ t.on .snapTaken = true) ∧
      ∀ die : Die, bit o.desc.arg0.toNat die.code = true → s.has die = true → ∀ k < o.desc.at 26 2,
        let id := die.code * 4096 + o.desc.at 24 2 + k
        o.desc.at 24 2 + o.desc.at 26 2 ≤ 4096 → s.assayLive id = true → shown id = false →
          ∀ v, (vals.getD die.code [])[k]? = some v → t.assayCount id = (s.assayCount id + v.toNat) % 2 ^ 48) ∧
  ∀ (m : Fin 2) (s : State),
    (s.on .tagSeedPend (millAt m) = true → s.rd .tagSeed (millAt m) < 2 ^ 24 → ∃ t, exec (.tagSeedLoad m) s = .next t ∧
      t.rd .tagGen (millAt m) = max 1 (s.rd .tagSeed (millAt m)) ∧ t.on .tagSeedPend (millAt m) = false ∧
      SameBut (regsAt (millAt m) 0 [.tagSeedPend, .tagGen]) s t) ∧
    (s.on .tagSeedPend (millAt m) = false → exec (.tagSeedLoad m) s = .next s)

/-- SURVEY_ACQ in order starts a survey of its carrier. SURVEY_ACCUMULATE counts an active SF below the goal. SURVEY_DONE at the
goal, SURVEY_TIMEOUT past max_wait, end it and its operation. CAPTURE in order is armed; CAPTURE_TRIGGER at its position
starts it; CAPTURE_SET with room in the FIFO adds a set, to host memory where that is the destination, and without room cuts it
short with CAPTURE_SHED. CAPTURE_DONE writes its ring entry and ends it. Completes: SURVEY_ACQ, SURVEY_ACCUMULATE, SURVEY_DONE,
SURVEY_TIMEOUT, CAPTURE, CAPTURE_TRIGGER, CAPTURE_SET, CAPTURE_DONE. -/
def Obligations.SurveysAndCapturesRunToTheirEnd : Prop :=
  (∀ (d : Desc) (s : State), dieTargetBad d = false → d.mill.isFace = true → d.clearFrom 28 = true →
    let a := d.arg0.toNat
    1 ≤ bits a 11 0 → bits a 11 0 ≤ 3000 → 10 ≤ bits a 16 12 → bits a 16 12 ≤ 20 → a / 2 ^ 17 = 0 → 1000 ≤ d.at 24 2 →
    d.at 24 2 ≤ 2500 → d.off = 0 → (s.ringFor 3 2 (8 + d.mill.carrier) 0).isSome = true → s.Accepts 0x3A d →
    (∀ v ∈ s.surveys, v.n ≠ d.mill.carrier) → s.passed d.pos = false → s.Serves d.mill d.mill.anchor →
    ∃ t, exec (.surveyAcq d) s = .next t ∧ t.surveys = s.surveys ++ [⟨d.mill.carrier, ⟨0x3A, d⟩, 0⟩] ∧
      t.compl = (s.workStart 0x3A d d.mill d.mill.anchor).compl) ∧
  (∀ (n : Fin 4) (s : State) v, s.surveyOf n = some v →
    (v.op.desc.sf.toNat ≤ s.sf → s.surveyActive n = true → v.count < v.goal → exec (.surveyAccumulate n) s =
      .next { s with surveys := updateWhere (· == v) (fun v => { v with count := v.count + 1 }) s.surveys }) ∧
    (s.surveyActive n = false → exec (.surveyAccumulate n) s = .next s) ∧
    ∀ profile anoms,
      (v.goal ≤ v.count → ∃ t, exec (.surveyDone n profile anoms) s = .next t ∧ t.surveys = s.surveys.erase v ∧
        t.inflight.any (·.isFor v.op.desc) = false) ∧
      (v.count < v.goal → exec (.surveyDone n profile anoms) s = .next s) ∧
      (v.op.desc.at 26 2 ≠ 0 → v.op.desc.sf.toNat + 256 * v.op.desc.at 26 2 ≤ s.sf →
        ∃ t, exec (.surveyTimeout n profile anoms) s = .next t ∧ t.surveys = s.surveys.erase v ∧
          t.inflight.any (·.isFor v.op.desc) = false)) ∧
  (∀ (d : Desc) (s : State), dieTargetBad d = false → d.mill.isFace = true → d.clearFrom 40 = true →
    let a := d.arg0.toNat
    let n := d.mill.carrier
    let len := d.at 24 8
    bits a 1 0 < 2 → a / 2 ^ 7 = 0 → captureLanes d ≠ 0 → 0 < len → len ≤ 2 ^ 30 → len % setBytes d = 0 →
    s.farAhead d.pos = false → s.captureNowhere d n = false → (s.ringFor 7 3 n 0).isSome = true → s.Accepts 0x38 d →
    (∀ c ∈ s.captures, c.n ≠ n) → s.passed d.pos = false → s.Serves d.mill (if bits a 1 0 = 0 then Dom.convRx else Dom.convTx) →
    ∃ t, exec (.capture d) s = .next t ∧ t.captures = s.captures ++ [⟨n, ⟨0x38, d⟩, false, 0, d.pos, 0, 0, false⟩] ∧
      t.compl = (s.workStart 0x38 d d.mill (if bits a 1 0 = 0 then Dom.convRx else Dom.convTx)).compl) ∧
  ∀ (n : Fin 4) (s : State) c, s.captureOf n = some c →
    let d := c.op.desc
    (∀ phi : Fin 9, c.started = false → d.pos ≤ s.tally →
      exec (.captureTrigger n phi) s = .next (s.setCapture c { c with started := true, phi := phi })) ∧
    (∀ bytes drained, c.started = true → c.cut = false → c.bytes < d.at 24 8 →
      (c.level - drained + setBytes d ≤ 2 ^ 20 → ∃ t, exec (.captureSet n bytes drained) s = .next t ∧
        t.captures = updateWhere (· == c)
          (fun _ => { c with level := c.level - drained + setBytes d, bytes := c.bytes + setBytes d }) s.captures ∧
        (bit d.arg0.toNat 6 = true → ∀ k < setBytes d, t.hostByte (d.at 32 8 + c.bytes + k) = bytes.getD k 0)) ∧
      (2 ^ 20 < c.level - drained + setBytes d → ∃ t, exec (.captureSet n bytes drained) s = .next t ∧
        t.captures = updateWhere (· == c) (fun _ => { c with level := c.level - drained, cut := true }) s.captures ∧
        t.hostMem = s.hostMem ∧ t.memory = s.memory ∧ ∃ e ∈ t.events, e.reason = Reason.captureShed)) ∧
    ∀ q, c.started = true → (c.cut = true ∨ d.at 24 8 ≤ c.bytes) → s.ringFor 7 3 n 0 = some q → s.on .pcieUp = true →
      q.2.room = true → ∃ t, exec (.captureDone n) s = .next t ∧ t.captures = s.captures.erase c ∧
        t.inflight.any (·.isFor d) = false ∧
        ∃ g, Cells.find q.1 t.rings = some g ∧ g.partIdx = (q.2.partIdx + 1) % (2 * q.2.size)

/-- SHIFT_COMMIT in order, none under way: in time it begins, with PREPARE to every live die and their incarnations noted; invalid or
late it completes BAD_DESC or LATE with the sequence number, no commit begun; behind another it waits. SHIFT_PREPARE: a die
refuses an invalid staged set, else accepts and freezes, and waits for a running TABLE_LOAD, and behind a CANCEL or a reload still due.
SHIFT_ACCEPT adds the answer; where the last is in and one refuses, the commit ends BAD_DESC with CANCEL to its dies, staged copies and
settings as they were; an answer at or after position (target − 4):0 does not count. Completes: SHIFT_COMMIT, SHIFT_PREPARE, SHIFT_ACCEPT. -/
def Obligations.CommitsTakenPreparedAndAnswered : Prop :=
  (∀ (d : Desc) (s : State), s.Accepts 0x08 d → d.target = 0 → d.arg0 = 0 → d.clearFrom 56 = true →
    (s.commit = none → s.commitBad d = false → s.sf + 4 < d.sf.toNat →
      ∃ t c, exec (.shiftCommit d) s = .next t ∧ t.commit = some c ∧ c.op = ⟨0x08, d⟩ ∧ c.target = d.sf.toNat ∧
        c.dies = (s.liveDies.map fun e => (e, s.rd .incarnation e 63)) ∧ c.replies = [] ∧ c.goSent = false ∧
        (∀ e ∈ s.liveDies, t.on .prepareSent e = true) ∧ t.on .shiftPending = true ∧ t.offs = s.offs ∧ t.compl = s.compl) ∧
    (s.commit = none → s.commitBad d = true → ∃ t, exec (.shiftCommit d) s = .next t ∧
      s.Completes t 0x08 d .badDesc (s.rd .shiftSeq) ∧ t.commit = none ∧ t.offs = s.offs) ∧
    (s.commit = none → s.commitBad d = false → d.sf.toNat ≤ s.sf + 4 → ∃ t, exec (.shiftCommit d) s = .next t ∧
      s.Completes t 0x08 d .late (s.rd .shiftSeq) ∧ t.commit = none ∧ t.offs = s.offs) ∧
    (s.commit.isSome = true → ∃ t, exec (.shiftCommit d) s = .next t ∧ t.commit = s.commit ∧
      t.commitQ = s.commitQ ++ [⟨0x08, d⟩] ∧ t.compl = s.compl)) ∧
  ∀ (die : Die) (s : State),
    (s.on .prepareSent die = true → s.live die = true →
      let free := s.on .cancelSent die = false ∧ s.on .reloadDue die = false
      ((∃ l ∈ s.loads, l.die = die) → free → ∃ t, exec (.shiftPrepare die) s = .next t ∧ t.on .prepareHeld die = true ∧
        SameBut [(.prepareHeld, die, 0)] s t) ∧
      let heard := (s.wr .prepareSent die 0 0).wr .prepareHeld die 0 0
      (s.on .cancelSent die = true ∨ s.on .reloadDue die = true → exec (.shiftPrepare die) s = .next s) ∧
      ((∀ l ∈ s.loads, l.die ≠ die) → free → ∃ t, exec (.shiftPrepare die) s = .next t ∧
        (heard.stagedInvalid die = true → t.rd .shiftAnswer die = 2 ∧ t.rd .viewFrozen die = s.rd .viewFrozen die) ∧
        (heard.stagedInvalid die = false → t.rd .shiftAnswer die = 1 ∧ t.on .viewFrozen die = true) ∧
        SameBut (regsAt die 0 [.prepareSent, .prepareHeld, .shiftAnswer, .viewFrozen]) s t)) ∧
    ∀ c, s.commit = some c → s.rd .shiftAnswer die ≠ 0 → c.goSent = false → (∃ p ∈ c.dies, p.1 = die) → s.reach die = true →
      let replies := c.replies ++ [(die, s.rd .shiftAnswer die == 1)]
      let all := c.dies.all fun p => replies.any (·.1 == p.1)
      (all = false → s.sf + 4 < c.target → ∃ t, exec (.shiftAccept die) s = .next t ∧
        t.commit = some { c with replies := replies } ∧ t.rd .shiftAnswer die = 0 ∧
        SameBut [(.shiftAnswer, die, 0)] { s with commit := t.commit } t) ∧
      (c.target ≤ s.sf + 4 → (c.dies.all fun p => c.replies.any (·.1 == p.1)) = false → (∀ p ∈ c.replies, p.2 = true) →
        s.incChanged c = false → s.commitQ = [] → s.inflight.any (·.isFor c.op.desc) = true →
        ∃ t, exec (.shiftAccept die) s = .next t ∧ t.commit = none ∧ s.Completes t c.op.opcode c.op.desc .late (s.rd .shiftSeq)) ∧
      (all = true → (replies.any fun p => !p.2) = true → s.sf + 4 < c.target → s.commitQ = [] → s.inflight.any (·.isFor c.op.desc) = true →
        ∃ t, exec (.shiftAccept die) s = .next t ∧ t.commit = none ∧
          s.Completes t c.op.opcode c.op.desc .badDesc (s.rd .shiftSeq) ∧ (∀ p ∈ c.dies, t.on .cancelSent p.1 = true) ∧
          t.offs = s.offs ∧ t.held = s.held ∧ ∀ f e i, f.row.acc = .sh → t.rd f e i = s.rd f e i)

/-- COMMIT_DEADLINE: accepted by every die and announced, the commit gets its go-ahead; with an answer missing it ends LATE. GO_AHEAD reaches a
die. TX_SWAP at the target takes the die out of those left; on a Face die each staged setting of its transmit part changes
places with the live one. RX_SWAP and PREDICTED_RX_SWAP when due take the carrier out, GROUP_RX_SWAP the group, whose receive
members follow. SHIFT_CANCEL unfreezes. SHIFT_COMMIT_DONE advances the sequence and completes OK. Completes: COMMIT_DEADLINE, GO_AHEAD,
TX_SWAP, RX_SWAP, PREDICTED_RX_SWAP, GROUP_RX_SWAP, SHIFT_CANCEL, SHIFT_COMMIT_DONE. -/
def Obligations.GoAheadSwapsCancelAndCompletion : Prop :=
  (∀ (die : Die) (s : State), s.on .cancelSent die = true → ∃ t, exec (.shiftCancel die) s = .next t ∧ t.on .viewFrozen die = false ∧
    t.on .cancelSent die = false ∧ t.rd .prepareSent die = s.rd .prepareSent die ∧ (∀ h ∈ t.held, h.die ≠ die) ∧ t.commit = s.commit) ∧
  ∀ (s : State) c, s.commit = some c →
    (c.goSent = false → c.target ≤ s.sf + 4 →
      ((c.dies.all fun p => c.replies.any (·.1 == p.1)) = true → (∀ p ∈ c.replies, p.2 = true) → s.incChanged c = false →
        s.announced c = true → ∃ t c', exec .commitDeadline s = .next t ∧ t.commit = some c' ∧ c'.goSent = true ∧
          c'.txLeft = ((c.dies.map (·.1)).filter fun d => s.live d && !c.lost.contains d) ∧ t.regs = s.regs ∧ t.offs = s.offs) ∧
      ((c.dies.all fun p => c.replies.any (·.1 == p.1)) = false → (∀ p ∈ c.replies, p.2 = true) → s.incChanged c = false →
        s.commitQ = [] → s.inflight.any (·.isFor c.op.desc) = true → ∃ t, exec .commitDeadline s = .next t ∧ t.commit = none ∧
          s.Completes t c.op.opcode c.op.desc .late (s.rd .shiftSeq) ∧ t.offs = s.offs ∧ t.held = s.held ∧
          ∀ f e i, f.row.acc = .sh → t.rd f e i = s.rd f e i)) ∧
    (∀ die : Die, c.goSent = true → s.live die = true → c.txLeft.contains die = true → c.go.contains die = false →
      exec (.goAhead die) s = .next { s with commit := some { c with go := c.go ++ [die] } }) ∧
    (∀ die : Die, c.go.contains die = true → c.txLeft.contains die = true → c.target ≤ s.sf →
      ∃ t c', exec (.txSwap die) s = .next t ∧ t.commit = some c' ∧ c' = { c with txLeft := c.txLeft.filter (· != die), newRate := c'.newRate } ∧
        (die = .m0 → t.rq ≠ s.rq → c'.newRate = true) ∧
        (die.isFace = true → s.wf = true → ∀ f i, f.row.acc = .sh → f.row.cls = .pkg →
          t.rd f die i = s.rdOff f die i ∧ t.rdOff f die i = s.rd f die i)) ∧
    (∀ n : Fin 4, c.rxReady n = true →
      let m := millOf n
      let far := s.rd .farLiveSf m (n % 2)
      let r := c.rx.getD n 0
      let left := some { c with rxLeft := c.rxLeft.filter (· != n.val) }
      (r ≠ 0 → c.jumped.contains n.val = true ∨ (c.predict.contains n.val = false ∧ r ≤ far) →
        ∃ t, exec (.rxSwap n) s = .next t ∧ t.commit = left) ∧
      (c.predict.contains n.val = true ∨ r = 0 →
        (if r ≠ 0 ∧ s.hasPrediction n then s.predictedAt n r else c.target * sfLen) ≤ s.tally →
        ∃ t, exec (.predictedRxSwap n) s = .next t ∧ t.commit = left)) ∧
    (∀ g : Fin 4, c.go.contains .m0 = true → c.grpLeft.contains g.val = true → c.txLeft.contains .m0 = false →
      (∀ n < 4, bit (s.rd .lgMembers .m0 g) n = true → c.rxLeft.contains n = false) →
      ∃ t, exec (.groupRxSwap g) s = .next t ∧ t.commit = some { c with grpLeft := c.grpLeft.filter (· != g.val) } ∧
        t.rd .lgRxMembers .m0 g = s.rd .lgMembers .m0 g % 16) ∧
    (c.goSent = true → c.txLeft = [] → c.rxLeft = [] → c.grpLeft = [] → s.commitQ = [] → s.rd .shiftSeq < 2 ^ 32 →
      s.inflight.any (·.isFor c.op.desc) = true → ∃ t, exec .shiftCommitDone s = .next t ∧ t.commit = none ∧
        t.rd .shiftSeq = (s.rd .shiftSeq + 1) % 2 ^ 32 ∧ t.on .shiftPending = false ∧
        s.Completes t c.op.opcode c.op.desc .ok ((s.rd .shiftSeq + 1) % 2 ^ 32 + 2 ^ 32 * (c.target % 2 ^ 32)))

/-- OFFSHIFT_RELOAD of a frozen die whose last swap of the commit is done, or which a completed commit left it to, unfreezes it, its
held writes applied, stale no longer. ANNOUNCE_START of a carrier that must announce, 64 SF before the target or more, begins it with the target; later than that the commit
ends. ANNOUNCE_CANCEL_END at the target ends CANCEL with retune_cancelled. TABLE_LOAD in order runs until TABLE_LOAD_DONE, which
completes it with the words discarded; on a frozen die it completes with RETRY and writes nothing.
Completes: OFFSHIFT_RELOAD, ANNOUNCE_START, ANNOUNCE_CANCEL_END, TABLE_LOAD, TABLE_LOAD_DONE. -/
def Obligations.ReloadAnnouncementsAndTableLoads : Prop :=
  (∀ (die : Die) (s : State), s.on .viewFrozen die = true → (s.on .reloadDue die = true ∨ ∃ c, s.commit = some c ∧ c.doneOn die = true) →
    ∃ t, exec (.offshiftReload die) s = .next t ∧ t.on .viewFrozen die = false ∧ t.on .viewStale die = false ∧ t.on .reloadDue die = false ∧
      (∀ h ∈ t.held, h.die ≠ die) ∧ t.commit = s.commit ∧ t.tally = s.tally) ∧
  (∀ (n : Fin 4) (s : State),
    let d := millOf n
    let k := n.val % 2
    (∀ c, s.commit = some c → c.goSent = false → (∃ p ∈ c.dies, p.1 = d) → s.on .viewFrozen d = true → s.announces n = true →
      s.rd .annTxState d k = 0 → (c.target < s.sf + 64 → s.commitQ = [] →
        ∃ t, exec (.announceStart n) s = .next t ∧ t.commit = none ∧ t.rd .annTxState d k = 0) ∧
      (s.sf + 64 ≤ c.target → c.target < 2 ^ 48 → ∃ t, exec (.announceStart n) s = .next t ∧ t.rd .annTxState d k = 1 ∧ t.rd .annTxTarget d k = c.target ∧
        t.on .ltxAnnouncing d k = true ∧
        SameBut (regsAt d k [.annTxState, .annTxRetune, .annTxKey, .annTxTarget, .annTxVals, .ltxAnnouncing]) s t)) ∧
    (s.rd .annTxState d k = 2 → s.rd .annTxTarget d k ≤ s.sf →
      ∃ t, exec (.announceCancelEnd n) s = .next t ∧ t.rd .annTxState d k = 0 ∧ t.on .ltxRetuneCancelled d k = true ∧
        SameBut (regsAt d k [.annTxState, .ltxAnnouncing, .ltxRetuneCancelled]) s t)) ∧
  (∀ (d : Desc) (words : List Word) (s : State), dieTargetBad d = false → d.arg0.toNat < 2 ^ 22 → d.arg0.toNat % 4 = 0 → 1 ≤ d.at 32 2 →
    d.at 32 2 ≤ 4096 → d.arg0.toNat + 4 * d.at 32 2 ≤ 0x400000 → d.clearFrom 34 = true → s.Accepts 0x09 d →
    s.Serves d.mill d.mill.anchor →
    (s.on .viewFrozen d.mill = false → ∃ t, exec (.tableLoad d words) s = .next t ∧ ∃ k, ⟨⟨0x09, d⟩, d.mill, k⟩ ∈ t.loads) ∧
    (s.on .viewFrozen d.mill = true → ∃ t, exec (.tableLoad d words) s = .next t ∧ 
      t.compl = ((s.workStart 0x09 d d.mill d.mill.anchor).finish 0x09 d .retry).compl ∧ t.loads = s.loads ∧ t.offs = s.offs)) ∧
  ∀ (die : Die) (s : State) l, s.loads.find? (fun l => l.die == die) = some l → s.inflight.any (·.isFor l.op.desc) = true →
    ∃ t, exec (.tableLoadDone die) s = .next t ∧ t.loads = s.loads.erase l ∧
      s.Completes t l.op.opcode l.op.desc .ok (l.discarded % 2 ^ 16) ∧
      (s.on .prepareHeld die = true → (∀ x ∈ s.loads.erase l, x.die ≠ die) →
        t.on .prepareHeld die = false ∧ t.rd .shiftAnswer die ≠ 0)

/-- REGISTER_WRITE of one aligned word. A word of RW fields without effects of their own: each takes its bits, nothing else changes. A word
of SH fields of an unfrozen die: each takes its bits off-shift, no live setting changes. A W1C field loses the bits written
as 1. A locked field keeps its value, a different one raising LOCKED_WRITE. Unaligned or shorter writes count only; a dead
word counts with BLOCK_OFF. NumVFs is taken from 0; a vector is masked. That the symbol rate takes 32 bits is the model's choice (log
entry 12). Completes: REGISTER_WRITE. -/
def Obligations.HostWritesByAccessCode : Prop :=
  (∀ (a : BitVec 26) (data : List Byte) (s : State), a.toNat % 4 ≠ 0 ∨ data.length < 4 →
    exec (.registerWrite (.bar0 a) data) s = .next (s.inc .accPartialWrites .m0)) ∧
  (∀ (a : BitVec 26) (b0 b1 b2 b3 : Byte) (s : State), a.toNat % 4 = 0 →
    let data := [b0, b1, b2, b3]
    let val := leNat data
    let run := exec (.registerWrite (.bar0 a) data) s
    (s.access a.toNat = .reserved → run = .next s) ∧
    (∀ b, s.access a.toNat = .blockOff b → run = .next (s.deadAccess b (a.toNat % 0x400000) true)) ∧
    (∀ d, s.access a.toNat = .unreachable d → run = .next (s.unreachableAccess d)) ∧
    ∀ w fs, s.access a.toNat = .word w fs → ¬(w.store = .m1 ∧ timingWord fs = true) →
      (fs.map fun e => (e.1, e.2.1)).Nodup →
      ((∀ e ∈ fs, e.1.row.acc = .rw ∧ ownEffect e.1 = false ∧ ¬ e.1.row.blk ∈ [Blk.tim, .pps, .clk, .cand, .csel] ∧
          ¬ e.1 ∈ [Fld.dacOeTxdisForce, .loopMode, .loopPushpull, .oduApsPersist, .oduTimAct, .laneChkEn, .laneGenEn, .pairSelForce, .auxRefEn,
            .tagSeed, .biasCode]) →
        ∃ t, run = .next t ∧ (∀ e ∈ fs, t.rd e.1 w.store e.2.1 = fieldIn e val) ∧
          SameBut (fs.map fun e => (e.1, w.store, e.2.1)) s t) ∧
      ((∀ e ∈ fs, e.1.row.acc = .sh ∨ e.1.row.acc = .ro) → timingWord fs = false → s.on .viewFrozen w.store = false →
        s.wordRefused w.store val fs = none →
        ∃ t, run = .next t ∧ t = { s with offs := t.offs } ∧
          ∀ e ∈ fs, e.1.row.acc = .sh → t.rdOff e.1 w.store e.2.1 = fieldIn e val) ∧
      ((∀ e ∈ fs, e.1.row.acc = .ro ∨ e.1.row.acc = .w1c ∨ e.1.row.acc = .lk) → timingWord fs = false →
        ∃ t, run = .next t ∧ SameBut (fs.map fun e => (e.1, w.store, e.2.1)) { s with events := t.events } t ∧
          ∀ e ∈ fs, let old := s.rd e.1 w.store e.2.1
            (e.1.row.acc = .ro → t.rd e.1 w.store e.2.1 = old) ∧
            (e.1.row.acc = .w1c → old < 2 ^ e.1.row.width → t.rd e.1 w.store e.2.1 = old - Nat.land old (fieldIn e val)) ∧
            (e.1.row.acc = .lk → s.locked e.1 = false → t.rd e.1 w.store e.2.1 = fieldIn e val) ∧
            (e.1.row.acc = .lk → s.locked e.1 = true → t.rd e.1 w.store e.2.1 = old ∧
              (fieldIn e val ≠ old → ∃ v ∈ t.events, v.reason = Reason.lockedWrite)))) ∧
  (∀ (data : List Byte) (s : State), s.rd .numVfs = 0 → leNat data ≤ 64 →
    ∃ t, exec (.registerWrite .sriov data) s = .next t ∧ t.rd .numVfs = leNat data ∧ SameBut [(.numVfs, .m0, 0)] s t) ∧
  (∀ (data : List Byte) (s : State), s.on .viewFrozen .m0 = false →
    ∃ t, exec (.registerWrite .symbolRate data) s = .next t ∧ t.rdOff .symRate .m0 = leNat data % 2 ^ 32 ∧
      t = { s with offs := t.offs }) ∧
  ∀ (fn : Fin 65) (vec : Nat) (data : List Byte) (s : State), vec < s.msixSize fn →
    (bit (leNat data) 0 = true → ∃ t, exec (.registerWrite (.msixMask fn vec) data) s = .next t ∧
      (fn.val, vec) ∈ t.msixMasked ∧ t.msixSent = s.msixSent) ∧
    (bit (leNat data) 0 = false → s.msixWaiting.contains (fn.val, vec) = true →
      ∃ t, exec (.registerWrite (.msixMask fn vec) data) s = .next t ∧ (fn.val, vec) ∉ t.msixMasked ∧
        t.msixSent = s.msixSent ++ [(fn.val, vec)])

/-- A write to staged fields of a die that is frozen and whose queue holds 256 writes leaves every staged copy, every held write and every
setting as it was; one event with reason SHIFT_WQ_FULL names the die. So does a host write of one aligned word of SH fields, and
a staged symbol rate. -/
def Obligations.FullQueueDiscardsStagedWrites : Prop :=
  ∀ (s : State) (w : Window), s.on .viewFrozen w.store = true → 256 ≤ (s.held.filter (·.die == w.store)).length →
    let full (t : State) : Prop := t = { s with events := t.events } ∧
      ∃ e ∈ t.events, e.reason = Reason.shiftWqFull ∧ e.block / 4096 = w.store.code
    (∀ off val, full (s.shWrite w off val)) ∧
    (∀ (a : BitVec 26) (b0 b1 b2 b3 : Byte) fs, a.toNat % 4 = 0 → s.access a.toNat = .word w fs → (∃ e ∈ fs, e.1.row.acc = .sh) →
      (∀ e ∈ fs, e.1.row.acc = .sh ∨ e.1.row.acc = .ro) → timingWord fs = false →
      s.wordRefused w.store (leNat [b0, b1, b2, b3]) fs = none →
      ∃ t, exec (.registerWrite (.bar0 a) [b0, b1, b2, b3]) s = .next t ∧ full t) ∧
    (w = .pkg → ∀ data, ∃ t, exec (.registerWrite .symbolRate data) s = .next t ∧ full t)

/-- TALLY_SET with the low word written before: accepted while origin_lost is 1 or no transmitter is enabled, and where the new SF
count is greater than the present one, it sets the SF count and clears origin_lost. Otherwise, an equal SF count at whatever
offset included, it is discarded with an event. While the tally runs, nothing else changes. Completes: TALLY_SET. -/
def Obligations.TallyIsSetForwardOnly : Prop :=
  ∀ (hi : BitVec 16) (s : State),
    let new := s.rd .tallySetSfLo + 2 ^ 32 * hi.toNat
    let open_ := s.on .tallyOriginLost = true ∨ ∀ n < 4, s.hasCarrier n = true → s.on .dacTxEnable (faceOf n) = false
    (open_ → s.sf < new → ∃ t, exec (.tallySet hi) s = .next t ∧ t.sf = new ∧ t.on .tallyOriginLost = false ∧
      (s.tallyOn = true → SameBut [(.tallyOriginLost, .m0, 0)] { s with tally := t.tally } t)) ∧
    (¬ open_ ∨ new ≤ s.sf → ∃ t, exec (.tallySet hi) s = .next t ∧ t = { s with events := t.events } ∧
      ∃ e ∈ t.events, e.reason = Reason.fieldEvent)
end

