-- ==== Sys2Proof/Laws/Cells.lean ====
section
/-! SUPPORT. Sparse data in its canonical form: a read after a write, and that every operation keeps the form. -/

namespace Sys2Proof.Machine

variable {α : Type}

/-- A pair's key lies above a bound. -/
abbrev Cells.above (b : Nat) (l : List (Nat × α)) : Prop := ∀ p ∈ l, b < p.1

theorem Cells.sorted_cons {j : Nat} {v : α} {l : List (Nat × α)} :
    Cells.sorted ((j, v) :: l) = true ↔ Cells.above j l ∧ Cells.sorted l = true := by
  induction l generalizing j v with
  | nil => simp [Cells.sorted, Cells.above]
  | cons p l ih =>
    obtain ⟨k, w⟩ := p
    simp only [Cells.sorted, Bool.and_eq_true, decide_eq_true_eq]
    constructor
    · rintro ⟨hjk, hs⟩
      refine ⟨fun q hq => ?_, hs⟩
      rcases List.mem_cons.mp hq with rfl | hq
      · exact hjk
      · exact hjk.trans ((ih.mp hs).1 q hq)
    · rintro ⟨ha, hs⟩
      exact ⟨ha (k, w) (by simp), hs⟩

theorem Cells.mem_ins {k : Nat} {v : α} {l : List (Nat × α)} {p : Nat × α} (h : p ∈ Cells.ins k v l) :
    p = (k, v) ∨ p ∈ l := by
  induction l with
  | nil => simpa [Cells.ins] using h
  | cons q l ih =>
    simp only [Cells.ins] at h
    split at h
    · simpa using h
    · rcases List.mem_cons.mp h with rfl | h
      · simp
      · rcases ih h with h | h <;> simp [h]

theorem Cells.sorted_ins {k : Nat} (v : α) {l : List (Nat × α)} (hs : Cells.sorted l = true)
    (hk : ∀ p ∈ l, p.1 ≠ k) : Cells.sorted (Cells.ins k v l) = true := by
  induction l with
  | nil => rfl
  | cons q l ih =>
    obtain ⟨j, w⟩ := q
    have hc := Cells.sorted_cons.mp hs
    simp only [Cells.ins]
    split
    next hkj =>
      refine Cells.sorted_cons.mpr ⟨fun p hp => ?_, hs⟩
      rcases List.mem_cons.mp hp with rfl | hp
      · exact hkj
      · exact hkj.trans (hc.1 p hp)
    next hkj =>
      have hne : j ≠ k := hk (j, w) (by simp)
      refine Cells.sorted_cons.mpr ⟨fun p hp => ?_, ih hc.2 fun p hp => hk p (by simp [hp])⟩
      rcases Cells.mem_ins hp with rfl | hp
      · simp only; omega
      · exact hc.1 p hp

theorem Cells.sorted_filter {l : List (Nat × α)} (f : Nat × α → Bool) (hs : Cells.sorted l = true) :
    Cells.sorted (l.filter f) = true := by
  induction l with
  | nil => rfl
  | cons q l ih =>
    obtain ⟨j, w⟩ := q
    have hc := Cells.sorted_cons.mp hs
    rw [List.filter_cons]
    split
    · exact Cells.sorted_cons.mpr ⟨fun p hp => hc.1 p (List.mem_filter.mp hp).1, ih hc.2⟩
    · exact ih hc.2

theorem Cells.sorted_del {l : List (Nat × α)} (k : Nat) (hs : Cells.sorted l = true) :
    Cells.sorted (Cells.del k l) = true := Cells.sorted_filter _ hs

theorem Cells.sorted_put {l : List (Nat × α)} (k : Nat) (v : α) (hs : Cells.sorted l = true) :
    Cells.sorted (Cells.put k v l) = true :=
  Cells.sorted_ins v (Cells.sorted_del k hs) fun p hp => by simpa using (List.mem_filter.mp hp).2

/-! Reads. -/

theorem Cells.find_ins {k : Nat} {v : α} {l : List (Nat × α)} (j : Nat) (hk : ∀ p ∈ l, p.1 ≠ k) :
    Cells.find j (Cells.ins k v l) = if k = j then some v else Cells.find j l := by
  induction l with
  | nil => simp [Cells.ins, Cells.find]
  | cons q l ih =>
    obtain ⟨i, w⟩ := q
    have hi : i ≠ k := hk (i, w) (by simp)
    simp only [Cells.ins]
    split
    · rfl
    · simp only [Cells.find]
      rw [ih fun p hp => hk p (by simp [hp])]
      split
      · next h => subst h; simp [Ne.symm hi]
      · rfl

theorem Cells.find_del (k j : Nat) (l : List (Nat × α)) :
    Cells.find j (Cells.del k l) = if k = j then none else Cells.find j l := by
  induction l with
  | nil => simp [Cells.del, Cells.find]
  | cons q l ih =>
    obtain ⟨i, w⟩ := q
    simp only [Cells.del, List.filter_cons] at ih ⊢
    by_cases hik : i = k
    · subst hik
      simp only [bne_self_eq_false, Bool.false_eq_true, if_false, ih, Cells.find]
      split <;> simp_all
    · simp only [bne_iff_ne, ne_eq, hik, not_false_eq_true, if_true, Cells.find, ih]
      by_cases hij : i = j
      · simp [hij, show k ≠ j by omega]
      · simp [hij]

theorem Cells.find_put (k : Nat) (v : α) (j : Nat) (l : List (Nat × α)) :
    Cells.find j (Cells.put k v l) = if k = j then some v else Cells.find j l := by
  rw [Cells.put, Cells.find_ins j fun p hp => by simpa using (List.mem_filter.mp hp).2, Cells.find_del]
  split <;> rfl

theorem Cells.get_del (d : Nat → α) (k j : Nat) (l : List (Nat × α)) :
    Cells.get d j (Cells.del k l) = if k = j then d j else Cells.get d j l := by
  rw [Cells.get, Cells.find_del]
  split <;> rfl

theorem Cells.get_put (d : Nat → α) (k : Nat) (v : α) (j : Nat) (l : List (Nat × α)) :
    Cells.get d j (Cells.put k v l) = if k = j then v else Cells.get d j l := by
  rw [Cells.get, Cells.find_put]
  split <;> rfl

/-- A read after a write: the value written at its key, what stood there elsewhere. -/
theorem Cells.get_set [DecidableEq α] (d : Nat → α) (k : Nat) (v : α) (j : Nat) (l : List (Nat × α)) :
    Cells.get d j (Cells.set d k v l) = if k = j then v else Cells.get d j l := by
  rw [Cells.set]
  split
  next h => rw [Cells.get_del]; split <;> simp_all
  next => exact Cells.get_put d k v j l

/-! The canonical form. -/

theorem Cells.wf_iff [DecidableEq α] {d : Nat → α} {l : List (Nat × α)} :
    Cells.wf d l = true ↔ Cells.sorted l = true ∧ ∀ p ∈ l, p.2 ≠ d p.1 := by
  simp [Cells.wf]

theorem Cells.wf_filter [DecidableEq α] {d : Nat → α} {l : List (Nat × α)} (f : Nat × α → Bool)
    (h : Cells.wf d l = true) : Cells.wf d (l.filter f) = true := by
  rw [Cells.wf_iff] at h ⊢
  exact ⟨Cells.sorted_filter f h.1, fun p hp => h.2 p (List.mem_filter.mp hp).1⟩

theorem Cells.wf_del [DecidableEq α] {d : Nat → α} {l : List (Nat × α)} (k : Nat) (h : Cells.wf d l = true) :
    Cells.wf d (Cells.del k l) = true := Cells.wf_filter _ h

/-- A write keeps the canonical form. -/
theorem Cells.wf_set [DecidableEq α] {d : Nat → α} {l : List (Nat × α)} (k : Nat) (v : α) (h : Cells.wf d l = true) :
    Cells.wf d (Cells.set d k v l) = true := by
  rw [Cells.set]
  split
  · exact Cells.wf_del k h
  next hv =>
    rw [Cells.wf_iff] at h ⊢
    refine ⟨Cells.sorted_put k v h.1, fun p hp => ?_⟩
    rcases Cells.mem_ins hp with rfl | hp
    · exact hv
    · exact h.2 p (List.mem_filter.mp hp).1

/-- Equal reads are equal data: two lists in canonical form that read alike everywhere are one list. -/
theorem Cells.wf_ext [DecidableEq α] {d : Nat → α} {l m : List (Nat × α)} (hl : Cells.wf d l = true)
    (hm : Cells.wf d m = true) (h : ∀ k, Cells.get d k l = Cells.get d k m) : l = m := by
  have low : ∀ {j : Nat} {l : List (Nat × α)}, Cells.above j l → Cells.find j l = none := by
    intro j l
    induction l with
    | nil => intro _; rfl
    | cons p l ih =>
      intro ha
      have := ha p (by simp)
      simp only [Cells.find]
      rw [if_neg (by omega), ih fun q hq => ha q (by simp [hq])]
  have head : ∀ {j : Nat} {v : α} {l : List (Nat × α)}, Cells.get d j ((j, v) :: l) = v := by
    intro j v l; simp [Cells.get, Cells.find]
  have deep : ∀ {i j : Nat} {v : α} {l : List (Nat × α)}, Cells.wf d ((j, v) :: l) = true → i < j →
      Cells.get d i ((j, v) :: l) = d i := by
    intro i j v l hw hij
    have hs := Cells.sorted_cons.mp (Cells.wf_iff.mp hw).1
    rw [Cells.get, low (j := i) fun p hp => by
      rcases List.mem_cons.mp hp with rfl | hp
      · exact hij
      · exact hij.trans (hs.1 p hp)]
    rfl
  induction l generalizing m with
  | nil =>
    cases m with
    | nil => rfl
    | cons p m => exact absurd (by simpa [head, Cells.get, Cells.find] using (h p.1).symm) ((Cells.wf_iff.mp hm).2 p (by simp))
  | cons p l ih =>
    obtain ⟨j, v⟩ := p
    cases m with
    | nil => exact absurd (by simpa [Cells.get, Cells.find] using h j) ((Cells.wf_iff.mp hl).2 (j, v) (by simp))
    | cons q m =>
      obtain ⟨k, w⟩ := q
      have hjv := (Cells.wf_iff.mp hl).2 (j, v) (by simp)
      have hkw := (Cells.wf_iff.mp hm).2 (k, w) (by simp)
      have hjk : j = k := by
        rcases Nat.lt_trichotomy j k with hlt | he | hgt
        · exact absurd (by rw [← deep hm hlt, ← h j, head]) hjv
        · exact he
        · exact absurd (by rw [← deep hl hgt, h k, head]) hkw
      subst hjk
      have hvw : v = w := by have := h j; rwa [head, head] at this
      subst hvw
      have tail : ∀ {l : List (Nat × α)}, Cells.wf d ((j, v) :: l) = true → Cells.wf d l = true ∧ Cells.above j l := by
        intro l hw
        have := Cells.wf_iff.mp hw
        have hs := Cells.sorted_cons.mp this.1
        exact ⟨Cells.wf_iff.mpr ⟨hs.2, fun p hp => this.2 p (by simp [hp])⟩, hs.1⟩
      have hl' := tail hl
      have hm' := tail hm
      rw [ih hl'.1 hm'.1 fun i => ?_]
      by_cases hi : j = i
      · subst hi
        rw [Cells.get, Cells.get, low hl'.2, low hm'.2]
      · have := h i
        simpa [Cells.get, Cells.find, hi] using this

end Sys2Proof.Machine
end

