-- ==== Sys2Proof/Laws/Registers.lean ====
section
/-! SUPPORT. The register store: a field reads as it was last written, a write to one field leaves every other as it was,
and every write keeps the canonical form. -/

namespace Sys2Proof.Machine

theorem Fld.ctorIdx_lt (f : Fld) : f.ctorIdx < 2048 := by cases f <;> decide

theorem Fld.ctorIdx_inj {f g : Fld} (h : f.ctorIdx = g.ctorIdx) : f = g := by
  rw [← Fld.ofNat_ctorIdx f, ← Fld.ofNat_ctorIdx g, h]

theorem Die.code_lt (d : Die) : d.code < 8 := by cases d <;> decide

theorem Die.code_inj {d e : Die} (h : d.code = e.code) : d = e := by
  cases d <;> cases e <;> first | rfl | exact absurd h (by decide)

/-- Two fields share a key only where they are one field, die and instance. -/
theorem Fld.key_inj {f g : Fld} {d e : Die} {i j : Nat} (h : f.key d i = g.key e j) : f = g ∧ d = e ∧ i = j := by
  have hf := f.ctorIdx_lt
  have hg := g.ctorIdx_lt
  have hd := Die.code_lt d
  have he := Die.code_lt e
  simp only [Fld.key] at h
  exact ⟨Fld.ctorIdx_inj (by omega), Die.code_inj (by omega), by omega⟩

theorem Fld.key_ne {f g : Fld} {d e : Die} {i j : Nat} (h : ¬(f = g ∧ d = e ∧ i = j)) : f.key d i ≠ g.key e j :=
  fun hk => h (Fld.key_inj hk)

theorem resetOfKey_key (f : Fld) (d : Die) (i : Nat) : resetOfKey (f.key d i) = f.resetAt i := by
  have hf := f.ctorIdx_lt
  have hd := Die.code_lt d
  rw [resetOfKey, Fld.resetAt, Fld.key]
  congr 1 <;> omega

namespace State

/-- A read after a write of a field: the value within the field's width there, what stood there elsewhere. -/
theorem rd_wr (s : State) (f g : Fld) (d e : Die) (i j v : Nat) :
    (s.wr f d i v).rd g e j = if f = g ∧ d = e ∧ i = j then v % 2 ^ f.row.width else s.rd g e j := by
  simp only [rd, wr, Cells.get_set]
  by_cases h : f = g ∧ d = e ∧ i = j
  · obtain ⟨rfl, rfl, rfl⟩ := h; simp
  · rw [if_neg (Fld.key_ne h), if_neg h]

@[simp] theorem rd_wr_same (s : State) (f : Fld) (d : Die) (i v : Nat) :
    (s.wr f d i v).rd f d i = v % 2 ^ f.row.width := by simp [rd_wr]

theorem rd_wr_ne (s : State) {f g : Fld} (d e : Die) (i j v : Nat) (h : ¬(f = g ∧ d = e ∧ i = j)) :
    (s.wr f d i v).rd g e j = s.rd g e j := by rw [rd_wr, if_neg h]

/-- Both copies of a field at reset. -/
theorem rd_clr (s : State) (f g : Fld) (d e : Die) (i j : Nat) :
    (s.clr f d i).rd g e j = if f = g ∧ d = e ∧ i = j then f.resetAt i else s.rd g e j := by
  simp only [rd, clr, Cells.get_del]
  by_cases h : f = g ∧ d = e ∧ i = j
  · obtain ⟨rfl, rfl, rfl⟩ := h; simp [resetOfKey_key]
  · rw [if_neg (Fld.key_ne h), if_neg h]

/-- A staged field reads as it was last staged. -/
theorem rdOff_wrOff (s : State) (f g : Fld) (d e : Die) (i j v : Nat) :
    (s.wrOff f d i v).rdOff g e j = if f = g ∧ d = e ∧ i = j then v % 2 ^ f.row.width else s.rdOff g e j := by
  simp only [rdOff, wrOff, rd, Cells.find_put]
  by_cases h : f = g ∧ d = e ∧ i = j
  · obtain ⟨rfl, rfl, rfl⟩ := h; simp
  · rw [if_neg (Fld.key_ne h), if_neg h]

@[simp] theorem rd_wrOff (s : State) (f g : Fld) (d e : Die) (i j v : Nat) :
    (s.wrOff f d i v).rd g e j = s.rd g e j := rfl

/-- A field that rests on a free value reads as it was last written. -/
theorem rdFree_wrFree (s : State) (f g : Fld) (d e : Die) (i j v : Nat) :
    (s.wrFree f d i v).rdFree g e j = if f = g ∧ d = e ∧ i = j then v % 2 ^ f.row.width else s.rdFree g e j := by
  simp only [rdFree, wrFree, rd, Cells.find_put]
  by_cases h : f = g ∧ d = e ∧ i = j
  · obtain ⟨rfl, rfl, rfl⟩ := h; simp
  · rw [if_neg (Fld.key_ne h), if_neg h]

@[simp] theorem rd_wrFree (s : State) (f g : Fld) (d e : Die) (i j v : Nat) :
    (s.wrFree f d i v).rd g e j = s.rd g e j := rfl

theorem regs_wr (s : State) (f : Fld) (d : Die) (i v : Nat) :
    (s.wr f d i v).regs = Cells.set resetOfKey (f.key d i) (v % 2 ^ f.row.width) s.regs := rfl

/-! The canonical forms. -/

theorem wf_iff {s : State} : s.wf = true ↔
    Cells.wf resetOfKey s.regs = true ∧ Cells.sorted s.offs = true ∧ Cells.sorted s.freeRegs = true ∧
      Memory.wf s.hostMem = true ∧ Memory.wf s.memory = true := by
  simp [wf, and_assoc]

theorem wf_wr {s : State} (f : Fld) (d : Die) (i v : Nat) (h : s.wf = true) : (s.wr f d i v).wf = true := by
  have h := wf_iff.mp h
  exact wf_iff.mpr ⟨Cells.wf_set _ _ h.1, h.2⟩

theorem wf_wrOff {s : State} (f : Fld) (d : Die) (i v : Nat) (h : s.wf = true) : (s.wrOff f d i v).wf = true := by
  have h := wf_iff.mp h
  exact wf_iff.mpr ⟨h.1, Cells.sorted_put _ _ h.2.1, h.2.2⟩

theorem wf_wrFree {s : State} (f : Fld) (d : Die) (i v : Nat) (h : s.wf = true) : (s.wrFree f d i v).wf = true := by
  have h := wf_iff.mp h
  exact wf_iff.mpr ⟨h.1, h.2.1, Cells.sorted_put _ _ h.2.2.1, h.2.2.2⟩

theorem wf_clr {s : State} (f : Fld) (d : Die) (i : Nat) (h : s.wf = true) : (s.clr f d i).wf = true := by
  have h := wf_iff.mp h
  exact wf_iff.mpr ⟨Cells.wf_del _ h.1, Cells.sorted_del _ h.2.1, h.2.2⟩

end State
end Sys2Proof.Machine
end

