-- ==== Sys2Proof/Laws/Frames.lean ====
section
/-! SUPPORT. Frames: how the relation `SameBut` builds up along register writes. -/

namespace Sys2Proof.Machine

theorem SameBut.refl (l : List Reg) (s : State) : SameBut l s s := ⟨rfl, fun _ _ _ _ => rfl⟩

theorem SameBut.wr {l : List Reg} {s t : State} (h : SameBut l s t) (f : Fld) (d : Die) (i v : Nat)
    (hm : (f, d, i) ∈ l) : SameBut l s (t.wr f d i v) := by
  refine ⟨by rw [State.wr, h.1], fun g e j hg => ?_⟩
  rw [State.rd_wr, if_neg, h.2 g e j hg]
  rintro ⟨rfl, rfl, rfl⟩
  exact hg hm

theorem SameBut.wrs {l : List Reg} {s t : State} (h : SameBut l s t) (d : Die) (i : Nat) (vs : List (Fld × Nat))
    (hm : ∀ p ∈ vs, (p.1, d, i) ∈ l) : SameBut l s (t.wrs d i vs) := by
  induction vs generalizing t with
  | nil => exact h
  | cons p vs ih =>
    obtain ⟨f, v⟩ := p
    exact ih (h.wr f d i v (hm (f, v) (by simp))) fun q hq => hm q (by simp [hq])

theorem SameBut.zeros {l : List Reg} {s t : State} (h : SameBut l s t) (d : Die) (i : Nat) (fs : List Fld)
    (hm : ∀ f ∈ fs, (f, d, i) ∈ l) : SameBut l s (t.zeros d i fs) :=
  h.wrs d i _ fun p hp => by
    obtain ⟨f, hf, rfl⟩ := List.mem_map.mp hp
    exact hm f hf

theorem SameBut.inc {l : List Reg} {s t : State} (h : SameBut l s t) (f : Fld) (d : Die) (i k : Nat)
    (hm : (f, d, i) ∈ l) : SameBut l s (t.inc f d i k) := h.wr f d i _ hm

theorem SameBut.bump {l : List Reg} {s t : State} (h : SameBut l s t) (f : Fld) (d : Die) (i k : Nat)
    (hm : (f, d, i) ∈ l) : SameBut l s (t.bump f d i k) := h.wr f d i _ hm

theorem SameBut.trans {l : List Reg} {s t u : State} (h : SameBut l s t) (k : SameBut l t u) : SameBut l s u :=
  ⟨by rw [k.1, h.1], fun f d i hm => (k.2 f d i hm).trans (h.2 f d i hm)⟩

theorem SameBut.mono {l m : List Reg} {s t : State} (h : SameBut l s t) (hm : ∀ r ∈ l, r ∈ m) : SameBut m s t :=
  ⟨h.1, fun f d i hr => h.2 f d i fun hl => hr (hm _ hl)⟩

/-- A field that a frame does not list reads as before. -/
theorem SameBut.rd {l : List Reg} {s t : State} (h : SameBut l s t) {f : Fld} {d : Die} {i : Nat} (hm : (f, d, i) ∉ l) :
    t.rd f d i = s.rd f d i := h.2 f d i hm

theorem mem_regsAt {f : Fld} {d e : Die} {i j : Nat} {l : List Fld} :
    (f, e, j) ∈ regsAt d i l ↔ f ∈ l ∧ e = d ∧ j = i := by
  simp [regsAt, eq_comm]

end Sys2Proof.Machine
end

