-- ==== Sys2Proof/Laws/State.lean ====
section
/-! SUPPORT. Every part of the state under every update of the register store, and the register reads under every update
of another part: true by definition, so that no proof unfolds a record update. -/

namespace Sys2Proof.Machine.State

variable (s : State) (f g : Fld) (d e : Die) (i j v : Nat)

/-! `wr`. -/

@[simp] theorem wr_pending : (s.wr f d i v).pending = s.pending := rfl
@[simp] theorem wr_offs : (s.wr f d i v).offs = s.offs := rfl
@[simp] theorem wr_freeRegs : (s.wr f d i v).freeRegs = s.freeRegs := rfl
@[simp] theorem wr_tallyOn : (s.wr f d i v).tallyOn = s.tallyOn := rfl
@[simp] theorem wr_tally : (s.wr f d i v).tally = s.tally := rfl
@[simp] theorem wr_rings : (s.wr f d i v).rings = s.rings := rfl
@[simp] theorem wr_inflight : (s.wr f d i v).inflight = s.inflight := rfl
@[simp] theorem wr_requests : (s.wr f d i v).requests = s.requests := rfl
@[simp] theorem wr_compl : (s.wr f d i v).compl = s.compl := rfl
@[simp] theorem wr_events : (s.wr f d i v).events = s.events := rfl
@[simp] theorem wr_hostMem : (s.wr f d i v).hostMem = s.hostMem := rfl
@[simp] theorem wr_msixSent : (s.wr f d i v).msixSent = s.msixSent := rfl
@[simp] theorem wr_msixMasked : (s.wr f d i v).msixMasked = s.msixMasked := rfl
@[simp] theorem wr_msixWaiting : (s.wr f d i v).msixWaiting = s.msixWaiting := rfl
@[simp] theorem wr_readData : (s.wr f d i v).readData = s.readData := rfl
@[simp] theorem wr_freeCtr : (s.wr f d i v).freeCtr = s.freeCtr := rfl
@[simp] theorem wr_held : (s.wr f d i v).held = s.held := rfl
@[simp] theorem wr_commit : (s.wr f d i v).commit = s.commit := rfl
@[simp] theorem wr_commitQ : (s.wr f d i v).commitQ = s.commitQ := rfl
@[simp] theorem wr_canary : (s.wr f d i v).canary = s.canary := rfl
@[simp] theorem wr_spi : (s.wr f d i v).spi = s.spi := rfl
@[simp] theorem wr_spiActive : (s.wr f d i v).spiActive = s.spiActive := rfl
@[simp] theorem wr_slipRecs : (s.wr f d i v).slipRecs = s.slipRecs := rfl
@[simp] theorem wr_slipFixes : (s.wr f d i v).slipFixes = s.slipFixes := rfl
@[simp] theorem wr_nlc : (s.wr f d i v).nlc = s.nlc := rfl
@[simp] theorem wr_pilots : (s.wr f d i v).pilots = s.pilots := rfl
@[simp] theorem wr_txLine : (s.wr f d i v).txLine = s.txLine := rfl
@[simp] theorem wr_lfOut : (s.wr f d i v).lfOut = s.lfOut := rfl
@[simp] theorem wr_rxLine : (s.wr f d i v).rxLine = s.rxLine := rfl
@[simp] theorem wr_pool : (s.wr f d i v).pool = s.pool := rfl
@[simp] theorem wr_poolPast : (s.wr f d i v).poolPast = s.poolPast := rfl
@[simp] theorem wr_telem : (s.wr f d i v).telem = s.telem := rfl
@[simp] theorem wr_telemSkipped : (s.wr f d i v).telemSkipped = s.telemSkipped := rfl
@[simp] theorem wr_keys : (s.wr f d i v).keys = s.keys := rfl
@[simp] theorem wr_msgTx : (s.wr f d i v).msgTx = s.msgTx := rfl
@[simp] theorem wr_msgRx : (s.wr f d i v).msgRx = s.msgRx := rfl
@[simp] theorem wr_annTargets : (s.wr f d i v).annTargets = s.annTargets := rfl
@[simp] theorem wr_groupRef : (s.wr f d i v).groupRef = s.groupRef := rfl
@[simp] theorem wr_relMsgs : (s.wr f d i v).relMsgs = s.relMsgs := rfl
@[simp] theorem wr_ttis : (s.wr f d i v).ttis = s.ttis := rfl
@[simp] theorem wr_psis : (s.wr f d i v).psis = s.psis := rfl
@[simp] theorem wr_ttiSend : (s.wr f d i v).ttiSend = s.ttiSend := rfl
@[simp] theorem wr_insLast : (s.wr f d i v).insLast = s.insLast := rfl
@[simp] theorem wr_ohSent : (s.wr f d i v).ohSent = s.ohSent := rfl
@[simp] theorem wr_ohRecv : (s.wr f d i v).ohRecv = s.ohRecv := rfl
@[simp] theorem wr_kw : (s.wr f d i v).kw = s.kw := rfl
@[simp] theorem wr_zeroing : (s.wr f d i v).zeroing = s.zeroing := rfl
@[simp] theorem wr_la : (s.wr f d i v).la = s.la := rfl
@[simp] theorem wr_cipherOut : (s.wr f d i v).cipherOut = s.cipherOut := rfl
@[simp] theorem wr_plainOut : (s.wr f d i v).plainOut = s.plainOut := rfl
@[simp] theorem wr_ohOut : (s.wr f d i v).ohOut = s.ohOut := rfl
@[simp] theorem wr_hist : (s.wr f d i v).hist = s.hist := rfl
@[simp] theorem wr_holdFreq : (s.wr f d i v).holdFreq = s.holdFreq := rfl
@[simp] theorem wr_xcSent : (s.wr f d i v).xcSent = s.xcSent := rfl
@[simp] theorem wr_xcBuf : (s.wr f d i v).xcBuf = s.xcBuf := rfl
@[simp] theorem wr_loads : (s.wr f d i v).loads = s.loads := rfl
@[simp] theorem wr_pwrQ : (s.wr f d i v).pwrQ = s.pwrQ := rfl
@[simp] theorem wr_pwr : (s.wr f d i v).pwr = s.pwr := rfl
@[simp] theorem wr_waking : (s.wr f d i v).waking = s.waking := rfl
@[simp] theorem wr_releases : (s.wr f d i v).releases = s.releases := rfl
@[simp] theorem wr_grants : (s.wr f d i v).grants = s.grants := rfl
@[simp] theorem wr_memory : (s.wr f d i v).memory = s.memory := rfl
@[simp] theorem wr_memValid : (s.wr f d i v).memValid = s.memValid := rfl
@[simp] theorem wr_poison : (s.wr f d i v).poison = s.poison := rfl
@[simp] theorem wr_spareRows : (s.wr f d i v).spareRows = s.spareRows := rfl
@[simp] theorem wr_rowMap : (s.wr f d i v).rowMap = s.rowMap := rfl
@[simp] theorem wr_marches : (s.wr f d i v).marches = s.marches := rfl
@[simp] theorem wr_resets : (s.wr f d i v).resets = s.resets := rfl
@[simp] theorem wr_heldResets : (s.wr f d i v).heldResets = s.heldResets := rfl
@[simp] theorem wr_bootImage : (s.wr f d i v).bootImage = s.bootImage := rfl
@[simp] theorem wr_recovery : (s.wr f d i v).recovery = s.recovery := rfl
@[simp] theorem wr_fwOps : (s.wr f d i v).fwOps = s.fwOps := rfl
@[simp] theorem wr_auxQ : (s.wr f d i v).auxQ = s.auxQ := rfl
@[simp] theorem wr_auxWait : (s.wr f d i v).auxWait = s.auxWait := rfl
@[simp] theorem wr_auxRun : (s.wr f d i v).auxRun = s.auxRun := rfl
@[simp] theorem wr_auxSimul : (s.wr f d i v).auxSimul = s.auxSimul := rfl
@[simp] theorem wr_assay : (s.wr f d i v).assay = s.assay := rfl
@[simp] theorem wr_assaySnap : (s.wr f d i v).assaySnap = s.assaySnap := rfl
@[simp] theorem wr_pmSecs : (s.wr f d i v).pmSecs = s.pmSecs := rfl
@[simp] theorem wr_sopBuf : (s.wr f d i v).sopBuf = s.sopBuf := rfl
@[simp] theorem wr_surveys : (s.wr f d i v).surveys = s.surveys := rfl
@[simp] theorem wr_captures : (s.wr f d i v).captures = s.captures := rfl

/-! `wrOff`. -/

@[simp] theorem wrOff_pending : (s.wrOff f d i v).pending = s.pending := rfl
@[simp] theorem wrOff_regs : (s.wrOff f d i v).regs = s.regs := rfl
@[simp] theorem wrOff_freeRegs : (s.wrOff f d i v).freeRegs = s.freeRegs := rfl
@[simp] theorem wrOff_tallyOn : (s.wrOff f d i v).tallyOn = s.tallyOn := rfl
@[simp] theorem wrOff_tally : (s.wrOff f d i v).tally = s.tally := rfl
@[simp] theorem wrOff_rings : (s.wrOff f d i v).rings = s.rings := rfl
@[simp] theorem wrOff_inflight : (s.wrOff f d i v).inflight = s.inflight := rfl
@[simp] theorem wrOff_requests : (s.wrOff f d i v).requests = s.requests := rfl
@[simp] theorem wrOff_compl : (s.wrOff f d i v).compl = s.compl := rfl
@[simp] theorem wrOff_events : (s.wrOff f d i v).events = s.events := rfl
@[simp] theorem wrOff_hostMem : (s.wrOff f d i v).hostMem = s.hostMem := rfl
@[simp] theorem wrOff_msixSent : (s.wrOff f d i v).msixSent = s.msixSent := rfl
@[simp] theorem wrOff_msixMasked : (s.wrOff f d i v).msixMasked = s.msixMasked := rfl
@[simp] theorem wrOff_msixWaiting : (s.wrOff f d i v).msixWaiting = s.msixWaiting := rfl
@[simp] theorem wrOff_readData : (s.wrOff f d i v).readData = s.readData := rfl
@[simp] theorem wrOff_freeCtr : (s.wrOff f d i v).freeCtr = s.freeCtr := rfl
@[simp] theorem wrOff_held : (s.wrOff f d i v).held = s.held := rfl
@[simp] theorem wrOff_commit : (s.wrOff f d i v).commit = s.commit := rfl
@[simp] theorem wrOff_commitQ : (s.wrOff f d i v).commitQ = s.commitQ := rfl
@[simp] theorem wrOff_canary : (s.wrOff f d i v).canary = s.canary := rfl
@[simp] theorem wrOff_spi : (s.wrOff f d i v).spi = s.spi := rfl
@[simp] theorem wrOff_spiActive : (s.wrOff f d i v).spiActive = s.spiActive := rfl
@[simp] theorem wrOff_slipRecs : (s.wrOff f d i v).slipRecs = s.slipRecs := rfl
@[simp] theorem wrOff_slipFixes : (s.wrOff f d i v).slipFixes = s.slipFixes := rfl
@[simp] theorem wrOff_nlc : (s.wrOff f d i v).nlc = s.nlc := rfl
@[simp] theorem wrOff_pilots : (s.wrOff f d i v).pilots = s.pilots := rfl
@[simp] theorem wrOff_txLine : (s.wrOff f d i v).txLine = s.txLine := rfl
@[simp] theorem wrOff_lfOut : (s.wrOff f d i v).lfOut = s.lfOut := rfl
@[simp] theorem wrOff_rxLine : (s.wrOff f d i v).rxLine = s.rxLine := rfl
@[simp] theorem wrOff_pool : (s.wrOff f d i v).pool = s.pool := rfl
@[simp] theorem wrOff_poolPast : (s.wrOff f d i v).poolPast = s.poolPast := rfl
@[simp] theorem wrOff_telem : (s.wrOff f d i v).telem = s.telem := rfl
@[simp] theorem wrOff_telemSkipped : (s.wrOff f d i v).telemSkipped = s.telemSkipped := rfl
@[simp] theorem wrOff_keys : (s.wrOff f d i v).keys = s.keys := rfl
@[simp] theorem wrOff_msgTx : (s.wrOff f d i v).msgTx = s.msgTx := rfl
@[simp] theorem wrOff_msgRx : (s.wrOff f d i v).msgRx = s.msgRx := rfl
@[simp] theorem wrOff_annTargets : (s.wrOff f d i v).annTargets = s.annTargets := rfl
@[simp] theorem wrOff_groupRef : (s.wrOff f d i v).groupRef = s.groupRef := rfl
@[simp] theorem wrOff_relMsgs : (s.wrOff f d i v).relMsgs = s.relMsgs := rfl
@[simp] theorem wrOff_ttis : (s.wrOff f d i v).ttis = s.ttis := rfl
@[simp] theorem wrOff_psis : (s.wrOff f d i v).psis = s.psis := rfl
@[simp] theorem wrOff_ttiSend : (s.wrOff f d i v).ttiSend = s.ttiSend := rfl
@[simp] theorem wrOff_insLast : (s.wrOff f d i v).insLast = s.insLast := rfl
@[simp] theorem wrOff_ohSent : (s.wrOff f d i v).ohSent = s.ohSent := rfl
@[simp] theorem wrOff_ohRecv : (s.wrOff f d i v).ohRecv = s.ohRecv := rfl
@[simp] theorem wrOff_kw : (s.wrOff f d i v).kw = s.kw := rfl
@[simp] theorem wrOff_zeroing : (s.wrOff f d i v).zeroing = s.zeroing := rfl
@[simp] theorem wrOff_la : (s.wrOff f d i v).la = s.la := rfl
@[simp] theorem wrOff_cipherOut : (s.wrOff f d i v).cipherOut = s.cipherOut := rfl
@[simp] theorem wrOff_plainOut : (s.wrOff f d i v).plainOut = s.plainOut := rfl
@[simp] theorem wrOff_ohOut : (s.wrOff f d i v).ohOut = s.ohOut := rfl
@[simp] theorem wrOff_hist : (s.wrOff f d i v).hist = s.hist := rfl
@[simp] theorem wrOff_holdFreq : (s.wrOff f d i v).holdFreq = s.holdFreq := rfl
@[simp] theorem wrOff_xcSent : (s.wrOff f d i v).xcSent = s.xcSent := rfl
@[simp] theorem wrOff_xcBuf : (s.wrOff f d i v).xcBuf = s.xcBuf := rfl
@[simp] theorem wrOff_loads : (s.wrOff f d i v).loads = s.loads := rfl
@[simp] theorem wrOff_pwrQ : (s.wrOff f d i v).pwrQ = s.pwrQ := rfl
@[simp] theorem wrOff_pwr : (s.wrOff f d i v).pwr = s.pwr := rfl
@[simp] theorem wrOff_waking : (s.wrOff f d i v).waking = s.waking := rfl
@[simp] theorem wrOff_releases : (s.wrOff f d i v).releases = s.releases := rfl
@[simp] theorem wrOff_grants : (s.wrOff f d i v).grants = s.grants := rfl
@[simp] theorem wrOff_memory : (s.wrOff f d i v).memory = s.memory := rfl
@[simp] theorem wrOff_memValid : (s.wrOff f d i v).memValid = s.memValid := rfl
@[simp] theorem wrOff_poison : (s.wrOff f d i v).poison = s.poison := rfl
@[simp] theorem wrOff_spareRows : (s.wrOff f d i v).spareRows = s.spareRows := rfl
@[simp] theorem wrOff_rowMap : (s.wrOff f d i v).rowMap = s.rowMap := rfl
@[simp] theorem wrOff_marches : (s.wrOff f d i v).marches = s.marches := rfl
@[simp] theorem wrOff_resets : (s.wrOff f d i v).resets = s.resets := rfl
@[simp] theorem wrOff_heldResets : (s.wrOff f d i v).heldResets = s.heldResets := rfl
@[simp] theorem wrOff_bootImage : (s.wrOff f d i v).bootImage = s.bootImage := rfl
@[simp] theorem wrOff_recovery : (s.wrOff f d i v).recovery = s.recovery := rfl
@[simp] theorem wrOff_fwOps : (s.wrOff f d i v).fwOps = s.fwOps := rfl
@[simp] theorem wrOff_auxQ : (s.wrOff f d i v).auxQ = s.auxQ := rfl
@[simp] theorem wrOff_auxWait : (s.wrOff f d i v).auxWait = s.auxWait := rfl
@[simp] theorem wrOff_auxRun : (s.wrOff f d i v).auxRun = s.auxRun := rfl
@[simp] theorem wrOff_auxSimul : (s.wrOff f d i v).auxSimul = s.auxSimul := rfl
@[simp] theorem wrOff_assay : (s.wrOff f d i v).assay = s.assay := rfl
@[simp] theorem wrOff_assaySnap : (s.wrOff f d i v).assaySnap = s.assaySnap := rfl
@[simp] theorem wrOff_pmSecs : (s.wrOff f d i v).pmSecs = s.pmSecs := rfl
@[simp] theorem wrOff_sopBuf : (s.wrOff f d i v).sopBuf = s.sopBuf := rfl
@[simp] theorem wrOff_surveys : (s.wrOff f d i v).surveys = s.surveys := rfl
@[simp] theorem wrOff_captures : (s.wrOff f d i v).captures = s.captures := rfl

/-! `wrFree`. -/

@[simp] theorem wrFree_pending : (s.wrFree f d i v).pending = s.pending := rfl
@[simp] theorem wrFree_regs : (s.wrFree f d i v).regs = s.regs := rfl
@[simp] theorem wrFree_offs : (s.wrFree f d i v).offs = s.offs := rfl
@[simp] theorem wrFree_tallyOn : (s.wrFree f d i v).tallyOn = s.tallyOn := rfl
@[simp] theorem wrFree_tally : (s.wrFree f d i v).tally = s.tally := rfl
@[simp] theorem wrFree_rings : (s.wrFree f d i v).rings = s.rings := rfl
@[simp] theorem wrFree_inflight : (s.wrFree f d i v).inflight = s.inflight := rfl
@[simp] theorem wrFree_requests : (s.wrFree f d i v).requests = s.requests := rfl
@[simp] theorem wrFree_compl : (s.wrFree f d i v).compl = s.compl := rfl
@[simp] theorem wrFree_events : (s.wrFree f d i v).events = s.events := rfl
@[simp] theorem wrFree_hostMem : (s.wrFree f d i v).hostMem = s.hostMem := rfl
@[simp] theorem wrFree_msixSent : (s.wrFree f d i v).msixSent = s.msixSent := rfl
@[simp] theorem wrFree_msixMasked : (s.wrFree f d i v).msixMasked = s.msixMasked := rfl
@[simp] theorem wrFree_msixWaiting : (s.wrFree f d i v).msixWaiting = s.msixWaiting := rfl
@[simp] theorem wrFree_readData : (s.wrFree f d i v).readData = s.readData := rfl
@[simp] theorem wrFree_freeCtr : (s.wrFree f d i v).freeCtr = s.freeCtr := rfl
@[simp] theorem wrFree_held : (s.wrFree f d i v).held = s.held := rfl
@[simp] theorem wrFree_commit : (s.wrFree f d i v).commit = s.commit := rfl
@[simp] theorem wrFree_commitQ : (s.wrFree f d i v).commitQ = s.commitQ := rfl
@[simp] theorem wrFree_canary : (s.wrFree f d i v).canary = s.canary := rfl
@[simp] theorem wrFree_spi : (s.wrFree f d i v).spi = s.spi := rfl
@[simp] theorem wrFree_spiActive : (s.wrFree f d i v).spiActive = s.spiActive := rfl
@[simp] theorem wrFree_slipRecs : (s.wrFree f d i v).slipRecs = s.slipRecs := rfl
@[simp] theorem wrFree_slipFixes : (s.wrFree f d i v).slipFixes = s.slipFixes := rfl
@[simp] theorem wrFree_nlc : (s.wrFree f d i v).nlc = s.nlc := rfl
@[simp] theorem wrFree_pilots : (s.wrFree f d i v).pilots = s.pilots := rfl
@[simp] theorem wrFree_txLine : (s.wrFree f d i v).txLine = s.txLine := rfl
@[simp] theorem wrFree_lfOut : (s.wrFree f d i v).lfOut = s.lfOut := rfl
@[simp] theorem wrFree_rxLine : (s.wrFree f d i v).rxLine = s.rxLine := rfl
@[simp] theorem wrFree_pool : (s.wrFree f d i v).pool = s.pool := rfl
@[simp] theorem wrFree_poolPast : (s.wrFree f d i v).poolPast = s.poolPast := rfl
@[simp] theorem wrFree_telem : (s.wrFree f d i v).telem = s.telem := rfl
@[simp] theorem wrFree_telemSkipped : (s.wrFree f d i v).telemSkipped = s.telemSkipped := rfl
@[simp] theorem wrFree_keys : (s.wrFree f d i v).keys = s.keys := rfl
@[simp] theorem wrFree_msgTx : (s.wrFree f d i v).msgTx = s.msgTx := rfl
@[simp] theorem wrFree_msgRx : (s.wrFree f d i v).msgRx = s.msgRx := rfl
@[simp] theorem wrFree_annTargets : (s.wrFree f d i v).annTargets = s.annTargets := rfl
@[simp] theorem wrFree_groupRef : (s.wrFree f d i v).groupRef = s.groupRef := rfl
@[simp] theorem wrFree_relMsgs : (s.wrFree f d i v).relMsgs = s.relMsgs := rfl
@[simp] theorem wrFree_ttis : (s.wrFree f d i v).ttis = s.ttis := rfl
@[simp] theorem wrFree_psis : (s.wrFree f d i v).psis = s.psis := rfl
@[simp] theorem wrFree_ttiSend : (s.wrFree f d i v).ttiSend = s.ttiSend := rfl
@[simp] theorem wrFree_insLast : (s.wrFree f d i v).insLast = s.insLast := rfl
@[simp] theorem wrFree_ohSent : (s.wrFree f d i v).ohSent = s.ohSent := rfl
@[simp] theorem wrFree_ohRecv : (s.wrFree f d i v).ohRecv = s.ohRecv := rfl
@[simp] theorem wrFree_kw : (s.wrFree f d i v).kw = s.kw := rfl
@[simp] theorem wrFree_zeroing : (s.wrFree f d i v).zeroing = s.zeroing := rfl
@[simp] theorem wrFree_la : (s.wrFree f d i v).la = s.la := rfl
@[simp] theorem wrFree_cipherOut : (s.wrFree f d i v).cipherOut = s.cipherOut := rfl
@[simp] theorem wrFree_plainOut : (s.wrFree f d i v).plainOut = s.plainOut := rfl
@[simp] theorem wrFree_ohOut : (s.wrFree f d i v).ohOut = s.ohOut := rfl
@[simp] theorem wrFree_hist : (s.wrFree f d i v).hist = s.hist := rfl
@[simp] theorem wrFree_holdFreq : (s.wrFree f d i v).holdFreq = s.holdFreq := rfl
@[simp] theorem wrFree_xcSent : (s.wrFree f d i v).xcSent = s.xcSent := rfl
@[simp] theorem wrFree_xcBuf : (s.wrFree f d i v).xcBuf = s.xcBuf := rfl
@[simp] theorem wrFree_loads : (s.wrFree f d i v).loads = s.loads := rfl
@[simp] theorem wrFree_pwrQ : (s.wrFree f d i v).pwrQ = s.pwrQ := rfl
@[simp] theorem wrFree_pwr : (s.wrFree f d i v).pwr = s.pwr := rfl
@[simp] theorem wrFree_waking : (s.wrFree f d i v).waking = s.waking := rfl
@[simp] theorem wrFree_releases : (s.wrFree f d i v).releases = s.releases := rfl
@[simp] theorem wrFree_grants : (s.wrFree f d i v).grants = s.grants := rfl
@[simp] theorem wrFree_memory : (s.wrFree f d i v).memory = s.memory := rfl
@[simp] theorem wrFree_memValid : (s.wrFree f d i v).memValid = s.memValid := rfl
@[simp] theorem wrFree_poison : (s.wrFree f d i v).poison = s.poison := rfl
@[simp] theorem wrFree_spareRows : (s.wrFree f d i v).spareRows = s.spareRows := rfl
@[simp] theorem wrFree_rowMap : (s.wrFree f d i v).rowMap = s.rowMap := rfl
@[simp] theorem wrFree_marches : (s.wrFree f d i v).marches = s.marches := rfl
@[simp] theorem wrFree_resets : (s.wrFree f d i v).resets = s.resets := rfl
@[simp] theorem wrFree_heldResets : (s.wrFree f d i v).heldResets = s.heldResets := rfl
@[simp] theorem wrFree_bootImage : (s.wrFree f d i v).bootImage = s.bootImage := rfl
@[simp] theorem wrFree_recovery : (s.wrFree f d i v).recovery = s.recovery := rfl
@[simp] theorem wrFree_fwOps : (s.wrFree f d i v).fwOps = s.fwOps := rfl
@[simp] theorem wrFree_auxQ : (s.wrFree f d i v).auxQ = s.auxQ := rfl
@[simp] theorem wrFree_auxWait : (s.wrFree f d i v).auxWait = s.auxWait := rfl
@[simp] theorem wrFree_auxRun : (s.wrFree f d i v).auxRun = s.auxRun := rfl
@[simp] theorem wrFree_auxSimul : (s.wrFree f d i v).auxSimul = s.auxSimul := rfl
@[simp] theorem wrFree_assay : (s.wrFree f d i v).assay = s.assay := rfl
@[simp] theorem wrFree_assaySnap : (s.wrFree f d i v).assaySnap = s.assaySnap := rfl
@[simp] theorem wrFree_pmSecs : (s.wrFree f d i v).pmSecs = s.pmSecs := rfl
@[simp] theorem wrFree_sopBuf : (s.wrFree f d i v).sopBuf = s.sopBuf := rfl
@[simp] theorem wrFree_surveys : (s.wrFree f d i v).surveys = s.surveys := rfl
@[simp] theorem wrFree_captures : (s.wrFree f d i v).captures = s.captures := rfl

/-! `clr`. -/

@[simp] theorem clr_pending : (s.clr f d i).pending = s.pending := rfl
@[simp] theorem clr_freeRegs : (s.clr f d i).freeRegs = s.freeRegs := rfl
@[simp] theorem clr_tallyOn : (s.clr f d i).tallyOn = s.tallyOn := rfl
@[simp] theorem clr_tally : (s.clr f d i).tally = s.tally := rfl
@[simp] theorem clr_rings : (s.clr f d i).rings = s.rings := rfl
@[simp] theorem clr_inflight : (s.clr f d i).inflight = s.inflight := rfl
@[simp] theorem clr_requests : (s.clr f d i).requests = s.requests := rfl
@[simp] theorem clr_compl : (s.clr f d i).compl = s.compl := rfl
@[simp] theorem clr_events : (s.clr f d i).events = s.events := rfl
@[simp] theorem clr_hostMem : (s.clr f d i).hostMem = s.hostMem := rfl
@[simp] theorem clr_msixSent : (s.clr f d i).msixSent = s.msixSent := rfl
@[simp] theorem clr_msixMasked : (s.clr f d i).msixMasked = s.msixMasked := rfl
@[simp] theorem clr_msixWaiting : (s.clr f d i).msixWaiting = s.msixWaiting := rfl
@[simp] theorem clr_readData : (s.clr f d i).readData = s.readData := rfl
@[simp] theorem clr_freeCtr : (s.clr f d i).freeCtr = s.freeCtr := rfl
@[simp] theorem clr_held : (s.clr f d i).held = s.held := rfl
@[simp] theorem clr_commit : (s.clr f d i).commit = s.commit := rfl
@[simp] theorem clr_commitQ : (s.clr f d i).commitQ = s.commitQ := rfl
@[simp] theorem clr_canary : (s.clr f d i).canary = s.canary := rfl
@[simp] theorem clr_spi : (s.clr f d i).spi = s.spi := rfl
@[simp] theorem clr_spiActive : (s.clr f d i).spiActive = s.spiActive := rfl
@[simp] theorem clr_slipRecs : (s.clr f d i).slipRecs = s.slipRecs := rfl
@[simp] theorem clr_slipFixes : (s.clr f d i).slipFixes = s.slipFixes := rfl
@[simp] theorem clr_nlc : (s.clr f d i).nlc = s.nlc := rfl
@[simp] theorem clr_pilots : (s.clr f d i).pilots = s.pilots := rfl
@[simp] theorem clr_txLine : (s.clr f d i).txLine = s.txLine := rfl
@[simp] theorem clr_lfOut : (s.clr f d i).lfOut = s.lfOut := rfl
@[simp] theorem clr_rxLine : (s.clr f d i).rxLine = s.rxLine := rfl
@[simp] theorem clr_pool : (s.clr f d i).pool = s.pool := rfl
@[simp] theorem clr_poolPast : (s.clr f d i).poolPast = s.poolPast := rfl
@[simp] theorem clr_telem : (s.clr f d i).telem = s.telem := rfl
@[simp] theorem clr_telemSkipped : (s.clr f d i).telemSkipped = s.telemSkipped := rfl
@[simp] theorem clr_keys : (s.clr f d i).keys = s.keys := rfl
@[simp] theorem clr_msgTx : (s.clr f d i).msgTx = s.msgTx := rfl
@[simp] theorem clr_msgRx : (s.clr f d i).msgRx = s.msgRx := rfl
@[simp] theorem clr_annTargets : (s.clr f d i).annTargets = s.annTargets := rfl
@[simp] theorem clr_groupRef : (s.clr f d i).groupRef = s.groupRef := rfl
@[simp] theorem clr_relMsgs : (s.clr f d i).relMsgs = s.relMsgs := rfl
@[simp] theorem clr_ttis : (s.clr f d i).ttis = s.ttis := rfl
@[simp] theorem clr_psis : (s.clr f d i).psis = s.psis := rfl
@[simp] theorem clr_ttiSend : (s.clr f d i).ttiSend = s.ttiSend := rfl
@[simp] theorem clr_insLast : (s.clr f d i).insLast = s.insLast := rfl
@[simp] theorem clr_ohSent : (s.clr f d i).ohSent = s.ohSent := rfl
@[simp] theorem clr_ohRecv : (s.clr f d i).ohRecv = s.ohRecv := rfl
@[simp] theorem clr_kw : (s.clr f d i).kw = s.kw := rfl
@[simp] theorem clr_zeroing : (s.clr f d i).zeroing = s.zeroing := rfl
@[simp] theorem clr_la : (s.clr f d i).la = s.la := rfl
@[simp] theorem clr_cipherOut : (s.clr f d i).cipherOut = s.cipherOut := rfl
@[simp] theorem clr_plainOut : (s.clr f d i).plainOut = s.plainOut := rfl
@[simp] theorem clr_ohOut : (s.clr f d i).ohOut = s.ohOut := rfl
@[simp] theorem clr_hist : (s.clr f d i).hist = s.hist := rfl
@[simp] theorem clr_holdFreq : (s.clr f d i).holdFreq = s.holdFreq := rfl
@[simp] theorem clr_xcSent : (s.clr f d i).xcSent = s.xcSent := rfl
@[simp] theorem clr_xcBuf : (s.clr f d i).xcBuf = s.xcBuf := rfl
@[simp] theorem clr_loads : (s.clr f d i).loads = s.loads := rfl
@[simp] theorem clr_pwrQ : (s.clr f d i).pwrQ = s.pwrQ := rfl
@[simp] theorem clr_pwr : (s.clr f d i).pwr = s.pwr := rfl
@[simp] theorem clr_waking : (s.clr f d i).waking = s.waking := rfl
@[simp] theorem clr_releases : (s.clr f d i).releases = s.releases := rfl
@[simp] theorem clr_grants : (s.clr f d i).grants = s.grants := rfl
@[simp] theorem clr_memory : (s.clr f d i).memory = s.memory := rfl
@[simp] theorem clr_memValid : (s.clr f d i).memValid = s.memValid := rfl
@[simp] theorem clr_poison : (s.clr f d i).poison = s.poison := rfl
@[simp] theorem clr_spareRows : (s.clr f d i).spareRows = s.spareRows := rfl
@[simp] theorem clr_rowMap : (s.clr f d i).rowMap = s.rowMap := rfl
@[simp] theorem clr_marches : (s.clr f d i).marches = s.marches := rfl
@[simp] theorem clr_resets : (s.clr f d i).resets = s.resets := rfl
@[simp] theorem clr_heldResets : (s.clr f d i).heldResets = s.heldResets := rfl
@[simp] theorem clr_bootImage : (s.clr f d i).bootImage = s.bootImage := rfl
@[simp] theorem clr_recovery : (s.clr f d i).recovery = s.recovery := rfl
@[simp] theorem clr_fwOps : (s.clr f d i).fwOps = s.fwOps := rfl
@[simp] theorem clr_auxQ : (s.clr f d i).auxQ = s.auxQ := rfl
@[simp] theorem clr_auxWait : (s.clr f d i).auxWait = s.auxWait := rfl
@[simp] theorem clr_auxRun : (s.clr f d i).auxRun = s.auxRun := rfl
@[simp] theorem clr_auxSimul : (s.clr f d i).auxSimul = s.auxSimul := rfl
@[simp] theorem clr_assay : (s.clr f d i).assay = s.assay := rfl
@[simp] theorem clr_assaySnap : (s.clr f d i).assaySnap = s.assaySnap := rfl
@[simp] theorem clr_pmSecs : (s.clr f d i).pmSecs = s.pmSecs := rfl
@[simp] theorem clr_sopBuf : (s.clr f d i).sopBuf = s.sopBuf := rfl
@[simp] theorem clr_surveys : (s.clr f d i).surveys = s.surveys := rfl
@[simp] theorem clr_captures : (s.clr f d i).captures = s.captures := rfl

/-! `assayAdd`. -/

@[simp] theorem assayAdd_pending : (s.assayAdd i v).pending = s.pending := rfl
@[simp] theorem assayAdd_regs : (s.assayAdd i v).regs = s.regs := rfl
@[simp] theorem assayAdd_offs : (s.assayAdd i v).offs = s.offs := rfl
@[simp] theorem assayAdd_freeRegs : (s.assayAdd i v).freeRegs = s.freeRegs := rfl
@[simp] theorem assayAdd_tallyOn : (s.assayAdd i v).tallyOn = s.tallyOn := rfl
@[simp] theorem assayAdd_tally : (s.assayAdd i v).tally = s.tally := rfl
@[simp] theorem assayAdd_rings : (s.assayAdd i v).rings = s.rings := rfl
@[simp] theorem assayAdd_inflight : (s.assayAdd i v).inflight = s.inflight := rfl
@[simp] theorem assayAdd_requests : (s.assayAdd i v).requests = s.requests := rfl
@[simp] theorem assayAdd_compl : (s.assayAdd i v).compl = s.compl := rfl
@[simp] theorem assayAdd_events : (s.assayAdd i v).events = s.events := rfl
@[simp] theorem assayAdd_hostMem : (s.assayAdd i v).hostMem = s.hostMem := rfl
@[simp] theorem assayAdd_msixSent : (s.assayAdd i v).msixSent = s.msixSent := rfl
@[simp] theorem assayAdd_msixMasked : (s.assayAdd i v).msixMasked = s.msixMasked := rfl
@[simp] theorem assayAdd_msixWaiting : (s.assayAdd i v).msixWaiting = s.msixWaiting := rfl
@[simp] theorem assayAdd_readData : (s.assayAdd i v).readData = s.readData := rfl
@[simp] theorem assayAdd_freeCtr : (s.assayAdd i v).freeCtr = s.freeCtr := rfl
@[simp] theorem assayAdd_held : (s.assayAdd i v).held = s.held := rfl
@[simp] theorem assayAdd_commit : (s.assayAdd i v).commit = s.commit := rfl
@[simp] theorem assayAdd_commitQ : (s.assayAdd i v).commitQ = s.commitQ := rfl
@[simp] theorem assayAdd_canary : (s.assayAdd i v).canary = s.canary := rfl
@[simp] theorem assayAdd_spi : (s.assayAdd i v).spi = s.spi := rfl
@[simp] theorem assayAdd_spiActive : (s.assayAdd i v).spiActive = s.spiActive := rfl
@[simp] theorem assayAdd_slipRecs : (s.assayAdd i v).slipRecs = s.slipRecs := rfl
@[simp] theorem assayAdd_slipFixes : (s.assayAdd i v).slipFixes = s.slipFixes := rfl
@[simp] theorem assayAdd_nlc : (s.assayAdd i v).nlc = s.nlc := rfl
@[simp] theorem assayAdd_pilots : (s.assayAdd i v).pilots = s.pilots := rfl
@[simp] theorem assayAdd_txLine : (s.assayAdd i v).txLine = s.txLine := rfl
@[simp] theorem assayAdd_lfOut : (s.assayAdd i v).lfOut = s.lfOut := rfl
@[simp] theorem assayAdd_rxLine : (s.assayAdd i v).rxLine = s.rxLine := rfl
@[simp] theorem assayAdd_pool : (s.assayAdd i v).pool = s.pool := rfl
@[simp] theorem assayAdd_poolPast : (s.assayAdd i v).poolPast = s.poolPast := rfl
@[simp] theorem assayAdd_telem : (s.assayAdd i v).telem = s.telem := rfl
@[simp] theorem assayAdd_telemSkipped : (s.assayAdd i v).telemSkipped = s.telemSkipped := rfl
@[simp] theorem assayAdd_keys : (s.assayAdd i v).keys = s.keys := rfl
@[simp] theorem assayAdd_msgTx : (s.assayAdd i v).msgTx = s.msgTx := rfl
@[simp] theorem assayAdd_msgRx : (s.assayAdd i v).msgRx = s.msgRx := rfl
@[simp] theorem assayAdd_annTargets : (s.assayAdd i v).annTargets = s.annTargets := rfl
@[simp] theorem assayAdd_groupRef : (s.assayAdd i v).groupRef = s.groupRef := rfl
@[simp] theorem assayAdd_relMsgs : (s.assayAdd i v).relMsgs = s.relMsgs := rfl
@[simp] theorem assayAdd_ttis : (s.assayAdd i v).ttis = s.ttis := rfl
@[simp] theorem assayAdd_psis : (s.assayAdd i v).psis = s.psis := rfl
@[simp] theorem assayAdd_ttiSend : (s.assayAdd i v).ttiSend = s.ttiSend := rfl
@[simp] theorem assayAdd_insLast : (s.assayAdd i v).insLast = s.insLast := rfl
@[simp] theorem assayAdd_ohSent : (s.assayAdd i v).ohSent = s.ohSent := rfl
@[simp] theorem assayAdd_ohRecv : (s.assayAdd i v).ohRecv = s.ohRecv := rfl
@[simp] theorem assayAdd_kw : (s.assayAdd i v).kw = s.kw := rfl
@[simp] theorem assayAdd_zeroing : (s.assayAdd i v).zeroing = s.zeroing := rfl
@[simp] theorem assayAdd_la : (s.assayAdd i v).la = s.la := rfl
@[simp] theorem assayAdd_cipherOut : (s.assayAdd i v).cipherOut = s.cipherOut := rfl
@[simp] theorem assayAdd_plainOut : (s.assayAdd i v).plainOut = s.plainOut := rfl
@[simp] theorem assayAdd_ohOut : (s.assayAdd i v).ohOut = s.ohOut := rfl
@[simp] theorem assayAdd_hist : (s.assayAdd i v).hist = s.hist := rfl
@[simp] theorem assayAdd_holdFreq : (s.assayAdd i v).holdFreq = s.holdFreq := rfl
@[simp] theorem assayAdd_xcSent : (s.assayAdd i v).xcSent = s.xcSent := rfl
@[simp] theorem assayAdd_xcBuf : (s.assayAdd i v).xcBuf = s.xcBuf := rfl
@[simp] theorem assayAdd_loads : (s.assayAdd i v).loads = s.loads := rfl
@[simp] theorem assayAdd_pwrQ : (s.assayAdd i v).pwrQ = s.pwrQ := rfl
@[simp] theorem assayAdd_pwr : (s.assayAdd i v).pwr = s.pwr := rfl
@[simp] theorem assayAdd_waking : (s.assayAdd i v).waking = s.waking := rfl
@[simp] theorem assayAdd_releases : (s.assayAdd i v).releases = s.releases := rfl
@[simp] theorem assayAdd_grants : (s.assayAdd i v).grants = s.grants := rfl
@[simp] theorem assayAdd_memory : (s.assayAdd i v).memory = s.memory := rfl
@[simp] theorem assayAdd_memValid : (s.assayAdd i v).memValid = s.memValid := rfl
@[simp] theorem assayAdd_poison : (s.assayAdd i v).poison = s.poison := rfl
@[simp] theorem assayAdd_spareRows : (s.assayAdd i v).spareRows = s.spareRows := rfl
@[simp] theorem assayAdd_rowMap : (s.assayAdd i v).rowMap = s.rowMap := rfl
@[simp] theorem assayAdd_marches : (s.assayAdd i v).marches = s.marches := rfl
@[simp] theorem assayAdd_resets : (s.assayAdd i v).resets = s.resets := rfl
@[simp] theorem assayAdd_heldResets : (s.assayAdd i v).heldResets = s.heldResets := rfl
@[simp] theorem assayAdd_bootImage : (s.assayAdd i v).bootImage = s.bootImage := rfl
@[simp] theorem assayAdd_recovery : (s.assayAdd i v).recovery = s.recovery := rfl
@[simp] theorem assayAdd_fwOps : (s.assayAdd i v).fwOps = s.fwOps := rfl
@[simp] theorem assayAdd_auxQ : (s.assayAdd i v).auxQ = s.auxQ := rfl
@[simp] theorem assayAdd_auxWait : (s.assayAdd i v).auxWait = s.auxWait := rfl
@[simp] theorem assayAdd_auxRun : (s.assayAdd i v).auxRun = s.auxRun := rfl
@[simp] theorem assayAdd_auxSimul : (s.assayAdd i v).auxSimul = s.auxSimul := rfl
@[simp] theorem assayAdd_assaySnap : (s.assayAdd i v).assaySnap = s.assaySnap := rfl
@[simp] theorem assayAdd_pmSecs : (s.assayAdd i v).pmSecs = s.pmSecs := rfl
@[simp] theorem assayAdd_sopBuf : (s.assayAdd i v).sopBuf = s.sopBuf := rfl
@[simp] theorem assayAdd_surveys : (s.assayAdd i v).surveys = s.surveys := rfl
@[simp] theorem assayAdd_captures : (s.assayAdd i v).captures = s.captures := rfl

/-! `count`. -/

@[simp] theorem count_pending : (s.count d i v).pending = s.pending := rfl
@[simp] theorem count_regs : (s.count d i v).regs = s.regs := rfl
@[simp] theorem count_offs : (s.count d i v).offs = s.offs := rfl
@[simp] theorem count_freeRegs : (s.count d i v).freeRegs = s.freeRegs := rfl
@[simp] theorem count_tallyOn : (s.count d i v).tallyOn = s.tallyOn := rfl
@[simp] theorem count_tally : (s.count d i v).tally = s.tally := rfl
@[simp] theorem count_rings : (s.count d i v).rings = s.rings := rfl
@[simp] theorem count_inflight : (s.count d i v).inflight = s.inflight := rfl
@[simp] theorem count_requests : (s.count d i v).requests = s.requests := rfl
@[simp] theorem count_compl : (s.count d i v).compl = s.compl := rfl
@[simp] theorem count_events : (s.count d i v).events = s.events := rfl
@[simp] theorem count_hostMem : (s.count d i v).hostMem = s.hostMem := rfl
@[simp] theorem count_msixSent : (s.count d i v).msixSent = s.msixSent := rfl
@[simp] theorem count_msixMasked : (s.count d i v).msixMasked = s.msixMasked := rfl
@[simp] theorem count_msixWaiting : (s.count d i v).msixWaiting = s.msixWaiting := rfl
@[simp] theorem count_readData : (s.count d i v).readData = s.readData := rfl
@[simp] theorem count_freeCtr : (s.count d i v).freeCtr = s.freeCtr := rfl
@[simp] theorem count_held : (s.count d i v).held = s.held := rfl
@[simp] theorem count_commit : (s.count d i v).commit = s.commit := rfl
@[simp] theorem count_commitQ : (s.count d i v).commitQ = s.commitQ := rfl
@[simp] theorem count_canary : (s.count d i v).canary = s.canary := rfl
@[simp] theorem count_spi : (s.count d i v).spi = s.spi := rfl
@[simp] theorem count_spiActive : (s.count d i v).spiActive = s.spiActive := rfl
@[simp] theorem count_slipRecs : (s.count d i v).slipRecs = s.slipRecs := rfl
@[simp] theorem count_slipFixes : (s.count d i v).slipFixes = s.slipFixes := rfl
@[simp] theorem count_nlc : (s.count d i v).nlc = s.nlc := rfl
@[simp] theorem count_pilots : (s.count d i v).pilots = s.pilots := rfl
@[simp] theorem count_txLine : (s.count d i v).txLine = s.txLine := rfl
@[simp] theorem count_lfOut : (s.count d i v).lfOut = s.lfOut := rfl
@[simp] theorem count_rxLine : (s.count d i v).rxLine = s.rxLine := rfl
@[simp] theorem count_pool : (s.count d i v).pool = s.pool := rfl
@[simp] theorem count_poolPast : (s.count d i v).poolPast = s.poolPast := rfl
@[simp] theorem count_telem : (s.count d i v).telem = s.telem := rfl
@[simp] theorem count_telemSkipped : (s.count d i v).telemSkipped = s.telemSkipped := rfl
@[simp] theorem count_keys : (s.count d i v).keys = s.keys := rfl
@[simp] theorem count_msgTx : (s.count d i v).msgTx = s.msgTx := rfl
@[simp] theorem count_msgRx : (s.count d i v).msgRx = s.msgRx := rfl
@[simp] theorem count_annTargets : (s.count d i v).annTargets = s.annTargets := rfl
@[simp] theorem count_groupRef : (s.count d i v).groupRef = s.groupRef := rfl
@[simp] theorem count_relMsgs : (s.count d i v).relMsgs = s.relMsgs := rfl
@[simp] theorem count_ttis : (s.count d i v).ttis = s.ttis := rfl
@[simp] theorem count_psis : (s.count d i v).psis = s.psis := rfl
@[simp] theorem count_ttiSend : (s.count d i v).ttiSend = s.ttiSend := rfl
@[simp] theorem count_insLast : (s.count d i v).insLast = s.insLast := rfl
@[simp] theorem count_ohSent : (s.count d i v).ohSent = s.ohSent := rfl
@[simp] theorem count_ohRecv : (s.count d i v).ohRecv = s.ohRecv := rfl
@[simp] theorem count_kw : (s.count d i v).kw = s.kw := rfl
@[simp] theorem count_zeroing : (s.count d i v).zeroing = s.zeroing := rfl
@[simp] theorem count_la : (s.count d i v).la = s.la := rfl
@[simp] theorem count_cipherOut : (s.count d i v).cipherOut = s.cipherOut := rfl
@[simp] theorem count_plainOut : (s.count d i v).plainOut = s.plainOut := rfl
@[simp] theorem count_ohOut : (s.count d i v).ohOut = s.ohOut := rfl
@[simp] theorem count_hist : (s.count d i v).hist = s.hist := rfl
@[simp] theorem count_holdFreq : (s.count d i v).holdFreq = s.holdFreq := rfl
@[simp] theorem count_xcSent : (s.count d i v).xcSent = s.xcSent := rfl
@[simp] theorem count_xcBuf : (s.count d i v).xcBuf = s.xcBuf := rfl
@[simp] theorem count_loads : (s.count d i v).loads = s.loads := rfl
@[simp] theorem count_pwrQ : (s.count d i v).pwrQ = s.pwrQ := rfl
@[simp] theorem count_pwr : (s.count d i v).pwr = s.pwr := rfl
@[simp] theorem count_waking : (s.count d i v).waking = s.waking := rfl
@[simp] theorem count_releases : (s.count d i v).releases = s.releases := rfl
@[simp] theorem count_grants : (s.count d i v).grants = s.grants := rfl
@[simp] theorem count_memory : (s.count d i v).memory = s.memory := rfl
@[simp] theorem count_memValid : (s.count d i v).memValid = s.memValid := rfl
@[simp] theorem count_poison : (s.count d i v).poison = s.poison := rfl
@[simp] theorem count_spareRows : (s.count d i v).spareRows = s.spareRows := rfl
@[simp] theorem count_rowMap : (s.count d i v).rowMap = s.rowMap := rfl
@[simp] theorem count_marches : (s.count d i v).marches = s.marches := rfl
@[simp] theorem count_resets : (s.count d i v).resets = s.resets := rfl
@[simp] theorem count_heldResets : (s.count d i v).heldResets = s.heldResets := rfl
@[simp] theorem count_bootImage : (s.count d i v).bootImage = s.bootImage := rfl
@[simp] theorem count_recovery : (s.count d i v).recovery = s.recovery := rfl
@[simp] theorem count_fwOps : (s.count d i v).fwOps = s.fwOps := rfl
@[simp] theorem count_auxQ : (s.count d i v).auxQ = s.auxQ := rfl
@[simp] theorem count_auxWait : (s.count d i v).auxWait = s.auxWait := rfl
@[simp] theorem count_auxRun : (s.count d i v).auxRun = s.auxRun := rfl
@[simp] theorem count_auxSimul : (s.count d i v).auxSimul = s.auxSimul := rfl
@[simp] theorem count_assaySnap : (s.count d i v).assaySnap = s.assaySnap := rfl
@[simp] theorem count_pmSecs : (s.count d i v).pmSecs = s.pmSecs := rfl
@[simp] theorem count_sopBuf : (s.count d i v).sopBuf = s.sopBuf := rfl
@[simp] theorem count_surveys : (s.count d i v).surveys = s.surveys := rfl
@[simp] theorem count_captures : (s.count d i v).captures = s.captures := rfl

/-! Register reads. -/

@[simp] theorem rd_set_pending (x : List Instr) : State.rd { s with pending := x } f d i = s.rd f d i := rfl
@[simp] theorem rd_set_offs (x : Store) : State.rd { s with offs := x } f d i = s.rd f d i := rfl
@[simp] theorem rd_set_freeRegs (x : Store) : State.rd { s with freeRegs := x } f d i = s.rd f d i := rfl
@[simp] theorem rd_set_tallyOn (x : Bool) : State.rd { s with tallyOn := x } f d i = s.rd f d i := rfl
@[simp] theorem rd_set_tally (x : Nat) : State.rd { s with tally := x } f d i = s.rd f d i := rfl
@[simp] theorem rd_set_rings (x : List (Nat × Ring)) : State.rd { s with rings := x } f d i = s.rd f d i := rfl
@[simp] theorem rd_set_inflight (x : List Op) : State.rd { s with inflight := x } f d i = s.rd f d i := rfl
@[simp] theorem rd_set_requests (x : List Request) : State.rd { s with requests := x } f d i = s.rd f d i := rfl
@[simp] theorem rd_set_compl (x : List Compl) : State.rd { s with compl := x } f d i = s.rd f d i := rfl
@[simp] theorem rd_set_events (x : List Event) : State.rd { s with events := x } f d i = s.rd f d i := rfl
@[simp] theorem rd_set_hostMem (x : Mem) : State.rd { s with hostMem := x } f d i = s.rd f d i := rfl
@[simp] theorem rd_set_msixSent (x : List (Nat × Nat)) : State.rd { s with msixSent := x } f d i = s.rd f d i := rfl
@[simp] theorem rd_set_msixMasked (x : List (Nat × Nat)) : State.rd { s with msixMasked := x } f d i = s.rd f d i := rfl
@[simp] theorem rd_set_msixWaiting (x : List (Nat × Nat)) : State.rd { s with msixWaiting := x } f d i = s.rd f d i := rfl
@[simp] theorem rd_set_readData (x : Nat) : State.rd { s with readData := x } f d i = s.rd f d i := rfl
@[simp] theorem rd_set_freeCtr (x : Nat) : State.rd { s with freeCtr := x } f d i = s.rd f d i := rfl
@[simp] theorem rd_set_held (x : List HeldWrite) : State.rd { s with held := x } f d i = s.rd f d i := rfl
@[simp] theorem rd_set_commit (x : Option Commit) : State.rd { s with commit := x } f d i = s.rd f d i := rfl
@[simp] theorem rd_set_commitQ (x : List Op) : State.rd { s with commitQ := x } f d i = s.rd f d i := rfl
@[simp] theorem rd_set_canary (x : List Canary) : State.rd { s with canary := x } f d i = s.rd f d i := rfl
@[simp] theorem rd_set_spi (x : List SpiReq) : State.rd { s with spi := x } f d i = s.rd f d i := rfl
@[simp] theorem rd_set_spiActive (x : List SpiReq) : State.rd { s with spiActive := x } f d i = s.rd f d i := rfl
@[simp] theorem rd_set_slipRecs (x : List SlipRec) : State.rd { s with slipRecs := x } f d i = s.rd f d i := rfl
@[simp] theorem rd_set_slipFixes (x : List SlipRec) : State.rd { s with slipFixes := x } f d i = s.rd f d i := rfl
@[simp] theorem rd_set_nlc (x : List (Nat × NlcPlan)) : State.rd { s with nlc := x } f d i = s.rd f d i := rfl
@[simp] theorem rd_set_pilots (x : List (Nat × List Int)) : State.rd { s with pilots := x } f d i = s.rd f d i := rfl
@[simp] theorem rd_set_txLine (x : List (Nat × TxLine)) : State.rd { s with txLine := x } f d i = s.rd f d i := rfl
@[simp] theorem rd_set_lfOut (x : List (Nat × LineFrame)) : State.rd { s with lfOut := x } f d i = s.rd f d i := rfl
@[simp] theorem rd_set_rxLine (x : List (Nat × RxLine)) : State.rd { s with rxLine := x } f d i = s.rd f d i := rfl
@[simp] theorem rd_set_pool (x : List Pos) : State.rd { s with pool := x } f d i = s.rd f d i := rfl
@[simp] theorem rd_set_poolPast (x : List Pos) : State.rd { s with poolPast := x } f d i = s.rd f d i := rfl
@[simp] theorem rd_set_telem (x : List Telem) : State.rd { s with telem := x } f d i = s.rd f d i := rfl
@[simp] theorem rd_set_telemSkipped (x : List (Nat × Nat)) : State.rd { s with telemSkipped := x } f d i = s.rd f d i := rfl
@[simp] theorem rd_set_keys (x : List (Nat × Nat)) : State.rd { s with keys := x } f d i = s.rd f d i := rfl
@[simp] theorem rd_set_msgTx (x : List (Nat × Byte)) : State.rd { s with msgTx := x } f d i = s.rd f d i := rfl
@[simp] theorem rd_set_msgRx (x : List (Nat × Byte)) : State.rd { s with msgRx := x } f d i = s.rd f d i := rfl
@[simp] theorem rd_set_annTargets (x : List (Nat × Nat)) : State.rd { s with annTargets := x } f d i = s.rd f d i := rfl
@[simp] theorem rd_set_groupRef (x : List (Nat × Nat × Nat)) : State.rd { s with groupRef := x } f d i = s.rd f d i := rfl
@[simp] theorem rd_set_relMsgs (x : List (Nat × Nat × Nat)) : State.rd { s with relMsgs := x } f d i = s.rd f d i := rfl
@[simp] theorem rd_set_ttis (x : List TtiRec) : State.rd { s with ttis := x } f d i = s.rd f d i := rfl
@[simp] theorem rd_set_psis (x : List PsiRec) : State.rd { s with psis := x } f d i = s.rd f d i := rfl
@[simp] theorem rd_set_ttiSend (x : List (Nat × List Byte)) : State.rd { s with ttiSend := x } f d i = s.rd f d i := rfl
@[simp] theorem rd_set_insLast (x : List (Nat × List Byte)) : State.rd { s with insLast := x } f d i = s.rd f d i := rfl
@[simp] theorem rd_set_ohSent (x : List (Nat × List Byte)) : State.rd { s with ohSent := x } f d i = s.rd f d i := rfl
@[simp] theorem rd_set_ohRecv (x : List (Nat × List Byte)) : State.rd { s with ohRecv := x } f d i = s.rd f d i := rfl
@[simp] theorem rd_set_kw (x : List Op) : State.rd { s with kw := x } f d i = s.rd f d i := rfl
@[simp] theorem rd_set_zeroing (x : List Op) : State.rd { s with zeroing := x } f d i = s.rd f d i := rfl
@[simp] theorem rd_set_la (x : List LaOp) : State.rd { s with la := x } f d i = s.rd f d i := rfl
@[simp] theorem rd_set_cipherOut (x : List (Nat × CipherFrame)) : State.rd { s with cipherOut := x } f d i = s.rd f d i := rfl
@[simp] theorem rd_set_plainOut (x : List (Nat × Fate × List Byte)) : State.rd { s with plainOut := x } f d i = s.rd f d i := rfl
@[simp] theorem rd_set_ohOut (x : List (Nat × BitVec 256)) : State.rd { s with ohOut := x } f d i = s.rd f d i := rfl
@[simp] theorem rd_set_hist (x : List Int) : State.rd { s with hist := x } f d i = s.rd f d i := rfl
@[simp] theorem rd_set_holdFreq (x : Option Int) : State.rd { s with holdFreq := x } f d i = s.rd f d i := rfl
@[simp] theorem rd_set_xcSent (x : List (Nat × List Byte)) : State.rd { s with xcSent := x } f d i = s.rd f d i := rfl
@[simp] theorem rd_set_xcBuf (x : List (Nat × List Byte)) : State.rd { s with xcBuf := x } f d i = s.rd f d i := rfl
@[simp] theorem rd_set_loads (x : List Load) : State.rd { s with loads := x } f d i = s.rd f d i := rfl
@[simp] theorem rd_set_pwrQ (x : List PwrReq) : State.rd { s with pwrQ := x } f d i = s.rd f d i := rfl
@[simp] theorem rd_set_pwr (x : Option PwrRun) : State.rd { s with pwr := x } f d i = s.rd f d i := rfl
@[simp] theorem rd_set_waking (x : Option PwrReq) : State.rd { s with waking := x } f d i = s.rd f d i := rfl
@[simp] theorem rd_set_releases (x : List (Die × Nat)) : State.rd { s with releases := x } f d i = s.rd f d i := rfl
@[simp] theorem rd_set_grants (x : Option Grants) : State.rd { s with grants := x } f d i = s.rd f d i := rfl
@[simp] theorem rd_set_memory (x : Mem) : State.rd { s with memory := x } f d i = s.rd f d i := rfl
@[simp] theorem rd_set_memValid (x : List (Nat × Nat)) : State.rd { s with memValid := x } f d i = s.rd f d i := rfl
@[simp] theorem rd_set_poison (x : List (Nat × Nat)) : State.rd { s with poison := x } f d i = s.rd f d i := rfl
@[simp] theorem rd_set_spareRows (x : List (Nat × Nat)) : State.rd { s with spareRows := x } f d i = s.rd f d i := rfl
@[simp] theorem rd_set_rowMap (x : List (Nat × Nat)) : State.rd { s with rowMap := x } f d i = s.rd f d i := rfl
@[simp] theorem rd_set_marches (x : List March) : State.rd { s with marches := x } f d i = s.rd f d i := rfl
@[simp] theorem rd_set_resets (x : List ResetRun) : State.rd { s with resets := x } f d i = s.rd f d i := rfl
@[simp] theorem rd_set_heldResets (x : List Op) : State.rd { s with heldResets := x } f d i = s.rd f d i := rfl
@[simp] theorem rd_set_bootImage (x : Option BootImage) : State.rd { s with bootImage := x } f d i = s.rd f d i := rfl
@[simp] theorem rd_set_recovery (x : Option BootImage) : State.rd { s with recovery := x } f d i = s.rd f d i := rfl
@[simp] theorem rd_set_fwOps (x : List Op) : State.rd { s with fwOps := x } f d i = s.rd f d i := rfl
@[simp] theorem rd_set_auxQ (x : List AuxEntry) : State.rd { s with auxQ := x } f d i = s.rd f d i := rfl
@[simp] theorem rd_set_auxWait (x : List AuxConv) : State.rd { s with auxWait := x } f d i = s.rd f d i := rfl
@[simp] theorem rd_set_auxRun (x : List AuxConv) : State.rd { s with auxRun := x } f d i = s.rd f d i := rfl
@[simp] theorem rd_set_auxSimul (x : Option Op) : State.rd { s with auxSimul := x } f d i = s.rd f d i := rfl
@[simp] theorem rd_set_assay (x : List (Nat × Nat)) : State.rd { s with assay := x } f d i = s.rd f d i := rfl
@[simp] theorem rd_set_assaySnap (x : Option Op) : State.rd { s with assaySnap := x } f d i = s.rd f d i := rfl
@[simp] theorem rd_set_pmSecs (x : List PmSec) : State.rd { s with pmSecs := x } f d i = s.rd f d i := rfl
@[simp] theorem rd_set_sopBuf (x : List (Nat × Nat × List (Nat × Nat × Nat))) : State.rd { s with sopBuf := x } f d i = s.rd f d i := rfl
@[simp] theorem rd_set_surveys (x : List Survey) : State.rd { s with surveys := x } f d i = s.rd f d i := rfl
@[simp] theorem rd_set_captures (x : List Capture) : State.rd { s with captures := x } f d i = s.rd f d i := rfl
@[simp] theorem assayAdd_rd : (s.assayAdd i v).rd f e j = s.rd f e j := rfl
@[simp] theorem assayAdd_on : (s.assayAdd i v).on f e j = s.on f e j := rfl
@[simp] theorem assayAdd_rdOff : (s.assayAdd i v).rdOff f e j = s.rdOff f e j := rfl
@[simp] theorem assayAdd_rdFree : (s.assayAdd i v).rdFree f e j = s.rdFree f e j := rfl
@[simp] theorem count_rd : (s.count d i v).rd f e j = s.rd f e j := rfl
@[simp] theorem count_on : (s.count d i v).on f e j = s.on f e j := rfl
@[simp] theorem count_rdOff : (s.count d i v).rdOff f e j = s.rdOff f e j := rfl
@[simp] theorem count_rdFree : (s.count d i v).rdFree f e j = s.rdFree f e j := rfl

end Sys2Proof.Machine.State
end

