-- ==== Sys2Proof/Laws/Ops.lean ====
section
/-! SUPPORT. What the shared operations can do: events, descriptors in flight and their completions, the checks before a
descriptor's work, and register accesses. -/

namespace Sys2Proof.Machine

namespace State

/-! Events touch the list of pending events only. -/

/-- The pending events after one is raised: coalesced into its like, or last of all. -/
abbrev eventsWith (evs : List Event) (now r b : Nat) (fn : Option Nat) (dest a0 a1 : Nat) (far : Option Nat) : List Event :=
  let same (e : Event) : Bool := e.reason == r && e.block == b && e.func == fn && e.dest == dest
  if evs.any same then updateWhere same (fun e => { e with repeats := min 63 (e.repeats + 1), arg1 := a1 }) evs
  else evs ++ [⟨r, b, fn, dest, a0, a1, now, far, 0⟩]

theorem raiseAs_def (s : State) (r b : Nat) (fn : Option Nat) (dest a0 a1 : Nat) (far : Option Nat) :
    s.raiseAs r b fn dest a0 a1 far = { s with events := eventsWith s.events s.tally r b fn dest a0 a1 far } := by
  unfold raiseAs eventsWith; dsimp only; split <;> rfl

/-- Raising an event changes the pending events and nothing else. -/
theorem raiseAs_eq (s : State) (r b : Nat) (fn : Option Nat) (dest a0 a1 : Nat) (far : Option Nat) :
    s.raiseAs r b fn dest a0 a1 far = { s with events := (s.raiseAs r b fn dest a0 a1 far).events } := by
  rw [raiseAs_def]

theorem raise_eq (s : State) (r b a0 a1 : Nat) (far : Option Nat) :
    s.raise r b a0 a1 far = { s with events := (s.raise r b a0 a1 far).events } := raiseAs_eq ..

@[simp] theorem rd_raiseAs (s : State) (r b : Nat) (fn : Option Nat) (dest a0 a1 : Nat) (far : Option Nat) (f : Fld)
    (d : Die) (i : Nat) : (s.raiseAs r b fn dest a0 a1 far).rd f d i = s.rd f d i := by
  rw [raiseAs_eq]; rfl

@[simp] theorem rd_raise (s : State) (r b a0 a1 : Nat) (far : Option Nat) (f : Fld) (d : Die) (i : Nat) :
    (s.raise r b a0 a1 far).rd f d i = s.rd f d i := rd_raiseAs ..

@[simp] theorem rd_raiseField (s : State) (g : Fld) (e : Die) (j : Nat) (far : Option Nat) (f : Fld) (d : Die) (i : Nat) :
    (s.raiseField g e j far).rd f d i = s.rd f d i := rd_raise ..

/-- The pending events depend on the events and the tally alone. -/
theorem raiseAs_wr (s : State) (f : Fld) (d : Die) (i v r b : Nat) (fn : Option Nat) (dest a0 a1 : Nat)
    (far : Option Nat) : (s.wr f d i v).raiseAs r b fn dest a0 a1 far = (s.raiseAs r b fn dest a0 a1 far).wr f d i v := by
  rw [raiseAs_def, raiseAs_def]; rfl

theorem raise_wr (s : State) (f : Fld) (d : Die) (i v r b a0 a1 : Nat) (far : Option Nat) :
    (s.wr f d i v).raise r b a0 a1 far = (s.raise r b a0 a1 far).wr f d i v := raiseAs_wr ..

theorem raiseField_wr (s : State) (f : Fld) (d : Die) (i v : Nat) (g : Fld) (e : Die) (j : Nat) (far : Option Nat) :
    (s.wr f d i v).raiseField g e j far = (s.raiseField g e j far).wr f d i v := raise_wr ..

theorem raise_inc (s : State) (f : Fld) (d : Die) (i k r b a0 a1 : Nat) (far : Option Nat) :
    (s.inc f d i k).raise r b a0 a1 far = (s.raise r b a0 a1 far).inc f d i k := by
  rw [inc, raise_wr, inc, rd_raise]

theorem raise_wrs (s : State) (d : Die) (i : Nat) (l : List (Fld × Nat)) (r b a0 a1 : Nat) (far : Option Nat) :
    (s.wrs d i l).raise r b a0 a1 far = (s.raise r b a0 a1 far).wrs d i l := by
  induction l generalizing s with
  | nil => rfl
  | cons p l ih => obtain ⟨f, v⟩ := p; rw [wrs, ih, raise_wr, wrs]

/-! Counters and lists of fields. -/

theorem rd_inc (s : State) (f g : Fld) (d e : Die) (i j k : Nat) :
    (s.inc f d i k).rd g e j = if f = g ∧ d = e ∧ i = j then min (s.rd f d i + k) (2 ^ f.row.width - 1) else s.rd g e j := by
  rw [inc, rd_wr]
  split
  · exact Nat.mod_eq_of_lt (lt_of_le_of_lt (Nat.min_le_right _ _) (Nat.sub_lt (Nat.two_pow_pos _) Nat.one_pos))
  · rfl

theorem rd_bump (s : State) (f g : Fld) (d e : Die) (i j k : Nat) :
    (s.bump f d i k).rd g e j = if f = g ∧ d = e ∧ i = j then (s.rd f d i + k) % 2 ^ f.row.width else s.rd g e j := by
  rw [bump, rd_wr]

@[simp] theorem wrs_nil (s : State) (d : Die) (i : Nat) : s.wrs d i [] = s := rfl
@[simp] theorem wrs_cons (s : State) (d : Die) (i : Nat) (f : Fld) (v : Nat) (l : List (Fld × Nat)) :
    s.wrs d i ((f, v) :: l) = (s.wr f d i v).wrs d i l := rfl

/-- Cleared fields read 0, every other field reads as before. -/
theorem rd_zeros (s : State) (d e : Die) (i j : Nat) (l : List Fld) (g : Fld) :
    (s.zeros d i l).rd g e j = if g ∈ l ∧ d = e ∧ i = j then 0 else s.rd g e j := by
  induction l generalizing s with
  | nil => simp [zeros]
  | cons f l ih =>
    have h : s.zeros d i (f :: l) = (s.wr f d i 0).zeros d i l := rfl
    rw [h, ih, rd_wr, Nat.zero_mod]
    by_cases hp : d = e ∧ i = j
    · by_cases hg : g ∈ l
      · rw [if_pos ⟨hg, hp⟩, if_pos ⟨List.mem_cons_of_mem _ hg, hp⟩]
      · rw [if_neg fun h => hg h.1]
        by_cases hf : f = g
        · rw [if_pos ⟨hf, hp⟩, if_pos ⟨by rw [hf]; exact List.mem_cons_self, hp⟩]
        · rw [if_neg fun h => hf h.1, if_neg fun h => (List.mem_cons.mp h.1).elim (hf ·.symm) hg]
    · rw [if_neg fun h => hp h.2, if_neg fun h => hp h.2, if_neg fun h => hp h.2]

/-! Register accesses. -/

theorem readReg_word {s : State} {d : Die} {f : Fld} {i : Nat} {act : State → State × Nat} {w : Window}
    {fs : List (Fld × Nat × Nat)} (h : s.dieAccess d (f.offsetAt i) = .word w fs) :
    s.readReg d f i act = { (act s).1 with readData := (act s).2 } := by
  simp only [readReg, h]

theorem writeReg_word {s : State} {d : Die} {f : Fld} {i : Nat} {act : State → State} {w : Window}
    {fs : List (Fld × Nat × Nat)} (h : s.dieAccess d (f.offsetAt i) = .word w fs) : s.writeReg d f i act = act s := by
  simp only [writeReg, h]

/-- A write that R505 answers is discarded, counted and announced. -/
theorem writeReg_blockOff {s : State} {d : Die} {f : Fld} {i : Nat} {act : State → State} {b : Nat}
    (h : s.dieAccess d (f.offsetAt i) = .blockOff b) : s.writeReg d f i act = s.deadAccess b (f.offsetAt i) true := by
  simp only [writeReg, h]

end State
end Sys2Proof.Machine
end

