-- ==== Sys2Proof/Laws/Descriptors.lean ====
section
/-! SUPPORT. Descriptors: what taking one, judging its target and ending it do. -/

namespace Sys2Proof.Machine.State

/-- The two counts of operations in flight follow the lists; nothing else changes. -/
theorem countOps_sameBut (s : State) (fn : Nat) :
    SameBut [(.hostOpsInFlight, .m0, 0), (.vfOpsInFlight, .m0, fn)] s (s.countOps fn) := by
  have h := (SameBut.refl [(.hostOpsInFlight, .m0, 0), (.vfOpsInFlight, .m0, fn)] s).wr .hostOpsInFlight .m0 0
    (s.inflight.length + s.compl.length) (by simp)
  unfold countOps
  split
  · exact h
  · exact h.wr _ _ _ _ (by simp)

/-- A register that counts no operations reads the same after the counts follow. -/
theorem rd_countOps (s : State) (fn : Nat) (f : Fld) (d : Die) (i : Nat) (h₁ : f ≠ .hostOpsInFlight)
    (h₂ : f ≠ .vfOpsInFlight) : (s.countOps fn).rd f d i = s.rd f d i :=
  (countOps_sameBut s fn).rd (by simp [h₁, h₂])

theorem rd_enlist (s : State) (op : Nat) (x : Desc) (f : Fld) (d : Die) (i : Nat) (h₁ : f ≠ .hostOpsInFlight)
    (h₂ : f ≠ .vfOpsInFlight) : (s.enlist op x).rd f d i = s.rd f d i := by
  unfold enlist
  split
  · rfl
  · rw [rd_countOps _ _ _ _ _ h₁ h₂]; rfl

theorem enlist_rings (s : State) (op : Nat) (x : Desc) : (s.enlist op x).rings = s.rings := by
  unfold enlist
  split
  · rfl
  · rw [(countOps_sameBut _ _).1]

/-- A descriptor in flight: the commands of its own ring and slot are. -/
theorem enlist_isFor (s : State) (op : Nat) (x : Desc) : (s.enlist op x).inflight.any (·.isFor x) = true := by
  unfold enlist
  split
  next h => exact h
  next => rw [(countOps_sameBut _ _).1]; simp [Op.isFor]

/-- The work of a descriptor that the checks let through runs on the state in which it is in flight. -/
theorem take_accepted {s : State} {op : Nat} {x : Desc} {bad excluded : Bool} {act : State → State} {page : Nat}
    (h : s.Accepts op x) (hb : bad = false) (he : excluded = false) :
    s.take op x bad act excluded page = act (s.enlist op x) := by
  obtain ⟨hf, hw, hr, hh, row, ho, hc, hp⟩ := h
  have hr' : (s.enlist op x).on .hostFwReady = true := by rw [on, rd_enlist _ _ _ _ _ _ (by decide) (by decide)]; exact hr
  have hring : (Cells.find x.ring s.rings).any (fun r => r.cls != row.1) = false := by
    cases hx : Cells.find x.ring s.rings with
    | none => rfl
    | some r => simp [hc r hx]
  have hpf : (row.2 && x.fn.val != 0) = false := by
    cases h2 : row.2 with
    | false => rfl
    | true => simp [hp h2]
  unfold take
  simp only [hf, hw, hr', ho, enlist_rings, hring, hpf, hh, hb, he, Bool.not_true, Bool.false_eq_true, if_false, Bool.or_false]

/-- A domain in Run, none of whose grants stands, is not changed by a wake source (R515, R523). -/
theorem wakeBy_run {s : State} {t : Die} {k : Nat} (h : s.domSt t k = 0) (hp : s.pwr = none) : s.wakeBy t k = s := by
  have hw : s.wakeIdle t k = s := by unfold wakeIdle; rw [if_neg (by omega)]
  unfold wakeBy; rw [hw]; simp only [hp]

/-- Taking a descriptor leaves every part of the state but the operations in flight, their requests and their counts. -/
theorem enlist_events (s : State) (op : Nat) (x : Desc) : (s.enlist op x).events = s.events := by
  unfold enlist
  split
  · rfl
  · rw [(countOps_sameBut _ _).1]

theorem enlist_compl (s : State) (op : Nat) (x : Desc) : (s.enlist op x).compl = s.compl := by
  unfold enlist
  split
  · rfl
  · rw [(countOps_sameBut _ _).1]

/-- A target that serves takes the work, awake. -/
theorem onTarget_serves {s : State} {op : Nat} {x : Desc} {t : Die} {dom : Nat} {act : State → State}
    (h : s.Serves t dom) : s.onTarget op x t dom act = act (s.wakeBy t dom) := by
  obtain ⟨h1, h2, h3, h4, h5⟩ := h
  unfold onTarget
  simp only [h1, h2, h3, h4, Bool.not_true, Bool.false_eq_true, if_false, if_neg (by omega : ¬ 2 ≤ s.domSt t dom)]

/-- Where the target and the path serve, they serve in the state with the descriptor in flight. -/
theorem Serves.enlist {s : State} {t : Die} {dom : Nat} (h : s.Serves t dom) (op : Nat) (x : Desc) :
    (s.enlist op x).Serves t dom := by
  have hr : ∀ (f : Fld) (d : Die) (i : Nat), f ≠ .hostOpsInFlight → f ≠ .vfOpsInFlight →
      (s.enlist op x).rd f d i = s.rd f d i := fun f d i h₁ h₂ => rd_enlist s op x f d i h₁ h₂
  have hpart : (s.enlist op x).part = s.part := hr _ _ _ (by decide) (by decide)
  have hhas : (s.enlist op x).has = s.has := by
    funext d; cases d <;> simp only [has, hpart]
  have hreach : (s.enlist op x).reach t = s.reach t := by
    simp only [reach, on, hr .winzLinkUp _ _ (by decide) (by decide)]
  have hreset : (s.enlist op x).domInReset t dom = s.domInReset t dom := by
    simp only [domInReset, dieInReset, on, hr .inReset _ _ (by decide) (by decide)]
  have hst : ∀ k, (s.enlist op x).domSt t k = s.domSt t k := fun k => hr .domState _ _ (by decide) (by decide)
  have hdown : (s.enlist op x).on .plannedDown t = s.on .plannedDown t := by
    simp only [on, hr .plannedDown _ _ (by decide) (by decide)]
  obtain ⟨h1, h2, h3, h4, h5⟩ := h
  exact ⟨by rw [hhas]; exact h1, by rw [hreset]; exact h2, by rw [domDead, hst, hdown]; exact h3, by rw [hreach]; exact h4,
    by rw [hst]; exact h5⟩

/-- Ending a descriptor that is not in flight changes nothing. -/
theorem finish_idle {s : State} {x : Desc} (op : Nat) (st : Status) (result : Nat)
    (h : s.inflight.any (·.isFor x) = false) : s.finish op x st result = s := by
  simp [finish, h]

/-- The completion that ending a descriptor makes: none for a ring that does not exist. -/
abbrev complOf (s : State) (op : Nat) (x : Desc) (st : Status) (result : Nat) : List Compl :=
  match Cells.find x.ring s.rings with
  | none => []
  | some r => [⟨x.fn, x.ring, r.cq, op, x.tag.toNat, st.code, s.resultOf op st result, x.irqNow, Op.targetDie ⟨op, x⟩⟩]

/-- A state with a descriptor ended, before the counts follow. -/
abbrev endedOf (s : State) (op : Nat) (x : Desc) (st : Status) (result : Nat) : State :=
  { s with inflight := s.inflight.filter fun o => !o.isFor x, requests := s.requests.filter fun r => !r.isFor x
           compl := s.compl ++ s.complOf op x st result }

/-- All that ending a descriptor in flight does. -/
theorem finish_eq {s : State} {x : Desc} (op : Nat) (st : Status) (result : Nat) (h : s.inflight.any (·.isFor x) = true) :
    s.finish op x st result =
      (if op = 0x08 then (s.endedOf op x st result).wrP .shiftLastStatus st.code else s.endedOf op x st result).countOps x.fn := by
  unfold finish
  simp only [h, Bool.not_true, Bool.false_eq_true, if_false, endedOf, complOf]
  cases hr : Cells.find x.ring s.rings <;> simp only [List.append_nil] <;> rfl

/-- Ending a descriptor in flight: beside what is in flight, outstanding and to be completed only counts of operations change,
and last_status of a commit. -/
theorem finish_sameBut {s : State} {x : Desc} (op : Nat) (st : Status) (result : Nat) (h : s.inflight.any (·.isFor x) = true) :
    SameBut [(.hostOpsInFlight, .m0, 0), (.vfOpsInFlight, .m0, x.fn), (.shiftLastStatus, .m0, 0)]
      (s.endedOf op x st result) (s.finish op x st result) := by
  rw [finish_eq op st result h]
  have hc (v : State) := (countOps_sameBut v x.fn).mono (m := [(.hostOpsInFlight, .m0, 0), (.vfOpsInFlight, .m0, x.fn),
    (.shiftLastStatus, .m0, 0)]) (by simp)
  split
  · exact ((SameBut.refl _ _).wr .shiftLastStatus .m0 0 st.code (by simp)).trans (hc _)
  · exact hc _

/-- Ending a descriptor in flight takes it out of flight and makes its completion. -/
theorem finish_completes {s : State} {x : Desc} (op : Nat) (st : Status) (result : Nat)
    (h : s.inflight.any (·.isFor x) = true) : s.Completes (s.finish op x st result) op x st result := by
  have e := (finish_sameBut op st result h).1
  exact ⟨(congrArg State.inflight e).trans rfl, (congrArg State.compl e).trans rfl⟩

/-- A descriptor is put in flight once. -/
theorem enlist_enlist (s : State) (op : Nat) (x : Desc) : (s.enlist op x).enlist op x = s.enlist op x := by
  rw [enlist, if_pos (enlist_isFor s op x)]

end Sys2Proof.Machine.State
end

