-- ==== Sys2Proof/Laws/Swaps.lean ====
section
/-! SUPPORT. What a swap of staged settings and the receiver's shared operations can do. -/

namespace Sys2Proof.Machine

/-- A key that a sorted list holds after its head is not the head's. -/
theorem Cells.head_ne {α : Type} {k : Nat} {v : α} {l : List (Nat × α)} (h : Cells.sorted ((k, v) :: l) = true)
    {p : Nat × α} (hp : p ∈ l) : p.1 ≠ k := by
  have := (Cells.sorted_cons.mp h).1 p hp
  omega

/-- A key that is not found has no entry. -/
theorem Cells.ne_of_find {α : Type} {k : Nat} {l : List (Nat × α)} (h : Cells.find k l = none) : ∀ p ∈ l, p.1 ≠ k := by
  induction l with
  | nil => simp
  | cons e l ih =>
    by_cases hj : e.1 = k
    · simp [Cells.find, hj] at h
    · rw [Cells.find, if_neg hj] at h
      rintro p (_ | ⟨_, hp⟩)
      · exact hj
      · exact ih h p hp

/-- An entry of a sorted list is found through a filter that keeps its key. -/
theorem Cells.find_filter {α : Type} (p : Nat → Bool) (k : Nat) (l : List (Nat × α)) :
    Cells.find k (l.filter fun e => p e.1) = if p k = true then Cells.find k l else none := by
  induction l with
  | nil => simp [Cells.find]
  | cons e l ih =>
    obtain ⟨j, v⟩ := e
    by_cases hj : p j = true
    · rw [List.filter_cons_of_pos (by simpa using hj)]
      simp only [Cells.find, ih]
      by_cases hk : j = k
      · subst hk; simp [hj]
      · simp [hk]
    · rw [List.filter_cons_of_neg (by simpa using hj), ih]
      by_cases hk : j = k
      · subst hk; simp [hj]
      · simp [Cells.find, hk]

namespace State

/-- One staged value changes places with the live one. -/
abbrev swapOne (s : State) (e : Nat × Nat) : State :=
  { s with regs := Cells.set resetOfKey e.1 e.2 s.regs
           offs := Cells.put e.1 (Cells.get resetOfKey e.1 s.regs) s.offs }

/-- Values in turn: a key that none of them has keeps its live value and its staged copy. -/
theorem swapAll_frame (l : List (Nat × Nat)) {s : State} {k : Nat} (h : ∀ e ∈ l, e.1 ≠ k) :
    Cells.get resetOfKey k (l.foldl swapOne s).regs = Cells.get resetOfKey k s.regs ∧
      Cells.find k (l.foldl swapOne s).offs = Cells.find k s.offs := by
  induction l generalizing s with
  | nil => exact ⟨rfl, rfl⟩
  | cons e l ih =>
    have he := h e (by simp)
    obtain ⟨a, b⟩ := ih (s := s.swapOne e) fun q hq => h q (by simp [hq])
    refine ⟨a.trans ?_, b.trans ?_⟩
    · simp [Cells.get_set, he]
    · simp [Cells.find_put, he]

/-- Values in turn: the live value of a key becomes the staged one, and the staged one what was live. -/
theorem swapAll_moves {l : List (Nat × Nat)} (hl : Cells.sorted l = true) {s : State} {k v : Nat} (h : Cells.find k l = some v) :
    Cells.get resetOfKey k (l.foldl swapOne s).regs = v ∧
      Cells.find k (l.foldl swapOne s).offs = some (Cells.get resetOfKey k s.regs) := by
  induction l generalizing s with
  | nil => cases h
  | cons e l ih =>
    obtain ⟨j, w⟩ := e
    by_cases hj : j = k
    · subst hj
      have hw : w = v := by simpa [Cells.find] using h
      subst hw
      obtain ⟨a, b⟩ := swapAll_frame l (s := s.swapOne (j, w)) (k := j) fun q hq => Cells.head_ne hl hq
      exact ⟨a.trans (by simp [Cells.get_set]), b.trans (by simp [Cells.find_put])⟩
    · obtain ⟨a, b⟩ := ih (Cells.sorted_cons.mp hl).2 (s := s.swapOne (j, w)) (by simpa [Cells.find, hj] using h)
      exact ⟨a, b.trans (by simp [Cells.get_set, hj])⟩

/-- A field that a swap does not name keeps its live value and its staged copy. -/
theorem swapWhere_frame (s : State) {p : Nat → Bool} {f : Fld} {d : Die} {i : Nat} (h : p (f.key d i) = false) :
    (s.swapWhere p).rd f d i = s.rd f d i ∧ (s.swapWhere p).rdOff f d i = s.rdOff f d i := by
  have := swapAll_frame (s.offs.filter fun e => p e.1) (s := s) (k := f.key d i) fun e he => by
    have hp := (List.mem_filter.mp he).2
    intro hk
    rw [hk, h] at hp
    cases hp
  have h1 : (s.swapWhere p).rd f d i = s.rd f d i := this.1
  refine ⟨h1, ?_⟩
  have h2 : Cells.find (f.key d i) (s.swapWhere p).offs = Cells.find (f.key d i) s.offs := this.2
  rw [rdOff, h1, h2]; rfl

/-- A field that a swap names changes places with its staged copy. -/
theorem swapWhere_moves {s : State} (hs : Cells.sorted s.offs = true) {p : Nat → Bool} {f : Fld} {d : Die} {i : Nat}
    (h : p (f.key d i) = true) :
    (s.swapWhere p).rd f d i = s.rdOff f d i ∧ (s.swapWhere p).rdOff f d i = s.rd f d i := by
  have hf := Cells.find_filter p (f.key d i) s.offs
  rw [if_pos h] at hf
  cases hk : Cells.find (f.key d i) s.offs with
  | some v =>
    rw [hk] at hf
    have := swapAll_moves (Cells.sorted_filter (fun e => p e.1) hs) (s := s) hf
    have h1 : (s.swapWhere p).rd f d i = v := this.1
    have h2 : Cells.find (f.key d i) (s.swapWhere p).offs = some (s.rd f d i) := this.2
    exact ⟨by rw [h1, rdOff, hk]; rfl, by rw [rdOff, h2]; rfl⟩
  | none =>
    rw [hk] at hf
    have := swapAll_frame (s.offs.filter fun e => p e.1) (s := s) (k := f.key d i)
      fun e he => Cells.ne_of_find hk e (List.mem_filter.mp he).1
    have h1 : (s.swapWhere p).rd f d i = s.rd f d i := this.1
    have h2 : Cells.find (f.key d i) (s.swapWhere p).offs = none := this.2.trans hk
    exact ⟨by rw [h1, rdOff, hk]; rfl, by rw [rdOff, h2, h1]; rfl⟩

/-- A swap changes live values and staged copies only. -/
theorem swapWhere_eq (s : State) (p : Nat → Bool) :
    s.swapWhere p = { s with regs := (s.swapWhere p).regs, offs := (s.swapWhere p).offs } := by
  have key (l : List (Nat × Nat)) (s : State) :
      l.foldl swapOne s = { s with regs := (l.foldl swapOne s).regs, offs := (l.foldl swapOne s).offs } := by
    induction l generalizing s with
    | nil => rfl
    | cons e l ih => exact (ih (s.swapOne e)).trans rfl
  exact key _ s

/-- A squared error counted touches its stream's noise estimate only (R187). -/
theorem noiseAdd_sameBut (s : State) (d : Die) (i lf err : Nat) :
    SameBut (regsAt d i [.noiseEst, .noiseSum, .noiseCnt, .noiseLf]) s (s.noiseAdd d i lf err) := by
  unfold noiseAdd
  dsimp only
  split <;> exact (SameBut.refl _ s).wrs d i _ (by simp [mem_regsAt])

end State

end Sys2Proof.Machine
end

