-- ==== Sys2Proof/Laws/Canonical.lean ====
section
/-! SUPPORT. The shared operations keep the canonical forms of the stores. -/

namespace Sys2Proof.Machine.State

/-- A state whose five stores are those of another is in canonical form with it. -/
theorem wf_of_stores {s t : State} (h : s.wf = true) (h₁ : t.regs = s.regs) (h₂ : t.offs = s.offs)
    (h₃ : t.freeRegs = s.freeRegs) (h₄ : t.hostMem = s.hostMem) (h₅ : t.memory = s.memory) : t.wf = true := by
  rw [wf_iff] at h ⊢
  rwa [h₁, h₂, h₃, h₄, h₅]

theorem wf_wrs {s : State} (d : Die) (i : Nat) (l : List (Fld × Nat)) (h : s.wf = true) : (s.wrs d i l).wf = true := by
  induction l generalizing s with
  | nil => exact h
  | cons e l ih => exact ih (wf_wr _ _ _ _ h)

theorem wf_zeros {s : State} (d : Die) (i : Nat) (l : List Fld) (h : s.wf = true) : (s.zeros d i l).wf = true := wf_wrs d i _ h

theorem wf_inc {s : State} (f : Fld) (d : Die) (i k : Nat) (h : s.wf = true) : (s.inc f d i k).wf = true := wf_wr _ _ _ _ h

theorem wf_bump {s : State} (f : Fld) (d : Die) (i k : Nat) (h : s.wf = true) : (s.bump f d i k).wf = true := wf_wr _ _ _ _ h

theorem wf_raiseAs {s : State} (r b : Nat) (fn : Option Nat) (dest a0 a1 : Nat) (far : Option Nat) (h : s.wf = true) :
    (s.raiseAs r b fn dest a0 a1 far).wf = true := by
  rw [raiseAs_def]
  exact wf_of_stores h rfl rfl rfl rfl rfl

theorem wf_countOps {s : State} (fn : Nat) (h : s.wf = true) : (s.countOps fn).wf = true := by
  unfold countOps
  split
  · exact wf_wr _ _ _ _ h
  · exact wf_wr _ _ _ _ (wf_wr _ _ _ _ h)

theorem wf_enlist {s : State} (op : Nat) (x : Desc) (h : s.wf = true) : (s.enlist op x).wf = true := by
  unfold enlist
  split
  · exact h
  · exact wf_countOps _ (wf_of_stores h rfl rfl rfl rfl rfl)

theorem wf_finish {s : State} (op : Nat) (x : Desc) (st : Status) (result : Nat) (h : s.wf = true) :
    (s.finish op x st result).wf = true := by
  cases hx : s.inflight.any (·.isFor x) with
  | false => rwa [finish_idle op st result hx]
  | true =>
    rw [finish_eq op st result hx]
    have hu : (s.endedOf op x st result).wf = true := wf_of_stores h rfl rfl rfl rfl rfl
    refine wf_countOps _ ?_
    split
    · exact wf_wr _ _ _ _ hu
    · exact hu

/-- One staged value and the live one change places in canonical form. -/
theorem wf_swapOne {s : State} (e : Nat × Nat) (h : s.wf = true) : (s.swapOne e).wf = true := by
  have h := wf_iff.mp h
  exact wf_iff.mpr ⟨Cells.wf_set _ _ h.1, Cells.sorted_put _ _ h.2.1, h.2.2⟩

/-- A swap of staged settings keeps the canonical forms (R58, R59). -/
theorem wf_swapWhere {s : State} (p : Nat → Bool) (h : s.wf = true) : (s.swapWhere p).wf = true := by
  have key (l : List (Nat × Nat)) {s : State} (h : s.wf = true) : (l.foldl swapOne s).wf = true := by
    induction l generalizing s with
    | nil => exact h
    | cons e l ih => exact ih (wf_swapOne e h)
  exact key _ h

/-- Credits of the line traffic keep the canonical forms (R21). -/
theorem wf_lineCredits {s : State} (d : Die) (f : Nat → Nat) (h : s.wf = true) : (s.lineCredits d f).wf = true :=
  wf_wrFree _ _ _ _ h

/-- A squared error counted keeps them too (R187). -/
theorem wf_noiseAdd {s : State} (d : Die) (i lf err : Nat) (h : s.wf = true) : (s.noiseAdd d i lf err).wf = true := by
  unfold noiseAdd
  dsimp only
  split <;> exact wf_wrs _ _ _ h

end Sys2Proof.Machine.State
end

