-- ==== Sys2Proof/Laws/Memory.lean ====
section
/-! SUPPORT. The memories and host memory: a read after a write, the bytes a write leaves, and that every operation that
changes them keeps their canonical form. -/

namespace Sys2Proof.Machine

theorem Memory.wf_set {m : Mem} (a : Nat) (b : Byte) (h : Memory.wf m = true) :
    Memory.wf (Cells.set (fun _ => (0 : Byte)) a b m) = true := Cells.wf_set a b h

namespace State

/-! Host memory. -/

theorem toHost_eq (s : State) (a : Nat) (l : List Byte) : s.toHost a l = { s with hostMem := (s.toHost a l).hostMem } := by
  induction l generalizing s a with
  | nil => rfl
  | cons b l ih => simp only [toHost]; rw [ih]

/-- Bytes written to host memory read back; every other byte stays. -/
theorem hostByte_toHost (s : State) (a : Nat) (l : List Byte) (x : Nat) :
    (s.toHost a l).hostByte x = if a ≤ x ∧ x < a + l.length then l.getD (x - a) 0 else s.hostByte x := by
  induction l generalizing s a with
  | nil => simp [toHost]
  | cons b l ih =>
    simp only [toHost]
    rw [ih]
    simp only [hostByte, Cells.get_set, List.length_cons]
    by_cases h : a = x
    · subst h; simp
    · by_cases h1 : a + 1 ≤ x ∧ x < a + 1 + l.length
      · rw [if_pos h1, if_pos (by omega), show x - a = (x - (a + 1)) + 1 by omega, List.getD_cons_succ]
      · rw [if_neg h1, if_neg h, if_neg (by omega)]

theorem wf_toHost {s : State} (a : Nat) (l : List Byte) (h : s.wf = true) : (s.toHost a l).wf = true := by
  induction l generalizing s a with
  | nil => exact h
  | cons b l ih =>
    have h := wf_iff.mp h
    exact ih (a + 1) (wf_iff.mpr ⟨h.1, h.2.1, h.2.2.1, Memory.wf_set a b h.2.2.2.1, h.2.2.2.2⟩)

/-! The memories of the dies. -/

theorem storeBytes_eq (s : State) (x a : Nat) (l : List Byte) :
    s.storeBytes x a l = { s with memory := (s.storeBytes x a l).memory } := by
  induction l generalizing s a with
  | nil => rfl
  | cons b l ih => simp only [storeBytes]; rw [ih]

/-- Bytes stored in a memory read back; every other byte of every memory stays. -/
theorem memByte_storeBytes (s : State) (x a : Nat) (l : List Byte) (y b : Nat) (ha : a + l.length ≤ 2 ^ 34) (hb : b < 2 ^ 34) :
    (s.storeBytes x a l).memByte y b = if y = x ∧ a ≤ b ∧ b < a + l.length then l.getD (b - a) 0 else s.memByte y b := by
  induction l generalizing s a with
  | nil => simp only [storeBytes, List.length_nil]; rw [if_neg (by omega)]
  | cons v l ih =>
    simp only [List.length_cons] at ha
    simp only [storeBytes]
    rw [ih _ _ (by omega)]
    simp only [memByte, Cells.get_set, List.length_cons]
    by_cases h : x * 2 ^ 34 + a = y * 2 ^ 34 + b
    · have hxy : y = x ∧ a = b := by omega
      obtain ⟨rfl, rfl⟩ := hxy
      simp
    · by_cases h1 : y = x ∧ a + 1 ≤ b ∧ b < a + 1 + l.length
      · rw [if_pos h1, if_pos (by omega), show b - a = (b - (a + 1)) + 1 by omega, List.getD_cons_succ]
      · have hn : ¬(y = x ∧ a ≤ b ∧ b < a + (l.length + 1)) := by rintro ⟨rfl, h2, h3⟩; exact h1 ⟨rfl, by omega, by omega⟩
        rw [if_neg h1, if_neg h, if_neg hn]

theorem wf_storeBytes {s : State} (x a : Nat) (l : List Byte) (h : s.wf = true) : (s.storeBytes x a l).wf = true := by
  induction l generalizing s a with
  | nil => exact h
  | cons b l ih =>
    have h := wf_iff.mp h
    exact ih (a + 1) (wf_iff.mpr ⟨h.1, h.2.1, h.2.2.1, h.2.2.2.1, Memory.wf_set _ b h.2.2.2.2⟩)

theorem wf_writeWord {s : State} (x : Nat) (g : MemShape) (w off : Nat) (l : List Byte) (h : s.wf = true) :
    (s.writeWord x g w off l).wf = true := by
  have h := wf_iff.mp (wf_storeBytes x (w * g.bytes + off) l h)
  exact wf_iff.mpr h

/-- A memory that is lost keeps its form. -/
theorem wf_loseMem {s : State} (t : Die) (mem : Nat) (h : s.wf = true) : (s.loseMem t mem).wf = true := by
  have h := wf_iff.mp h
  exact wf_iff.mpr ⟨h.1, h.2.1, h.2.2.1, h.2.2.2.1, Cells.wf_filter _ h.2.2.2.2⟩

/-- Fields at their reset values: what is left keeps its form. -/
theorem wf_loseWhere {s : State} (p : Nat → Bool) (h : s.wf = true) : (s.loseWhere p).wf = true := by
  have h := wf_iff.mp h
  exact wf_iff.mpr ⟨Cells.wf_filter _ h.1, Cells.sorted_filter _ h.2.1, Cells.sorted_filter _ h.2.2.1, h.2.2.2⟩

/-- The state after power-on has every store in its canonical form. -/
theorem wf_reset : State.reset.wf = true := by decide

end State
end Sys2Proof.Machine
end

