-- ==== Sys2Proof/WellFormed.lean ====
section
/-! DEFINITION. Which operands a command can have: bounds that its operand types do not carry. The meanings are total on
ill-formed commands too. -/

namespace Sys2Proof

/-- The descriptor a command carries. -/
def Instr.desc? : Instr → Option Desc
  | .oeSpi d | .shiftCommit d | .kekLoad d | .keyLoad d | .keyZero d | .pageBind d | .pageUnbind d | .streamBind d
  | .streamStart d | .streamStop d | .laEncrypt d | .laDecrypt d | .nop d | .ringCreate d | .ringDestroy d | .ringBind d
  | .vfConfig d | .tableLoad d _ | .memRead d _ _ | .memWrite d _ _ _ _ | .marchRun d | .pwrReq d | .reset d | .fwUpdate d
  | .mailbox d | .capture d | .assaySnap d | .surveyAcq d | .auxSample d => some d
  | _ => none

/-- A descriptor that some ring slot can hold: a ring ID of 18 bits and a slot of at most 2^12 (R476, R478). -/
def Desc.wf (d : Desc) : Bool := decide (d.ring < 2 ^ 18) && decide (d.slot < 2 ^ 16)

/-- A write that the host can make (R503, R653): some bytes, and a vector of a function's table. -/
def WriteTarget.wf : WriteTarget → Bool
  | .msixMask _ vec => decide (vec < 512)
  | .bar0 _ | .vfBar0 _ _ | .symbolRate | .sriov => true

/-- The operands of a command lie in the ranges the manual gives them. -/
def Instr.wf (i : Instr) : Bool :=
  (i.desc?.all Desc.wf) &&
  match i with
  | .registerWrite t data => t.wf && decide (0 < data.length) && decide (data.length ≤ 4096)
  | .ovrSfLatch _ peaks clips rx => peaks.length == 4 && clips.length == 4 && rx.rms.length == 4
  | .positionComplete _ _ _ syms _ => syms.length == 4095
  | .tableLoad _ words => decide (words.length ≤ 4096)
  | .xcDataBlock _ _ _ bytes => bytes.length == 15
  | .partialMemoryWrite _ _ _ _ bytes _ => decide (0 < bytes.length) && decide (bytes.length ≤ 64)
  | .freqMeasureUpdate offs => offs.length == 14
  | .assayBatch vals => decide (vals.length ≤ 16)
  | .frameHunt _ _ looks => looks.length == 4
  | .encryptFrame _ _ _ data _ _ | .decryptFrame _ _ _ _ data _ _ => data.length % 15232 == 0 && !data.isEmpty
  | _ => true

end Sys2Proof
end

