-- ==== Sys2Proof/Tests/Slice0.lean ====
section
/-! SUPPORT. The model's own tests. `illformed_…`: a term that each check of `Instr.wf` refuses. `met_<Obligation>…`: a concrete
state and operands that meet the hypotheses of each clause of an obligation, with the main effect that the rule gives on
them. Expected values come from the rules named in the obligation. -/

namespace Sys2Proof.Tests
set_option Elab.async false
open Sys2Proof Sys2Proof.Machine

/-- Fields written on a state. -/
def put (s : State) (l : List (Fld × Die × Nat × Nat)) : State := l.foldl (fun s e => s.wr e.1 e.2.1 e.2.2.1 e.2.2.2) s

/-- The package up: firmware ready, the PCI Express link and every winze link up; then some fields. -/
def up (l : List (Fld × Die × Nat × Nat)) : State :=
  put State.reset ([(.hostFwReady, .m0, 0, 1), (.pcieUp, .m0, 0, 1)] ++
    [Die.m0, .m1, .f0, .f1, .f2, .f3, .b0, .b1].flatMap (fun d => (List.range 4).map fun p => (.winzLinkUp, d, p, 1)) ++ l)

/-- A test over one state. -/
def at_ (s : State) (p : State → Bool) : Bool := p s

/-- A step that answers a next state with a property. -/
def ok (o : Host.Outcome State Fault Refusal) (p : State → Bool) : Bool :=
  match o with
  | .next t => p t
  | .fault _ | .refused _ => false

/-- An access that finds a word. -/
def isWord : Access → Bool
  | .word _ _ => true
  | _ => false

/-- The word of a field answers. -/
def answers (s : State) (d : Die) (f : Fld) (i : Nat) : Bool := isWord (s.dieAccess d (f.offsetAt i))

/-- A descriptor of ring 0 for a target, with its sf, arg0 and operand bytes from byte 24 up as one number. -/
def dsc (target arg0 ops : Nat) (sf : Nat := 0) (off : Nat := 0) (ring : Nat := 0) (fn : Fin 65 := 0) (fence : Bool := false) : Desc :=
  ⟨ring, 3, fn, fence, true, 0, BitVec.ofNat 16 target, 7, BitVec.ofNat 64 sf, BitVec.ofNat 32 off, BitVec.ofNat 32 arg0,
    BitVec.ofNat 320 ops⟩

/-- A target word: die code and domain. -/
def tgt (d : Die) (dom : Nat := 0) : Nat := d.code * 4096 + dom * 64

/-- A state with an admin submission ring 0, its completion ring 1, a lookaside ring 6 of class 6 and an event ring 2. -/
def hosted (s : State) : State :=
  { s with rings := [(0, Ring.new 0 0 6 0x1000 1 0 true 0 0 0 0), (1, Ring.new 0 1 6 0x2000 0 0 true 0 0 0 0),
    (2, Ring.new 0 2 6 0x3000 0 0 true 0 0 0 0), (6, Ring.new 0 6 6 0x4000 1 0 true 0 0 0 0)] }

/-- `State.Accepts` as a computation. -/
def acceptsB (s : State) (op : Nat) (d : Desc) : Bool :=
  !(s.enlist op d).fenced d && !(s.enlist op d).waitsTurn op d && s.on .hostFwReady && !Desc.headerBad op d &&
    match opcodeRow op with
    | none => false
    | some row => (match Cells.find d.ring s.rings with
        | none => true
        | some r => r.cls == row.1) && (!row.2 || d.fn.val == 0)

theorem accepts_of {s : State} {op : Nat} {d : Desc} (h : acceptsB s op d = true) : s.Accepts op d := by
  unfold acceptsB at h
  simp only [Bool.and_eq_true, Bool.not_eq_true'] at h
  obtain ⟨⟨⟨⟨h1, h0⟩, h2⟩, h3⟩, h4⟩ := h
  refine ⟨h1, h0, h2, h3, ?_⟩
  split at h4
  · cases h4
  · rename_i row hrow
    refine ⟨row, hrow, fun r hr => ?_, fun hp => ?_⟩
    · rw [hr] at h4
      simp only [Bool.and_eq_true, beq_iff_eq] at h4
      exact h4.1
    · simp only [Bool.and_eq_true, hp, Bool.not_true, Bool.false_or, beq_iff_eq] at h4
      exact h4.2

/-- `State.Serves` as a computation. -/
def servesB (s : State) (t : Die) (dom : Nat) : Bool :=
  s.has t && !s.domInReset t dom && !(s.domDead t t.anchor && s.on .plannedDown t) && s.reach t && decide (s.domSt t dom ≤ 1)

theorem serves_of {s : State} {t : Die} {dom : Nat} (h : servesB s t dom = true) : s.Serves t dom := by
  unfold servesB at h
  simp only [Bool.and_eq_true, Bool.not_eq_true', decide_eq_true_eq] at h
  exact ⟨h.1.1.1.1, h.1.1.1.2, h.1.1.2, h.1.2, h.2⟩

/-- The state has no operation in flight for a descriptor and holds its completion with a status last. -/
def ended (t : State) (d : Desc) (st : Status) (result : Nat := 0) : Bool :=
  !(t.inflight.any (·.isFor d)) && (t.compl.getLast?.any fun c => c.status == st.code && c.result == result && c.tag == d.tag.toNat)

/-! Ill-formed terms. -/

theorem illformed_descriptor_ring : (Instr.nop { dsc 0 0 0 with ring := 2 ^ 18 }).wf = false := by decide +kernel
theorem illformed_descriptor_slot : (Instr.nop { dsc 0 0 0 with slot := 2 ^ 16 }).wf = false := by decide +kernel
theorem illformed_vector : (Instr.registerWrite (.msixMask 0 512) [1]).wf = false := by decide +kernel
theorem illformed_write_no_data : (Instr.registerWrite (.bar0 0) []).wf = false := by decide +kernel
theorem illformed_write_data (l : List Byte) (h : l.length = 4097) : (Instr.registerWrite (.bar0 0) l).wf = false := by
  simp [Instr.wf, h]
/-- A receiver that reports nothing of note: no training block, no error power. -/
def quietRx (rms : List (BitVec 8) := [0, 0, 0, 0]) : RxReport := ⟨rms, none, false, false, 0⟩

theorem illformed_latch : (Instr.ovrSfLatch 0 [0, 0, 0] [0, 0, 0, 0] quietRx).wf = false ∧
    (Instr.ovrSfLatch 0 [0, 0, 0, 0] [0, 0, 0] quietRx).wf = false ∧
    (Instr.ovrSfLatch 0 [0, 0, 0, 0] [0, 0, 0, 0] (quietRx [0])).wf = false := by decide +kernel
theorem illformed_position (l : List RxSym) (h : l.length = 4094) : (Instr.positionComplete 0 0 0 l 0).wf = false := by
  simp [Instr.wf, h]
theorem illformed_frames : (Instr.encryptFrame 0 0 0 [0] true 0).wf = false ∧
    (Instr.decryptFrame 0 0 0 none [] true 0).wf = false := by decide +kernel
theorem illformed_table_load (l : List Word) (h : l.length = 4097) : (Instr.tableLoad (dsc 0 0 0) l).wf = false := by
  simp [Instr.wf, h]
theorem illformed_xc_data : (Instr.xcDataBlock 0 0 true (List.replicate 14 0)).wf = false := by decide +kernel
theorem illformed_partial_write : (Instr.partialMemoryWrite .m0 0 0 0 [] none).wf = false ∧
    (Instr.partialMemoryWrite .m0 0 0 0 (List.replicate 65 0) none).wf = false := by decide +kernel
theorem illformed_offsets : (Instr.freqMeasureUpdate (List.replicate 13 0)).wf = false := by decide +kernel
theorem illformed_batch : (Instr.assayBatch (List.replicate 17 0)).wf = false := by decide +kernel
theorem illformed_hunt : (Instr.frameHunt 0 0 [[], [], []]).wf = false := by decide +kernel
theorem wellformed_nop : (Instr.nop (dsc 0 0 0)).wf = true := by decide +kernel

/-! Register accesses. -/

theorem met_DeadAccessAnsweredCountedAnnounced :
    at_ State.reset (fun s => s.access 0x1000000 = .blockOff (blkId .f0 Dom.winz) &&
      ok (exec (.blockOffAccess 0x1000000 false) s) (fun t => t.readData = 0xDEAD0FF0 && t.rd .accDeadAccesses = 1)) &&
    at_ (up [(.winzLinkUp, .m0, 0, 0)]) (fun s => s.access 0x1000000 = .unreachable .f0 &&
      ok (exec (.dieUnreachableAccess 0x1000000 true) s) (fun t => t.readData = 0 && t.rd .accDeadAccesses = 1)) := by decide +kernel

theorem met_ClearAllClearsItsGroupOnly :
    at_ (up [(.winzCrcErrors, .f3, 0, 9), (.oduBipErrors, .m1, 511, 5)]) (fun s =>
      answers s .f3 .winzClearAll 0 && ok (exec (.winzCntClr .f3 0) s) (fun t => t.rd .winzCrcErrors .f3 0 = 0) &&
      answers s .m1 .slipClearAll 1 && answers s .m0 .decClearAll 0 && answers s .m1 .frmClearAll 1 &&
      answers s .m1 .oduClearAll 511 && ok (exec (.oduCntClr 1 511) s) (fun t => t.rd .oduBipErrors .m1 511 = 0)) := by decide +kernel

theorem met_LatchingReadsLatchAndPeaksRestart :
    at_ (up [(.decUnfinished, .m0, 0, 3), (.decUnfinishedHwm, .m0, 0, 9)]) (fun s =>
      answers s .m1 .farSfLo 1 && answers s .m0 .timPpsTallyOff 0 && answers s .m0 .decUnfinishedHwm 0 &&
      s.rd .decUnfinished .m0 0 < 2 ^ 11 && s.has .b1 && s.hasCarrier 3 &&
      ok (exec (.unfinishedHwmRead 0 0) s) (fun t => t.rd .decUnfinishedHwm .m0 0 = 3) &&
      Die.hasQueue .m0 0 && answers s .m0 .queueOccupancy 0 &&
      ok (exec (.queueHwmRead .m0 0 4 6) s) (fun t => t.rd .queueHwm .m0 0 = 4 && t.readData = 4 + 65536 * 6)) := by decide +kernel

/-! Winze links. -/

theorem met_WinzeErrorsLinkLossAndReturn_errors :
    at_ (up [(.winzLaneErrs, .m0, 5, 7)]) (fun s => s.on .winzLinkUp .m0 0 && s.rd .winzLaneSf .m0 5 = s.sf &&
      ok (exec (.winzCrcError .m0 0 4) s) (fun t => t.rd .winzCrcErrors .m0 0 = 1 && !t.on .winzDegraded .m0 0) &&
      ok (exec (.winzCrcError .m0 0 5) s) (fun t => t.rd .winzSparesUsed .m0 0 = 1 && t.on .winzDegraded .m0 0) &&
      at_ (s.wr .winzSparesUsed .m0 0 8) (fun s => ok (exec (.winzCrcError .m0 0 5) s) (fun t => t.on .winzSpareExhausted .m0 0))) &&
    at_ { up [(.incarnation, .f0, 63, 2)] with requests := [⟨0, 3, .f0, 63, 2⟩] } (fun s => farPort .m0 0 = some (.f0, 0) &&
      ok (exec (.staleReply .m0 0 1 0 3) s) (fun t => t.rd .winzStaleReplies .m0 0 = 1) &&
      ok (exec (.staleReply .m0 0 2 0 4) s) (fun t => t.rd .winzStaleReplies .m0 0 = 1) &&
      ok (exec (.staleReply .m0 0 2 0 3) s) (fun t => t.rd .winzStaleReplies .m0 0 = 0)) := by decide +kernel

theorem met_WinzeErrorsLinkLossAndReturn_links :
    at_ (up []) (fun s => farPort .m0 2 = some (.m1, 2) && s.on .winzLinkUp .m0 2 &&
      ok (exec (.linkDown .m0 2) { s with inflight := [⟨0x10, dsc (tgt .f2) 0 0⟩, ⟨0x10, { dsc (tgt .f0) 0 0 with slot := 4 }⟩] })
        (fun t => !t.on .winzLinkUp .m1 2 && t.inflight.length = 1)) &&
    at_ (put State.reset [(.winzLinkUp, .m0, 2, 0), (.hostFwReady, .m0, 0, 1)]) (fun s => !s.on .winzLinkUp .m0 2 && s.has .m1 &&
      !s.on .plannedDown .m1 && !s.on .tripped .m1 && !s.dieInReset .m1 && !s.domDead .m1 Die.m1.anchor &&
      ok (exec (.linkRetrainDone .m0 2) s) (fun t => t.on .winzLinkUp .m0 2 && t.on .winzLinkUp .m1 2)) := by decide +kernel

/-! Converters and attach sites. -/

theorem met_CalibrationOverrangeAndSuperframeLatches_windows :
    at_ { up [(.calActive, .f1, 2, 1), (.adcCalUnit, .f1, 2, 64)] with tally := 16 * sfLen } (fun s =>
      s.adcOn 1 && s.sf % 16 = 0 && s.on .calActive .f1 2 && s.rd .calStart .f1 2 + 16 ≤ s.sf && !s.on .calDiscarded .f1 2 &&
      ok (exec (.calWindowEnd 1 2 true) s) (fun t => t.rd .adcCalUnit .f1 2 = 0 && t.rd .adcCalRotations .f1 2 = 1) &&
      ok (exec (.calWindowEnd 1 2 false) s) (fun t => t.rd .adcCalUnit .f1 2 = 64 && t.on .calPaused .f1 2) &&
      s.calTouches .f1 2 0 && ok (exec (.adcOverrange 1 2 0) s) (fun t => t.on .calDiscarded .f1 2 && t.rd .adcCalDiscards .f1 2 = 1) &&
      !s.calTouches .f1 2 1 && ok (exec (.adcOverrange 1 2 1) s) (fun t => !t.on .calDiscarded .f1 2 && t.rd .ovrCount .f1 2 = 1)) := by
  decide +kernel

theorem met_CalibrationOverrangeAndSuperframeLatches_latches :
    at_ (up [(.ovrCount, .f0, 3, 2), (.adcCalUnit, .f0, 1, 9), (.acqLosThresh, .f0, 0, 4)]) (fun s =>
      s.hasCarrier 0 && !s.on .fgCal .f0 && !s.on .acqRestartPend .f0 &&
      ok (exec (.ovrSfLatch 0 [1, 2, 3, 128] [5, 6, 7, 8] (quietRx [4, 4, 4, 3])) s) (fun t =>
        t.rd .adcOvrSfCount .f0 3 = 2 && t.rd .adcOvrSfTotal .f0 3 = 1 && t.rd .adcOvrSfTotal .f0 2 = 0 && t.rd .dacClipSf .f0 3 = 8 &&
        t.rd .losLow .f0 = 1) &&
      ok (exec (.ovrSfLatch 0 [1, 2, 3, 128] [5, 6, 7, 8] (quietRx [4, 4, 4, 4])) s) (fun t => t.rd .losHigh .f0 = 1) &&
      at_ (put s [(.fgCal, .f0, 0, 1), (.dacPause, .f0, 0, 1)]) fun s => s.on .fgCal .f0 && !s.on .adcCalHalted .f0 1 &&
        ok (exec (.foregroundCalDone 0) s) (fun t => !t.on .dacPause .f0 && t.rd .adcCalUnit .f0 1 = 0)) := by decide +kernel

theorem met_TiaGainRequestsStepWithinBounds :
    at_ (up [(.adcTiaReqEn, .f2, 0, 1), (.adcTiaUpEn, .f2, 0, 1), (.ovrRun, .f2, 1, 4), (.sitePresent, .f2, 0, 1), (.tiaMin, .f2, 0, 10),
      (.tiaMax, .f2, 0, 200), (.tiaStep, .f2, 0, 4), (.adcTiaGainShadow, .f2, 1, 11), (.adcTiaGainShadow, .f2, 0, 10),
      (.ovrRun, .f2, 0, 4), (.tiaQuiet, .f2, 3, 0xFFFF), (.adcTiaGainShadow, .f2, 3, 199), (.tiaHold, .f2, 2, 1)]) (fun s =>
      s.on .adcTiaReqEn .f2 && 4 ≤ s.rd .ovrRun .f2 1 && !s.on .tiaHold .f2 1 && s.on .sitePresent .f2 &&
      ok (exec (.tiaGainDown 2 1) s) (fun t => t.spi = [⟨.f2, .tia 1 false, []⟩]) && !s.on .adcTiaAtMin .f2 0 &&
      ok (exec (.tiaGainDown 2 0) s) (fun t => t.on .adcTiaAtMin .f2 0 && t.spi = []) &&
      s.rd .adcTiaUpSf .f2 ≤ s.rd .tiaQuiet .f2 3 && s.rd .adcTiaGainShadow .f2 3 < s.rd .tiaMax .f2 &&
      ok (exec (.tiaGainUp 2 3) s) (fun t => t.spi = [⟨.f2, .tia 3 true, []⟩]) && s.rd .tiaHoldUntil .f2 2 ≤ s.sf &&
      ok (exec (.tiaHoldoffEnd 2 2) s) (fun t => !t.on .tiaHold .f2 2) &&
      s.tiaValue .f2 1 false = 10 && s.tiaValue .f2 3 true = 200) := by decide +kernel

theorem met_SpiTransactionsQueueStartAndComplete_host :
    at_ (hosted (up [(.sitePresent, .f0, 0, 1)])) (fun s =>
      let d := dsc (tgt .f0 Dom.auxm) 0x88 0xFF
      d.die = some .f0 && d.target.toNat % 4096 = Dom.auxm * 64 && d.clearFrom 32 && acceptsB s 0x18 d && servesB s .f0 Dom.auxm &&
      s.domSt .f0 Dom.auxm = 0 && s.pwr = none &&
      ok (exec (.oeSpi d) s) (fun t => t.spi = [⟨.f0, .host d, []⟩] && t.inflight = [⟨0x18, d⟩]) &&
      at_ (s.wr .sitePresent .f0 0 0) (fun s => acceptsB s 0x18 d && ok (exec (.oeSpi d) s) (fun t => ended t d .targetUnpowered)) &&
      ok (exec (.spiTransactionDone 0 0x1122334455667788) { s with spiActive := [⟨.f0, .host d, []⟩], inflight := [⟨0x18, d⟩] })
        (fun t => ended t d .ok 0x1122334455667788)) := by decide +kernel

theorem met_SpiTransactionsQueueStartAndComplete_controller :
    at_ { up [(.sitePresent, .f0, 0, 1), (.spiCmdWr, .f0, 0, 2), (.tiaAddrBase, .f0, 0, 0x40), (.tiaMax, .f0, 0, 255), (.tiaStep, .f0, 0, 1),
      (.adcTiaGainShadow, .f0, 1, 6)] with spi := [⟨.f0, .trim true, []⟩, ⟨.f0, .tia 1 true, []⟩] } (fun s =>
      s.spiActive.any (·.die == .f0) = false && s.on .sitePresent .f0 && s.domUp .f0 Dom.auxm &&
      nextSpi .f0 s.spi = some ⟨.f0, .tia 1 true, []⟩ &&
      ok (exec (.spiTransactionStart 0) s) (fun t => t.spiActive = [⟨.f0, .tia 1 true, [2, 0x41, 7]⟩] && t.spi = [⟨.f0, .trim true, []⟩])) &&
    at_ { up [] with spiActive := [⟨.f0, .tia 1 true, [2, 0x41, 7]⟩] } (fun s =>
      ok (exec (.spiTransactionDone 0 0) s) (fun t => t.rd .adcTiaGainShadow .f0 1 = 7 && t.spiActive = [])) &&
    at_ { up [] with spiActive := [⟨.f0, .trim true, [2, 0, 5]⟩] } (fun s =>
      ok (exec (.spiTransactionDone 0 0) s) (fun t => t.rd .ptrimShadow .f0 0 = 5 && t.spiActive = [])) := by decide +kernel

theorem met_SiteTrimPresenceFaultReleaseAndBiasChips_trim :
    at_ (up [(.ptrimEn, .f1, 0, 1), (.sitePresent, .f1, 0, 1), (.ptrimShadow, .f1, 0, 254), (.ptrimTarget, .f1, 0, 100),
      (.ptrimDead, .f1, 0, 1), (.trimCount, .f1, 0, 2)]) (fun s => s.hasCarrier 1 && s.sf % 256 = 0 &&
      at_ (s.wr .trimSum .f1 0 183) (fun s => ok (exec (.powerTrim 1) s) (fun t => t.spi = [⟨.f1, .trim true, []⟩])) &&
      at_ (s.wr .trimSum .f1 0 184) (fun s => ok (exec (.powerTrim 1) s) (fun t => t.spi = [])) &&
      at_ (s.wr .trimSum .f1 0 217) (fun s => ok (exec (.powerTrim 1) s) (fun t => t.spi = [⟨.f1, .trim false, []⟩])) &&
      at_ (put s [(.trimSum, .f1, 0, 183), (.ptrimShadow, .f1, 0, 255)]) fun s =>
        ok (exec (.powerTrim 1) s) (fun t => t.on .sitePtrimRail .f1)) := by decide +kernel

theorem met_SiteTrimPresenceFaultReleaseAndBiasChips_site :
    at_ (up [(.sitePresent, .f1, 0, 1), (.dacFaultAutodis, .f1, 0, 1), (.siteTxdisState, .f1, 0, 1), (.dacTxEnable, .f1, 0, 1),
      (.dacSent, .f1, 0, 64), (.dacOeTxdisForce, .f1, 0, 0)]) (fun s =>
      ok (exec (.sitePresenceChange 1 false) s) (fun t => !t.on .sitePresent .f1 && t.rd .siteTxdisCause .f1 = 1) &&
      !s.on .siteFault .f1 && ok (exec (.oeFault 1) s) (fun t => t.on .siteFaultSticky .f1 && t.rd .siteTxdisCause .f1 = 2) &&
      at_ (s.wr .siteFault .f1 0 1) (fun s => ok (exec (.oeFaultEnd 1) s) (fun t => !t.on .siteFault .f1)) &&
      s.txdisCause .f1 = 0 && ok (exec (.txdisRelease 1) s) (fun t => !t.on .siteTxdisState .f1) &&
      at_ (s.wr .sitePresent .f1 0 0) (fun s => ok (exec (.sitePresenceChange 1 true) s) (fun t => t.on .sitePresent .f1))) := by decide +kernel

theorem met_SiteTrimPresenceFaultReleaseAndBiasChips_chips :
    at_ (up [(.loopState, .f1, 1, 2), (.fwRunning, .f1, 0, 1), (.biasChip, .f1, 1, 2), (.loopState, .f1, 0, 1), (.sitePresent, .f1, 0, 1)])
      (fun s => s.on .biasModePend .f1 1 = false && s.sf % max 1 (s.rd .loopChipSf .f1 1) = 0 && s.rd .biasChipAt .f1 1 ≠ s.sf + 1 &&
        s.loopsRun .f1 && !s.on .biasWait .f1 1 && s.rd .biasGood .f1 1 = 0 &&
        ok (exec (.biasChipBoundary 1 1) s) (fun t => t.rd .biasChip .f1 1 = 3 && t.on .biasVoid .f1 1) &&
        ok (exec (.biasChipBoundary 1 0) s) (fun t => t = s)) := by decide +kernel

/-! Acquisition, dispersion and slips. -/

/-- Carrier 3 in an acquisition state, stamped 0. -/
def acqIn (st : Nat) (l : List (Fld × Die × Nat × Nat)) : State := up ((.acqState, .f3, 0, st) :: l)

theorem met_AcquisitionAdvancesStampedToTrack_search :
    at_ { acqIn 1 [(.sigRun, .f3, 0, 256)] with tally := 77 } (fun s => !s.on .acqLos .f3 && !s.warmOpen 3 && 256 ≤ s.rd .sigRun .f3 &&
      ok (exec (.signalDetected 3) s) (fun t => t.acq 3 = 2 && t.rd .acqStamp .f3 = 77)) &&
    at_ { acqIn 2 [] with tally := 1408 * sfLen } (fun s => s.rd .cdcCdMode .f3 ≠ 2 &&
      searchSf (coarseTrials (s.cdRange 3).1 (s.cdRange 3).2) * sfLen ≤ s.acqFor 3 && searchFinds (s.cdRange 3) 500 &&
      !searchFinds (s.cdRange 3) 32001 &&
      ok (exec (.cdScanDone 3 500) s) (fun t => t.acq 3 = 3 && t.rd .cdcCdEst .f3 = 500) &&
      ok (exec (.cdScanDone 3 500) { s with tally := 1408 * sfLen - 1 }) (fun t => t.acq 3 = 2)) &&
    at_ (acqIn 2 [(.cdcCdMode, .f3, 0, 2), (.cdcCdSet, .f3, 0, 9)]) (fun s =>
      ok (exec (.cdScanDone 3 500) s) (fun t => t.rd .cdcCdEst .f3 = 9)) := by decide +kernel

theorem met_AcquisitionAdvancesStampedToTrack_locks :
    at_ (acqIn 3 []) (fun s => s.freqInRange 3 2000 && !s.freqInRange 3 2001 &&
      ok (exec (.freqAcqDone 3 2000) s) (fun t => t.acq 3 = 4 && t.rd .crFreqOffset .f3 = 2000)) &&
    at_ (acqIn 4 [(.errLowRun, .f3, 0, 512)]) (fun s => 512 ≤ s.rd .errLowRun .f3 &&
      ok (exec (.eqConverged 3 (-1000)) s) (fun t => t.acq 3 = 5) && ok (exec (.eqConverged 3 1001) s) (fun t => t.acq 3 = 4)) &&
    at_ (acqIn 5 [(.trainRun, .f3, 0, 4), (.rxSubcarriers, .f3, 0, 2), (.rxRolloff, .f3, 0, 20)]) (fun s =>
      s.rd .rxSubcarriers .f3 = 2 && s.rd .rxRolloff .f3 = 20 &&
      ok (exec (.trainLockDone 3 2 20) s) (fun t => t.acq 3 = 6) && ok (exec (.trainLockDone 3 2 21) s) (fun t => t.acq 3 = 5)) &&
    at_ (acqIn 6 [(.cleanRun, .f3, 0, 64)]) (fun s => 64 ≤ s.rd .cleanRun .f3 &&
      ok (exec (.phaseLockDone 3) s) (fun t => t.acq 3 = 7 && t.on .decChainRunning .m1 1)) &&
    ok (exec (.phaseLockDone 3) (acqIn 5 [])) (fun t => t.acq 3 = 5) := by decide +kernel

theorem met_AcquisitionFailuresAndLossesReturnToDetect :
    at_ { acqIn 6 [(.losLow, .f3, 0, 16)] with tally := 1024 * sfLen } (fun s =>
      ok (exec (.acqFail 3) s) (fun t => t.acq 3 = 1 && t.rd .acqLastFailState .f3 = 6 && t.rd .acqFailures .f3 = 1) &&
      ok (exec (.acqFail 3) { s with tally := 1024 * sfLen - 1 }) (fun t => t.acq 3 = 6) && 16 ≤ s.rd .losLow .f3 &&
      ok (exec (.losSet 3) s) (fun t => t.on .acqLos .f3 && t.rd .acqFailures .f3 = 1) &&
      ok (exec (.losSet 3) (s.wr .acqState .f3 0 1)) (fun t => t.on .acqLos .f3 && t.rd .acqFailures .f3 = 0) &&
      ok (exec (.losSet 3) (s.wr .acqState .f3 0 7)) (fun t => t.acq 3 = 1 && t.on .acqLockLost .f3)) &&
    at_ (acqIn 1 [(.acqLos, .f3, 0, 1), (.losHigh, .f3, 0, 16)]) (fun s => 16 ≤ s.rd .losHigh .f3 && !s.warmOpen 3 &&
      ok (exec (.losClear 3) s) (fun t => !t.on .acqLos .f3 && t.acq 3 = 1) &&
      at_ (s.wr .warmUntil .f3 0 1) fun s => s.warmOpen 3 && ok (exec (.losClear 3) s) (fun t => t.acq 3 = 5 && t.on .acqWarm .f3)) &&
    at_ (acqIn 7 [(.acqRestartPend, .f3, 0, 1), (.cdcValue, .f3, 0, 5)]) (fun s => s.hasCarrier 3 && answers s .f3 .acqRestart 0 &&
      ok (exec (.acqRestart 3) (s.wr .acqRestartPend .f3 0 0)) (fun t => t.on .acqRestartPend .f3) &&
      ok (exec (.ovrSfLatch 3 [0, 0, 0, 0] [0, 0, 0, 0] quietRx) s) (fun t =>
        t.acq 3 = 1 && t.rd .cdcValue .f3 = 0 && !t.on .acqRestartPend .f3 && t.events = [])) &&
    at_ (acqIn 7 [(.trainMiss, .f3, 0, 8), (.acqLos, .f3, 0, 1), (.errHighRun, .f3, 0, 16), (.crFreqOffset, .f3, 0, 2401)]) (fun s =>
      s.sf + 64 * 255 < 2 ^ 48 && s.rd .acqWarmWindow .f3 ≤ 255 && 2400 < (s.rdInt .crFreqOffset .f3).natAbs &&
      [LockLoss.los, .training, .freq, .divergence].all fun c =>
        ok (exec (.rxLockLost 3 c) s) (fun t => t.acq 3 = 1 && t.on .acqLockLost .f3) &&
        ok (exec (.rxLockLost 3 c) (acqIn 7 [(.trainMiss, .f3, 0, 7), (.errHighRun, .f3, 0, 15), (.crFreqOffset, .f3, 0, 2400)]))
          (fun t => t.acq 3 = 7)) := by decide +kernel

theorem met_DispersionUpdatesAndSlipsAreConfirmed :
    at_ { acqIn 5 [(.cdcValue, .f3, 0, 0xFFFF)] with tally := 256 * sfLen } (fun s =>
      3 ≤ s.acq 3 && s.rd .cdUpdSf .f3 + 256 ≤ s.sf && ok (exec (.cdEstUpdate 3 1) s) (fun t => t.rd .cdcCdEst .f3 = 0) &&
      ok (exec (.cdEstUpdate 3 3) (s.wr .eqFrozen .f3 0 1)) (fun t => t.rd .cdcCdEst .f3 = 0 && t.rd .cdUpdSf .f3 = 256)) &&
    at_ (acqIn 7 [(.crDdWin, .f3, 0, 1), (.crSlipDetEn, .f3, 0, 1), (.rxSubcarriers, .f3, 0, 1), (.candOn, .f3, 17, 1),
      (.candK, .f3, 17, 3), (.candStart, .f3, 17, 90)]) (fun s => streamIx 1 1 = 17 && streamIx 0 1 = 1 && s.subcarriers 3 = 2 &&
      ok (exec (.slipCandidate 3 0 1 0x4000 99) s) (fun t => t.on .candOn .f3 1 && t.rd .candK .f3 1 = 1 && t.rd .candStart .f3 1 = 99) &&
      ok (exec (.slipCandidate 3 1 1 0x8000 99) s) (fun t => t.rd .candK .f3 17 = 1) &&
      ok (exec (.slipCandidate 3 0 1 0x2000 99) s) (fun t => !t.on .candOn .f3 1) &&
      ok (exec (.slipCandidate 3 0 2 0x4000 99) s) (fun t => !t.on .candOn .f3 2) &&
      fixesPhase 2 1 321 && [1, 2, 3].any (nearTurn 0x4000) && nearTurn 0xC000 3 && !nearTurn 0x4000 3 &&
      ok (exec (.pilotCheck 3 0 1 0x4000 0 5 321) s) (fun t => t.rd .slipPilotOutliers .f3 = 1) &&
      ok (exec (.pilotCheck 3 1 1 0xC000 0 5 321) s) (fun t => t.rd .slipSlipsY .f3 = 1 && t.slipRecs = [⟨3, 1, 1, 3, 5, 90, 321⟩]) &&
      ok (exec (.pilotCheck 3 1 1 0x4000 0 5 321) s) (fun t => t.rd .slipSlipsY .f3 = 0 && !t.on .candOn .f3 17)) := by decide +kernel

/-! The decoder pool. -/

/-- A position of carrier 1, complete at tally 0, of class 0 and code 0, at the start of its chain, with one variable. -/
def posIn (phase : PosPhase) (iters : Nat) (post : List Int := [1]) (last : Bool := true) : Pos :=
  { n := 1, sf := 5, j := 0, done := 0, llrs := [], phase := phase, iters := iters, overtime := 0, converged := false,
    redecoding := false, redecoded := false, late := false, joined := false, first := 0, tagged := false, engine := 0, cap := 0,
    start := 0, fin := 0, last := last, anchor := 0, post := post }

theorem met_PositionsQueueDispatchIterateRelease_complete :
    at_ (up [(.acqState, .f1, 0, 7), (.decChainRunning, .m0, 1, 1), (.chainWait, .m0, 1, 1)]) (fun s => s.slipFixes = [] && s.acq 1 = 7 &&
      s.on .decChainRunning .m0 1 && (List.replicate posLen (⟨0, 0, 0, 0⟩ : RxSym)).length = posLen) &&
    ok (exec (.positionComplete 1 5 3 [] 0) (up [])) (fun t => t.pool = []) := by decide +kernel

theorem met_PositionsQueueDispatchIterateRelease_dispatch :
    at_ { up [] with pool := [posIn (.decoding 3) 0, posIn .waiting 0] } (fun s => s.engReady .m0 66 &&
      !s.takes .m0 (posIn (.decoding 3) 0) && s.takes .m0 (posIn .waiting 0) &&
      ok (exec (.positionDispatch 0 66) s) (fun t => t.pool.map (·.phase) = [.decoding 3, .decoding 66])) &&
    at_ { up [] with pool := [{ posIn .waiting 1 with unsat := 4000 }], tally := 2 ^ 19 } (fun s =>
      ok (exec (.positionRelease 1) s) (fun t => t.pool = [] && t.rd .decReleased .m0 1 = 1 && t.rd .decShedBlocks .m0 1 = 1) &&
      ok (exec (.positionRelease 1) { s with tally := 2 ^ 19 - 1 }) (fun t => t.pool.length = 1)) &&
    at_ { up [] with pool := [{ posIn .finished 3 with unsat := 4000 }], tally := 2 ^ 19 } (fun s =>
      ok (exec (.positionRelease 1) s) (fun t => t.rd .decShedBlocks .m0 1 = 0 && t.rd .decCapped .m0 1 = 1)) := by decide +kernel

/-- The right answer of a known-answer test (R275) can be given. -/
theorem met_TokensKnownAnswersSlipRecordsAndPhaseHunt_answer : (katPayload.map (· == 1)).map b2n = katPayload := by
  have h : ∀ k g, ∀ b ∈ signs k g, b = 0 ∨ b = 1 := by
    intro k
    induction k with
    | zero => intro g b hb; cases hb
    | succ k ih =>
      intro g b hb
      rcases List.mem_cons.1 hb with rfl | hb
      · simp only [nextSign, xorBit]; omega
      · exact ih _ b hb
  rw [List.map_map]
  refine (List.map_congr_left fun b hb => ?_).trans (List.map_id _)
  rcases h _ _ b hb with rfl | rfl <;> rfl

theorem met_TokensKnownAnswersSlipRecordsAndPhaseHunt :
    at_ (up [(.poolOtGrant, .m1, 0, 50), (.katEnAct, .m1, 0, 1), (.katPeriodAct, .m1, 0, 2)]) (fun s =>
      ok (exec (.otTokenReload 1) s) (fun t => t.rd .poolOtTokens .m1 = 50) && !s.dieSheds .m1 && s.nextKat .m1 = some 0 &&
      s.rd .katServed .m1 ≠ s.sf / 512 * 512 + 1 &&
      ok (exec (.katTest 1 []) s) (fun t => t.rd .selfchkFail .m1 = 1) &&
      ok (exec (.katTest 1 []) (s.wr .shedding .m1 1 1)) (fun t => t.rd .katNext .m1 = 0) &&
      ok (exec (.katTest 1 []) { s with tally := 256 * sfLen }) (fun t => t.rd .selfchkKatSkipped .m1 = 1)) &&
    at_ { up [] with slipRecs := [⟨1, 0, 0, 1, 5, 0, 400⟩], pool := [posIn .waiting 0] } (fun s =>
      (⟨1, 0, 0, 1, 5, 0, 400⟩ : SlipRec).touches (posIn .waiting 0) (s.subcarriers 1) &&
      ok (exec (.slipRecord 1) s) (fun t => t.slipRecs = [] && t.rd .slipCorrQueue .m0 1 = 1 && t.slipFixes = [])) := by decide +kernel

theorem met_TokensKnownAnswersSlipRecordsAndPhaseHunt_window :
    at_ { up [(.decChainRunning, .m0, 1, 1), (.lrxClass, .m0, 1, 1), (.lrxCode, .m0, 1, 3), (.farLiveSf, .m0, 1, 8)] with
        rxLine := [(1, { tests := List.replicate phaseWindow ⟨6, 2, 0, 1, 1⟩ })] } (fun s =>
      phasePeriod (s.rxRate .live 1).cls (s.rxRate .live 1).code = 2 && adoptPhase 2 [16, 2] = some 1 && adoptPhase 2 [15, 2] = none &&
      phaseCounts 1 3 6 (List.replicate phaseWindow ⟨6, 2, 0, 1, 1⟩) = [0, 1008] &&
      ok (exec (.fecPhaseWindow 1) s) (fun t => t.on .decPhaseKnown .m0 1 && t.rd .decPhase .m0 1 = 1) &&
      at_ (put s [(.farValid, .m0, 1, 1), (.farLiveSf, .m0, 1, 8)]) fun s => ok (exec (.fecPhaseWindow 1) s) (fun t =>
        t.rd .decPhase .m0 1 = 0 && t.on .decPhaseConflict .m0 1)) := by decide +kernel

/-! ITERATION_END on a position of one variable and no inner parity bits: every check has an edge without a value, so that each
message to the variable is 0 and an iteration keeps its value. -/

/-- The positions that the checks of such a position reach. -/
def lone (p : Pos) : List Pos := [p, { p with j := 0, post := [], par := [] }, { p with j := 0, post := [], par := [] }]

theorem checkEdges_lone (p : Pos) (v : Int) (hp : p.post = [v]) (last : Bool) (r k : Nat) :
    checkEdges last r k (lone p) =
      (if edgeCheck 0 p.j 0 r == k || last && (tailChecks 0 p.j 0 r).contains k then [(0, 0)] else []) ++
        ((3, k) :: if k = 0 then [] else [(3, k - 1)]) := by
  simp [checkEdges, lone, hp, List.zipIdx, List.range_succ, List.filter_cons]
  split <;> rfl

theorem checkPass_lone (v : Int) (b : Bool) (k : Nat) :
    (checkPass ((if b then [(0, 0)] else []) ++ ((3, k) :: if k = 0 then [] else [(3, k - 1)])) [[v], [], [], []] []).1 =
      [[v], [], [], []] := by
  cases b <;> by_cases hk : k = 0 <;>
    simp [checkPass, hk, minSum, msgClamp, edgeValue, List.zipIdx, List.range_succ]

theorem layeredPass_lone (p : Pos) (v : Int) (hp : p.post = [v]) (last : Bool) (r n k : Nat) :
    (layeredPass last r (lone p) [] n k [[v], [], [], []]).1 = [[v], [], [], []] := by
  induction n generalizing k with
  | zero => rfl
  | succ n ih =>
    simp only [layeredPass, checkEdges_lone p v hp, List.getD_nil, checkPass_lone]
    exact ih _

theorem reached_lone (s : State) (c : DecCode) (p : Pos) (v : Int) (hp : p.post = [v]) (ha : p.anchor = 0) :
    s.reached c p = lone p := by
  simp [State.reached, lone, DecCode.load, hp, ha, List.range_succ]

theorem iterate_lone (s : State) (c : DecCode) (p : Pos) (v : Int) (hp : p.post = [v]) (hq : p.par = []) (hm : p.msgs = [])
    (ha : p.anchor = 0) : ∃ m, (s.iterate c p).1 = { p with post := [v], par := [], msgs := m } := by
  have hl : c.load p = p := by simp [DecCode.load, hp]
  have hv : (lone p).map (·.post) ++ [p.par] = [[v], [], [], []] := by simp [lone, hp, hq]
  refine ⟨(layeredPass p.last c.r (lone p) [] c.r 0 [[v], [], [], []]).2, ?_⟩
  simp only [State.iterate, reached_lone s c p v hp ha, hl, hm, hv, layeredPass_lone p v hp]
  rfl

theorem unsatisfied_lone (s : State) (c : DecCode) (p : Pos) (v : Int) (hp : p.post = [v]) (hq : p.par = []) (ha : p.anchor = 0) :
    (0 ≤ v → s.unsatisfied c p = 0) ∧
    (v < 0 → p.last = false → edgeCheck 0 p.j 0 c.r < c.r → s.unsatisfied c p ≠ 0) := by
  have hl : c.load p = p := by simp [DecCode.load, hp]
  have hv (k : Nat) : ((checkEdges p.last c.r k (lone p)).map fun e => hard (edgeValue ((lone p).map (·.post) ++ [p.par]) e)).sum =
      if edgeCheck 0 p.j 0 c.r == k || p.last && (tailChecks 0 p.j 0 c.r).contains k then hard v else 0 := by
    rw [checkEdges_lone p v hp]
    by_cases h0 : k = 0 <;> split <;> simp [lone, hp, hq, h0, edgeValue, hard]
  simp only [State.unsatisfied, reached_lone s c p v hp ha, hl, hv]
  constructor
  · intro h
    have : hard v = 0 := by simp [hard]; omega
    simp [this]
  · intro h hlast hr
    have : hard v = 1 := by simp [hard]; omega
    simp only [this, hlast]
    intro h0
    rw [List.length_eq_zero_iff, List.filter_eq_nil_iff] at h0
    exact absurd (h0 _ (List.mem_range.2 hr)) (by simp)

/-- Such a position of carrier 1 in engine 3 after an iteration that left the messages `m`. -/
def loneAfter (v : Int) (iters : Nat) (last : Bool) (m : List (List Int)) : Pos :=
  { posIn (.decoding 3) iters [v] last with msgs := m }

/-- The positions in engine 3 of M0. -/
def inEngine3 (q : Pos) : Bool := millOf q.n == millAt 0 && q.phase == .decoding 3

theorem iterated_lone (b : State) (v : Int) (iters : Nat) (last : Bool) (hp : b.pool = [posIn (.decoding 3) (iters + 1) [v] last]) :
    ∃ m, b.iterated inEngine3 (posIn (.decoding 3) (iters + 1) [v] last) =
      State.bump { b with pool := [loneAfter v (iters + 2) last m] } .decIterSum .m0 1 := by
  obtain ⟨m, hm⟩ := iterate_lone b (b.decCode (posIn (.decoding 3) (iters + 1) [v] last)) (posIn (.decoding 3) (iters + 1) [v] last)
    v rfl rfl rfl rfl
  refine ⟨m, ?_⟩
  simp only [State.iterated, hm, hp]
  rfl

theorem satisfied_lone (u : State) (v : Int) (iters : Nat) (last : Bool) (m : List (List Int))
    (hp : u.pool = [loneAfter v iters last m]) (hc : u.on .decChainRunning .m0 1 = true) :
    let q := loneAfter v iters last m
    (0 ≤ v → u.allSatisfied (u.decCode q) q = true) ∧
    (v < 0 → last = false → u.allSatisfied (u.decCode q) q = false) ∧ u.followed q = last := by
  intro q
  have hafter (e : Nat) (he : e ≠ 0) : u.posAfter q e = none := by
    rw [State.posAfter, hp]
    refine List.find?_eq_none.2 fun x hx => ?_
    obtain rfl := List.mem_singleton.1 hx
    simp [he, q, Pos.place]
  have hf : u.following q = [] := by
    simp only [State.following, hafter 1 (by decide)]
    simp
  have hu := unsatisfied_lone u (u.decCode q) q v rfl rfl rfl
  refine ⟨fun h => ?_, fun h hl => ?_, ?_⟩
  · simp [State.allSatisfied, hf, hu.1 h]
  · have h37 : (u.decCode q).r = 3698 := (by decide +kernel : innerChecks 0 0 = 3698)
    have hr : edgeCheck 0 q.j 0 (u.decCode q).r < (u.decCode q).r := by
      rw [h37]
      exact (by decide +kernel : edgeCheck 0 0 0 3698 < 3698)
    simpa [State.allSatisfied, hf] using hu.2 h hl hr
  · have hc' : u.on .decChainRunning (millOf q.n) (q.n % 2) = true := hc
    simp only [State.followed, hf, hc']
    cases last <;> rfl

/-- The state with one such position in engine 3 meets the hypotheses of ITERATION_END's clauses, after one iteration of which the
value is `v`. -/
def IterationMet (b : State) (v : Int) (iters : Nat) (last : Bool) : Prop :=
  let p := posIn (.decoding 3) (iters + 1) [v] last
  let s : State := { b with pool := [p] }
  let u := s.iterated inEngine3 p
  s.pool.find? inEngine3 = some p ∧ p.waits = false ∧
  ∃ q, u.pool = [] ++ q :: [] ∧ inEngine3 q = true ∧ q.iters = iters + 2 ∧ q.redecoding = false ∧
    (0 ≤ v → u.allSatisfied (u.decCode q) q = true) ∧
    (v < 0 → last = false → u.allSatisfied (u.decCode q) q = false) ∧ u.followed q = last

theorem iterationMet_of (b : State) (hb : b.on .decChainRunning .m0 1 = true) (v : Int) (iters : Nat) (last : Bool) :
    IterationMet b v iters last := by
  unfold IterationMet
  intro p s u
  obtain ⟨m, hm⟩ := iterated_lone s v iters last rfl
  have hu : u.pool = [loneAfter v (iters + 2) last m] := congrArg State.pool hm
  have hc : u.on .decChainRunning .m0 1 = true := by
    have hr : u.rd .decChainRunning .m0 1 = b.rd .decChainRunning .m0 1 := by
      rw [show u = _ from hm, State.rd_bump]
      exact if_neg (by decide)
    simp only [State.on] at hb ⊢
    rw [hr]
    exact hb
  exact ⟨rfl, rfl, _, hu, rfl, rfl, rfl, satisfied_lone u v _ last m hu hc⟩

/-- A running chain of carrier 1 with a cap of 12. -/
def iterUp : State := up [(.decChainRunning, .m0, 1, 1), (.decCapEffective, .m0, 1, 12)]

theorem iterUp_facts : max 1 (iterUp.rd .etMinAct .m0) = 2 ∧ max 8 (iterUp.rd .iterMaxAct .m0) = 24 ∧
    iterUp.rd .decCapEffective .m0 1 = 12 ∧ iterUp.on .decChainRunning .m0 1 = true := by decide +kernel

/-- The hypotheses of each clause of ITERATION_END: a position with a value of 1 has every check satisfied after its second iteration,
one with a value of −1 has not, nor after its 24th; the last position of a chain has all that it waits for, one of a running chain
has not. -/
theorem met_PositionsQueueDispatchIterateRelease_iterate : IterationMet iterUp 1 0 true ∧ IterationMet iterUp 1 0 false ∧
    IterationMet iterUp (-1) 0 false ∧ IterationMet iterUp (-1) 22 false :=
  have h := iterationMet_of iterUp iterUp_facts.2.2.2
  ⟨h _ _ _, h _ _ _, h _ _ _, h _ _ _⟩

/-! Mymos. -/

/-- An SF overhead with its check: bits 0 to 239 as a number. -/
def goodOh (v : Nat) : BitVec 256 :=
  let oh := BitVec.ofNat 256 (v * 2 ^ 16)
  BitVec.ofNat 256 (v * 2 ^ 16 + overheadCrc oh)

/-- What TX_LINE_FRAME of LF 0 finds: whether the coded-bit queue holds it. -/
def heldB (s : State) : Bool :=
  let r := s.txRate .live 0
  let b := s.lineBegin 0 r
  b.1.lineHolds 0 r { b.2.feed r.m [] with sf := s.sf, lf := 0 } true

theorem met_LineFramesOverheadsAndFarBoundaries_transmit :
    at_ (up [(.dacTxEnable, .f0, 0, 1)]) (fun s => s.lineOn 0 && !s.on .dacPause .f0 && s.sfOff / lfLen = 0 &&
      !heldB (s.wr .viewStale .f0 0 1) && heldB (s.wr .ltxM .m0 0 0) &&
      ok (exec (.txLineFrame 0 []) (s.wr .dacPause .f0 0 1)) (fun t => t.txLine = [(0, {})] && t.lfOut = []) &&
      ok (exec (.txLineFrame 1 []) s) (fun t => t = s)) := by
  decide +kernel

theorem met_LineFramesOverheadsAndFarBoundaries_receive :
    at_ (up [(.frmState, .m0, 0, 3), (.decChainRunning, .m0, 0, 1), (.farValid, .m0, 0, 1), (.farLastAnn, .m0, 0, 41), (.ohSince, .m0, 0, 2),
      (.frmShapePhase, .m0, 0, 7)]) (fun s =>
      let good := goodOh (7 * 2 ^ 192 + 2 ^ 150 + 0x5A * 2 ^ 24)
      let first := s.wr .ohFirst .m0 0 1
      overheadCrc good = ohField good 240 255 && ohField good 89 89 = 1 && ohField good 0 47 = 7 &&
      overheadCrc (good + 1) ≠ ohField (good + 1) 240 255 &&
      ok (exec (.sfOverheadReceived 0 (good + 1)) s) (fun t => t.rd .frmOhCrcErrors .m0 0 = 1 && t.rd .farLastAnn .m0 0 = 41) &&
      ok (exec (.sfOverheadReceived 0 good) s) (fun t => t.rd .farLastAnn .m0 0 = 7 && t.msgRx = [(0, 0x5A)]) &&
      ok (exec (.sfOverheadReceived 0 (good + 1)) first) (fun t => t.rd .frmFalseSync .m0 0 = 1 && t.rd .frmState .m0 0 = 0) &&
      at_ (put first [(.frmShapePhase, .m0, 0, 8), (.frmShapeLocked, .m0, 0, 1)]) (fun s => !s.anyPhase 0 &&
        ok (exec (.sfOverheadReceived 0 good) s) (fun t => t.rd .frmFalseSync .m0 0 = 1)) &&
      ok (exec (.farSfArrival 0) { s with tally := 9 }) (fun t => t.rd .farLiveSf .m0 0 = 44 && t.rd .farLiveArr .m0 0 = 9) &&
      at_ (s.wr .farValid .m0 0 0) fun s => !s.on .farHasArr .m0 0 &&
        ok (exec (.farSfArrival 0) s) (fun t => t.rd .frmShapePhase .m0 0 = 8 && !t.on .farHasArr .m0 0)) := by
  decide +kernel

/-- Four line frames that carry the alignment pattern at offset 1, the first of them LF ℓ. -/
def patterned (lf : Nat) : List (List Bool) :=
  (List.range 4).map fun k => false :: (msbBits 8 (alignPattern (lf + k))).map (· == 1)

theorem met_FrameHuntSyncLossAndShapeSweep_hunt :
    at_ (acqIn 7 [(.frmState, .m1, 1, 1)]) (fun s => 4096 ≤ s.rxLfLength 3 2 62 && s.rxLfLength 3 2 62 < 2 ^ 18 &&
      patternRun 62 1 (s.cutLfs 3 2 62 (patterned 62)) &&
      ok (exec (.frameHunt 3 62 (patterned 62)) s) (fun t => t.rd .frmState .m1 1 = 2 && t.rd .huntCand .m1 1 = 1) &&
      ok (exec (.frameHunt 3 62 [[], [], [], []]) s) (fun t => t.rd .frmState .m1 1 = 1 && t.rd .huntPos .m1 1 = 4096)) &&
    at_ (acqIn 7 [(.frmState, .m1, 1, 2), (.huntLf, .m1, 1, 62), (.huntCand, .m1, 1, 1)]) (fun s =>
      ok (exec (.mymosSync 3 (patterned 62)) s) (fun t => t.rd .frmState .m1 1 = 3 && t.rd .frmSyncOffset .m1 1 = 1) &&
      !patternRun 62 1 (s.cutLfs 3 0 62 (patterned 61)) &&
      ok (exec (.mymosSync 3 (patterned 61)) s) (fun t => t.rd .frmState .m1 1 = 1 && t.rd .huntPos .m1 1 = 2)) := by
  decide +kernel

theorem met_FrameHuntSyncLossAndShapeSweep_loss :
    at_ (acqIn 7 [(.frmState, .m1, 1, 3), (.ohBad, .m1, 1, 8), (.farValid, .m1, 1, 1)]) (fun s => s.lofHolds 3 .crc &&
      s.lofHolds 3 (.pattern 0 [[], [], [], [], []]) && !s.lofHolds 3 (.pattern 0 [[], [], [], []]) && !s.lofHolds 3 .track &&
      ok (exec (.mymosLof 3 .crc) s) (fun t => t.on .frmLofSticky .m1 1 && t.rd .frmState .m1 1 = 1 && !t.on .farValid .m1 1) &&
      ok (exec (.mymosLof 3 .crc) (s.wr .ohBad .m1 1 7)) (fun t => t.rd .frmState .m1 1 = 3)) &&
    at_ (acqIn 6 [(.frmState, .m1, 1, 3)]) (fun s => s.lofHolds 3 .track &&
      ok (exec (.mymosLof 3 .track) s) (fun t => t.rd .frmState .m1 1 = 0)) &&
    at_ (up [(.decChainRunning, .m1, 1, 1), (.decPhaseKnown, .m1, 1, 1), (.sweepCand, .m1, 1, 63), (.sweepRun, .m1, 1, 4)]) (fun s =>
      !s.on .frmShapeLocked .m1 1 && !s.on .farValid .m1 1 && 4 ≤ s.rd .sweepRun .m1 1 &&
      ok (exec (.shapeSweepWindow 3) s) (fun t => t.rd .sweepCand .m1 1 = 0 && t.rd .frmShapePhase .m1 1 = 0)) &&
    at_ { up [(.frmState, .m1, 1, 1), (.frmShapeLocked, .m1, 1, 1)] with tally := 64 * sfLen } (fun s =>
      ok (exec (.shapeUnlock 3) s) (fun t => !t.on .frmShapeLocked .m1 1)) := by decide +kernel

theorem met_MessageFifosAndGroupReferences :
    at_ (up []) (fun s => answers s .m1 .frmMsgTxData 1 && answers s .m1 .frmMsgRxData 1 &&
      ok (exec (.msgTxWrite 1 1 9) { s with msgTx := List.replicate 63 (3, 0) }) (fun t => t.msgTx.length = 64 && t.events = []) &&
      ok (exec (.msgTxWrite 1 1 9) { s with msgTx := List.replicate 64 (3, 0) }) (fun t => t.msgTx.length = 64 && t.events.length = 1) &&
      ok (exec (.msgRxRead 1 1) { s.wr .frmMsgRxData .m1 1 6 with msgRx := [(2, 5), (3, 6)] }) (fun t => t.msgRx = [(2, 5)] && t.readData % 256 = 6) &&
      ok (exec (.refRestart 2) s) (fun t => t.on .lgRestart .m0 2)) &&
    at_ { up [(.lgRefValid, .m0, 2, 1)] with tally := 256 * sfLen, groupRef := [(2, 1, 1), (1, 1, 1)] } (fun s =>
      s.rd .lgInService .m0 2 = 0 && ok (exec (.refClear 2) s) (fun t => !t.on .lgRefValid .m0 2 && t.groupRef = [(1, 1, 1)])) &&
    at_ { up [(.lgRefValid, .m0, 2, 1), (.lgSkewMaxSf, .m0, 2, 4), (.lgRxMembers, .m0, 2, 12)] with
          tally := 4 * sfLen, groupRef := [(2, 6, 0), (2, 7, 4 * sfLen)], relMsgs := [(2, 77, 0)] } (fun s => s.rd .lgMuteUntil .m0 2 ≤ s.tally &&
      s.on .winzLinkUp .m0 2 &&
      ok (exec (.groupRelease 2) s) (fun t => t.rd .lgReleased .m0 2 = 6) &&
      ok (exec (.releasePositionMsg 2) s) (fun t => t.rd .lgFarRelease .m0 2 = 77 && t.relMsgs = [])) := by decide +kernel

theorem met_MessageFifosAndGroupReferences_return :
    at_ { up [(.lgRxMembers, .m0, 2, 4), (.lgResume, .m0, mem4 2 2, 64), (.lgSkewMaxSf, .m0, 2, 1)] with
        tally := 9 * sfLen, groupRef := [(2, 60, 4 * sfLen)] } (fun s => s.groupOf 2 = some 2 &&
      s.refNear 2 64 = some (8 * sfLen : Int) && !s.inService 2 2 && 8 * sfLen + s.groupW 2 ≤ s.tally && s.rd .lgInService .m0 2 < 16 &&
      ok (exec (.memberIn 2) s) (fun t => t.inService 2 2 && t.rd .lgMemberReturns .m0 2 = 1)) := by decide +kernel

/-! OTN and client adaptation. -/

/-- Byte 25 of an overhead in the order of R348 holds the PM byte's STAT. -/
def ohStat (stat : Byte) : List Byte := List.replicate 25 0 ++ [stat] ++ List.replicate 10 0

theorem met_OtnFramesCountedJudgedAndSent :
    at_ (up [(.oduEnable, .m1, 511, 1), (.oduStatRun, .m1, 511, 2), (.oduStatLast, .m1, 511, 5)]) (fun s => s.otnRuns .m1 &&
      ok (exec (.otnFrameReceived 1 (.slice 47) 0 0 [] [8] none false none 0) s) (fun t =>
        t.rd .sliceBipErrors .m1 47 = 8 && t.rd .sliceMfas .m1 47 = 1) &&
      ok (exec (.otnFrameReceived 1 (.group 3) 0 0 [7] [] none false none 0) s) (fun t => Cells.find (layerKey .m1 (.group 3)) t.ohRecv = some [7]) &&
      ok (exec (.otnFrameReceived 1 (.ctx 511) 0 0 (ohStat 5) [3] none false none 0) s) (fun t =>
        t.rd .oduBipErrors .m1 511 = 3 && t.on .oduDLck .m1 511 && !t.on .oduDAis .m1 511) &&
      ok (exec (.otnFrameReceived 1 (.ctx 510) 0 0 (ohStat 5) [3] none false none 0) s) (fun t => t.rd .oduBipErrors .m1 510 = 0) &&
      ok (exec (.otnFrameTransmit 1 (.group 3) 0 0 [9] [] none) s) (fun t => Cells.find (layerKey .m1 (.group 3)) t.ohSent = some [9]) &&
      ok (exec (.otnFrameTransmit 1 (.slice 47) 0 0 [9] [] none) s) (fun t => t.ohSent.length = 1) &&
      ok (exec (.otnFrameTransmit 1 (.ctx 511) 0 0 [9] [] none) s) (fun t => t.ohSent.length = 1)) := by decide +kernel

theorem met_OtnFramesCountedJudgedAndSent_loops :
    at_ { up [(.oduEnable, .m0, 3, 1), (.oduLb, .m0, 3, 1), (.lgLb, .m0, 0, 2)] with
        ohRecv := [(layerKey .m0 (.ctx 3), [7]), (layerKey .m0 (.group 0), [8])], ohSent := [(layerKey .m0 (.group 0), [6])] } (fun s =>
      s.otnRuns .m0 && s.lineOut .m0 3 = (6, 0) && s.lineSignal .m0 3 = (5, 3) &&
      ok (exec (.otnFrameTransmit 0 (.ctx 3) 0 0 [9] [] none) s) (fun t => Cells.find (layerKey .m0 (.ctx 3)) t.ohSent = some [7] && t.rd .oduSig .m0 3 = 0) &&
      s.rxContent .m0 (.group 0) [5] = [6] && s.rxContent .m0 (.ctx 3) [5] = [5] &&
      at_ ((s.wr .oduLb .m0 3 2).wr .lgLb .m0 0 1) (fun s => s.lineOut .m0 3 = (7, 1) && (s.wr .oduLbCont .m0 3 1).lineOut .m0 3 = (5, 3) &&
        ok (exec (.otnFrameTransmit 0 (.group 0) 0 0 [9] [] none) s) (fun t => Cells.find (layerKey .m0 (.group 0)) t.ohSent = some [8]))) := by decide +kernel

theorem met_AdaptationResizeAndProtectionBytes_blocks :
    at_ (up [(.oduEnable, .m0, 8, 1), (.oduType, .m0, 8, 6), (.impLevel, .m0, 8, 4095), (.portAlignLock, .m0, 0, 1),
      (.laneCdrLock, .m0, 0, 1), (.portWidth, .m0, 0, 0)]) (fun s => s.otnRuns .m0 && !s.portFails .m0 (s.rd .oduClientPort .m0 8) && !s.on .impDrop .m0 8 &&
      s.rd .impIdles .m0 8 ≤ s.rd .impLevel .m0 8 &&
      ok (exec (.ethBlockReceived 0 8 .data 0) s) (fun t => t.rd .impLevel .m0 8 = 4096 && !t.on .impDrop .m0 8) &&
      at_ (s.wr .impLevel .m0 8 4096) (fun s => s.rd .impIdles .m0 8 = 0 &&
        ok (exec (.ethBlockReceived 0 8 .idle 0) s) (fun t => t.rd .impLevel .m0 8 = 4096) &&
        ok (exec (.ethBlockReceived 0 8 .data 0) s) (fun t => t.on .impDrop .m0 8 && t.rd .oduImpOverflow .m0 8 = 1))) := by decide +kernel

theorem met_AdaptationResizeAndProtectionBytes_resize :
    at_ (up [(.oduEnable, .m0, 8, 1), (.oduType, .m0, 8, 7), (.oduApsTxVal, .m0, 8, 0x11223344)]) (fun s => s.otnRuns .m0 &&
      s.flexOf .m0 8 = [] && ok (exec (.lcrHandshake 0 8 []) s) (fun t => t.events = []) &&
      ok (exec (.lcrHandshake 0 8 [959]) s) (fun t => t.events.map (·.reason) = [Reason.lcrNack]) &&
      answers s .m0 .oduApsTxLevel 8 &&
      ok (exec (.apsTx 0 8 7) s) (fun t => t.rd .apsTxVal .m0 71 = 0x11223344 && t.on .apsTxOn .m0 71)) := by decide +kernel

/-! Client lanes and the crosscut. -/

theorem met_LanesLockTrainAndAlign :
    at_ (up [(.laneCdrLock, .m1, 23, 1), (.laneTrainState, .m1, 23, 2), (.laneTrainState, .m1, 0, 1), (.laneTrainState, .m1, 1, 3),
      (.laneCoef, .m1, 4, 255), (.portMode, .m1, 2, 2), (.portAlignLock, .m1, 2, 1)]) (fun s =>
      s.laneRuns .m1 23 && s.cdrRange .m1 0 = 1000 && s.cdrRange .m1 2 = 200 &&
      ((List.range (s.portWidth .m1 2)).all fun k => !s.on .laneChkEn .m1 (2 + k)) &&
      ok (exec (.cdrLockChange 1 23 false 0) s) (fun t => !t.on .laneCdrLock .m1 23 && t.rd .laneTrainState .m1 23 = 1) &&
      ok (exec (.cdrLockChange 1 0 true 1000) s) (fun t => t.on .laneCdrLock .m1 0) &&
      ok (exec (.cdrLockChange 1 2 true 201) s) (fun t => !t.on .laneCdrLock .m1 2) &&
      ok (exec (.laneTrained 1 0) s) (fun t => t.rd .laneTrainState .m1 0 = 2) &&
      ok (exec (.laneTrainFail 1 0) s) (fun t => t.rd .laneTrainState .m1 0 = 3 && t.rd .laneTrainFailures .m1 0 = 1) &&
      ok (exec (.laneTrainRequest 1 0 4 1 false) s) (fun t => t.rd .laneCoef .m1 4 = 0 && t.rd .laneCoefSts .m1 4 = 1) &&
      ok (exec (.laneTrainRequest 1 0 4 1 true) s) (fun t => t.rd .laneCoefSts .m1 4 = 2) &&
      ok (exec (.laneTrainRequest 1 0 4 2 true) s) (fun t => t.rd .laneCoefSts .m1 4 = 3) &&
      ok (exec (.laneRetrain 1 1) s) (fun t => t.rd .laneTrainState .m1 1 = 1) &&
      ok (exec (.alignLockChange 1 2 false 5 1) s) (fun t => t.rd .portCwCorrected .m1 2 = 5 && t.events.length = 1)) := by decide +kernel

theorem met_PrbsCheckersAndInjection :
    at_ (up [(.laneChkEn, .m0, 1, 1), (.laneChkLock, .m0, 2, 1), (.laneInjBusy, .m0, 3, 1), (.prbsErrs, .m0, 1, 2 ^ 33 + 5)]) (fun s =>
      s.laneRuns .m0 1 && s.chkOn .m0 1 && ok (exec (.prbsLock 0 1) s) (fun t => t.on .laneChkLock .m0 1) &&
      ok (exec (.prbsLockLost 0 2 6 9) s) (fun t => t.on .laneChkLost .m0 2 && t.rd .prbsErrs .m0 2 = 6) &&
      answers s .m0 .lanePrbsErrLo 1 &&
      ok (exec (.prbsErrRead 0 1 6 9) s) (fun t => t.readData = 5 && t.rd .lanePrbsErrHi .m0 1 = 2) && answers s .m0 .laneInjSingle 3 &&
      ok (exec (.injSingle 0 3) s) (fun t => t.events.length = 1) &&
      ok (exec (.injSingle 0 2) s) (fun t => t.on .laneInjBusy .m0 2 && t.rd .injLeft .m0 2 = 1) &&
      ok (exec (.injBurst 0 2) (s.wr .laneBurstLen .m0 2 0)) (fun t => t.on .laneInjBusy .m0 2 && t.rd .injLeft .m0 2 = 1) &&
      ok (exec (.injDone 0 3) s) (fun t => !t.on .laneInjBusy .m0 3)) := by decide +kernel

theorem met_CrosscutLinkLocksHearsAndLosesPartner :
    at_ (up [(.xcQuads, .m0, 0, 1), (.portMode, .m0, 0, 3), (.laneBlockLock, .m0, 0, 1), (.laneDeskewed, .m0, 0, 1), (.xcLinkUp, .m0, 0, 1)]) (fun s =>
      s.laneRuns .m0 3 && s.onLink .m0 3 && !s.on .laneChkEn .m0 3 && ok (exec (.blockLock 0 3) s) (fun t => t.on .laneBlockLock .m0 3) &&
      ok (exec (.alignBlock 0 0 2 128) s) (fun t => t.on .laneDeskewed .m0 0 && t.rd .lanePos .m0 0 = 2) &&
      ok (exec (.alignBlock 0 0 2 129) s) (fun t => !t.on .laneDeskewed .m0 0) &&
      ok (exec (.blockLockLost 0 0) s) (fun t => t.rd .laneLockLosses .m0 0 = 1) && s.linkHears .m0 &&
      ok (exec (.statusBlock 0 5 6 7) s) (fun t => t.rd .xcPartnerIdSeen .m0 = 5 && t.rd .xcPartnerQl .m0 = 6) &&
      ok (exec (.timeBlock 0 5 1 7) s) (fun t => t.rd .xcToffLo .m0 = 2 ^ 32 - 1 && t.rd .xcToffHi .m0 = 2 ^ 16 - 1) &&
      ok (exec (.badCtrl 0) s) (fun t => t.rd .xcBadCtrl .m0 = 1) &&
      ok (exec (.xcDataBlock 0 31 true (List.replicate 15 9)) s) (fun t => t.on .xcSofSeen .m0 31 && Cells.find 31 t.xcBuf = some (List.replicate 15 9))) &&
    at_ { up [(.xcQuads, .m0, 0, 1), (.portMode, .m0, 0, 3)] with tally := 2 ^ 40 } (fun s => !(s.linkLanes .m0).isEmpty && !s.linkHears .m0 &&
      ok (exec (.xcPartnerLost 0) s) (fun t => t.on .xcPartnerLost .m0)) := by decide +kernel

theorem met_CrosscutBlocksSentAndRolesAgreed :
    at_ { up [(.xcQuads, .m0, 0, 1), (.portMode, .m0, 0, 3), (.pairEn, .m0, 31, 1), (.laneBlockLock, .m0, 0, 1), (.pairSeq, .m0, 31, 4),
        (.portSquelch, .m0, 0, 0)] with tally := 16 * sfLen } (fun s => s.sf % 16 = 0 && s.linkSends .m0 &&
      ok (exec (.xcTimeSend 0) s) (fun t => t.xcSent.map (fun e => (e.2.length, e.2.head?)) = [(16, some 0x66)]) &&
      ok (exec (.xcStatusSend 0) s) (fun t => t.xcSent.map (fun e => (e.2.length, e.2.head?)) = [(16, some 0x78)]) &&
      ok (exec (.xcCoordSend 0 31) s) (fun t => t.xcSent.map (fun e => (e.2.length, e.2.head?)) = [(16, some 0x4B)]) &&
      !s.on .pairRoleActive .m0 31 && s.linkHears .m0 &&
      ok (exec (.coordBlock 0 31 true false false 9 4) s) (fun t => t.on .pairAgreed .m0 31 && t.rd .pairRxSeq .m0 31 = 9) &&
      ok (exec (.coordBlock 0 31 false false false 9 4) s) (fun t => t.events.map (·.reason) = [Reason.xcRoleConflict])) &&
    ok (exec (.coordBlock 0 31 true false false 9 4) (up [(.xcQuads, .m0, 0, 1), (.portMode, .m0, 0, 3), (.pairEn, .m0, 31, 1), (.laneBlockLock, .m0, 0, 1),
      (.pairRoleActive, .m0, 31, 1)])) (fun t => !t.on .pairRoleActive .m0 31) := by decide +kernel

/-! Crypto. -/

/-- A target word for the CRYPTO domain of M1. -/
def cry : Nat := tgt .m1 Dom.crypto

/-- A host with key-encryption keys, and page 5 of M1 bound to the physical function. -/
def keyed (l : List (Fld × Die × Nat × Nat)) : State :=
  { hosted (up ([(.cryKekLoaded, .m1, 0, 1), (.pageFuncValid, .m1, 20, 1), (.cryKekLoaded, .m0, 0, 1)] ++ l)) with
    keys := [(1024 + 5 * 4 + slotTxOn, 111), (1024 + 5 * 4 + slotRxOn, 333), (16384 + 1, 999)] }

theorem met_KeysLoadedThroughEngineAndDestroyed_loads :
    at_ (keyed []) (fun s => let d := dsc (Dom.crypto * 64) 0 0x77; acceptsB s 0x20 d && servesB s .m0 Dom.crypto && !s.kwTested .m0 &&
      ok (exec (.kekLoad d) s) (fun t => t.kw = [⟨0x20, d⟩] && t.on .cryKwBusy .m0)) &&
    at_ (keyed []) (fun s => let d := dsc cry (5 + 256 * slotRxOff + 1024) 0x77
      !cryptoTargetBad d && acceptsB s 0x21 d && s.bound d.mill d.page d.fn && servesB s .m1 Dom.crypto && (s.kek .m1).isSome &&
      bits d.arg0.toNat 9 8 = slotRxOff && !s.on .pageKeyStaged .m1 5 && !s.on .viewFrozen .m1 && !s.kwTested .m1 &&
      ok (exec (.keyLoad d) s) (fun t => t.kw = [⟨0x21, d⟩] && t.keys = s.keys)) := by decide +kernel

/-- The example of RFC 3394, section 4.6: key-encrypting key, wrapped key and key. -/
def kek : Nat := 0x000102030405060708090A0B0C0D0E0F101112131415161718191A1B1C1D1E1F
def wrapped : Nat := 0x28C9F404C4B810F4CBCCB35CFB87F8263F5786E2D80ED326CBC7F0E71A99F43BFB988B9B7A02DD21
def unwrapped : Nat := 0x00112233445566778899AABBCCDDEEFF000102030405060708090A0B0C0D0E0F

/-- A block of the appendix of FIPS 197, and test case 14 of the GCM specification. -/
theorem test_aes_block :
    aesEnc (roundKeys kek) 0x00112233445566778899AABBCCDDEEFF = 0x8EA2B7CA516745BFEAFC49904B496089 := by decide +kernel
theorem test_gcm_zero_block : (fun r : List Byte × BitVec 128 => beNat r.1 == 0xCEA7403D4D606B6E074EC5D3BAF39D18 &&
    r.2.toNat == 0xD0D1C8A799996BF0265B98B5D48AB919) (gcmEncrypt 0 0 [] (List.replicate 16 0)) = true := by decide +kernel
/-- A KEY_LOAD of that key into a receive slot, index 1. -/
def loading (w : Nat) : Desc := dsc cry (5 + 256 * slotRxOff + 1024) (leNat (leBytes 40 w).reverse)

/-- The state while the engine unwraps it. -/
def unwrapping (w : Nat) : State :=
  { keyed [] with keys := [(16384 + 1, kek)], kw := [⟨0x21, loading w⟩], inflight := [⟨0x21, loading w⟩] }

theorem met_KeysLoadedThroughEngineAndDestroyed_differ : at_ (unwrapping wrapped) (fun s => s.kek .m1 = some kek &&
    ok (exec (.keyUnwrapDone 1 false) s) (fun t => t.kw = [] && ended t (loading wrapped) .retry && t.rd .cryKwMismatch .m1 = 1)) := by
  decide +kernel
theorem test_wrapped_key_bytes : (loading wrapped).wrapped = wrapped := by decide +kernel
theorem met_KeysLoadedThroughEngineAndDestroyed_fails : (keyUnwrap kek (wrapped + 1)).isNone = true := by decide +kernel
theorem met_KeysLoadedThroughEngineAndDestroyed_stored :
    ok (exec (.keyUnwrapDone 1 true) (unwrapping wrapped)) (fun t => t.key .m1 5 slotRxOff == some unwrapped) = true := by decide +kernel

theorem met_KeysLoadedThroughEngineAndDestroyed_zeroised :
    at_ (keyed []) (fun s => let off := dsc cry (5 + 256 * slotRxOff) 0; let on := dsc cry (5 + 256 * slotRxOn) 0
      !cryptoTargetBad off && acceptsB s 0x22 off && servesB s .m1 Dom.crypto && slotRxOff % 2 = 1 && slotRxOn % 2 = 0 &&
      ok (exec (.keyZero off) s) (fun t => (t.key .m1 5 slotRxOff).isNone && ended t off .ok) && acceptsB s 0x22 on &&
      ok (exec (.keyZero on) s) (fun t => t.keys = s.keys && t.on .zeroPend .m1 (20 + slotRxOn) && t.zeroing = [⟨0x22, on⟩])) &&
    ok (exec (.keyDestroy 1 5) (keyed [(.zeroPend, .m1, 20 + slotTxOn, 1)])) (fun t => (t.key .m1 5 slotTxOn).isNone) := by decide +kernel

theorem met_PagesBoundAndStreamsStagedStartedStopped_pages :
    at_ (keyed []) (fun s => let d := dsc cry (5 + 256) (0x80 + 256 * 0xC0); let u := dsc cry 5 0
      !cryptoTargetBad d && d.clearFrom 28 && (List.range 4).all (fun j => d.at (24 + j) 1 < 128 || d.at (24 + j) 1 % 128 ≤ 64) &&
      acceptsB s 0x23 d && servesB s .m1 Dom.crypto &&
      ok (exec (.pageBind d) s) (fun t => t.pageFuncs .m1 5 = [0, 64] && t.rd .pageCompat .m1 5 = 1 && ended t d .ok) &&
      acceptsB s 0x24 u && ok (exec (.pageUnbind u) s) (fun t => t.pageFuncs .m1 5 = [] && t.zeroing = [⟨0x24, u⟩])) := by decide +kernel

theorem met_PagesBoundAndStreamsStagedStartedStopped_streams :
    at_ (keyed []) (fun s => let d := dsc cry 511 (5 * 2 ^ 10 + 2 ^ 32 * 0xFFFFE + 2 ^ 64 * 7)
      !cryptoTargetBad d && acceptsB s 0x25 d && servesB s .m1 Dom.crypto && d.clearFrom 36 && !s.numTaken .m1 511 0xFFFFE &&
      d.at 28 4 = 0xFFFFE && s.bound .m1 (bits (d.at 24 4) 17 10) 0 && !s.on .viewFrozen .m1 &&
      ok (exec (.streamBind d) s) (fun t => t.rdOff .strmNum .m1 511 = 0xFFFFE && t.rd .strmBound .m1 511 = 1 && ended t d .ok)) &&
    at_ { keyed [(.strmPage, .m1, 511, 5)] with tally := 9 * sfLen } (fun s =>
      let d := dsc cry 511 0 9; let x := dsc cry 511 0 9
      s.tally ≤ d.pos && s.bound .m1 (s.rd .strmPage .m1 511) 0 && acceptsB s 0x26 d && !s.on .tallyOriginLost &&
      ok (exec (.streamStart d) s) (fun t => t.on .strmStartOn .m1 511 && t.rd .strmStartAt .m1 511 = 9) && acceptsB s 0x27 x &&
      ok (exec (.streamStop x) s) (fun t => t.on .strmStopOn .m1 511 && t.rd .strmStopAt .m1 511 = 9)) := by decide +kernel

theorem met_FramesEncryptedInSequenceAndPassedOnTag_encrypt :
    at_ (keyed [(.strmTxEn, .m1, 0, 1), (.strmPage, .m1, 0, 5), (.strmTxState, .m1, 0, 1), (.strmNext, .m1, 0, 2 ^ 64 - 1)]) (fun s =>
      s.has .m1 && s.domUp .m1 Dom.crypto && !s.domInReset .m1 Dom.crypto && !s.on .strmStartOn .m1 0 && !s.on .strmStopOn .m1 0 &&
      !s.on .pageOut .m1 5 && s.key .m1 5 slotTxOn = some 111 && !s.on .zeroPend .m1 (20 + slotTxOn) &&
      ok (exec (.encryptFrame 1 0 0 [1] true 0) s) (fun t => t.rd .strmNext .m1 0 = 2 ^ 64 && t.rd .pageTxCount .m1 5 = 1) &&
      ok (exec (.encryptFrame 1 0 0 [1] true 0) { s with keys := [] }) (fun t => t.rd .strmNext .m1 0 = 2 ^ 64 && t.rd .strmTxState .m1 0 = 2)) :=
  by decide +kernel

theorem met_FramesEncryptedInSequenceAndPassedOnTag_decrypt :
    at_ (keyed [(.strmRxEn, .m1, 0, 1), (.strmPage, .m1, 0, 5), (.strmRxState, .m1, 0, 1), (.strmSeqLock, .m1, 0, 1), (.rxSeq, .m1, 0, 65)])
      (fun s => s.rxSlotFor .m1 5 0 = some slotRxOn && s.key .m1 5 slotRxOn = some 333 && 1 % 64 = 65 % 64 && s.rd .strmFarId .m1 0 = 0 &&
        ok (exec (.decryptFrame 1 0 0 none [] true 0) s) (fun t => t.rd .rxSeq .m1 0 = 66) &&
        (let r := gcmEncrypt 333 65 (frameAad 7 1) [9]
        let tag := r.2.toNat / 2 ^ 32
        ok (exec (.decryptFrame 1 0 7 (some ⟨0, 1, BitVec.ofNat 96 tag⟩) r.1 true 0) s) (fun t => t.rd .strmRxState .m1 0 = 2 &&
          Cells.find (Die.m1.code * 512) t.plainOut = some (.plain, [9])) &&
        ok (exec (.decryptFrame 1 0 7 (some ⟨0, 1, BitVec.ofNat 96 (tag + 1)⟩) r.1 true 0) s) (fun t => t.rd .strmAuthFail .m1 0 = 1))) := by
  decide +kernel

/-- A lookaside descriptor of 16 bytes on ring 6, whose page is 5 of M1, with a counter. -/
def la (ctr : Nat) : Desc := dsc cry 16 (ctr * 2 ^ 160) 0 0 6

theorem met_LookasideRunsAndReceiveKeysSwap_runs :
    at_ (keyed [(.pageLaCtrLo, .m1, 5, 8)]) (fun s =>
      let s : State := { s with rings := [(6, Ring.new 0 6 6 0x4000 1 0 true 0 0 5 1), (1, Ring.new 0 1 6 0x2000 0 0 true 0 0 0 0)] }
      !laBad (la 9) && s.laPage (la 9) = 5 && !s.laExcluded (la 9) && servesB s .m1 Dom.crypto && acceptsB s 0x28 (la 9) &&
      !s.txKeyless .m1 5 && s.rd48 .pageLaCtrLo .pageLaCtrHi .m1 5 < (la 9).at 44 8 && !s.on .pageOut .m1 5 &&
      ok (exec (.laEncrypt (la 9)) s) (fun t => t.la.map (·.key) = [111] && t.rd .pageLaCtrLo .m1 5 = 9) && acceptsB s 0x29 (la 9) &&
      ok (exec (.laDecrypt (la 9)) s) (fun t => t.la.map (·.key) = [333])) := by decide +kernel

theorem met_LookasideRunsAndReceiveKeysSwap_ends :
    at_ (keyed []) (fun s => let run (dead : Bool) : State := { s with
        la := [⟨⟨0x28, la 9⟩, 5, slotTxOn, 111, 9, dead⟩], inflight := [⟨0x28, la 9⟩] }
      ok (exec (.lookasideDone 6 [] true 0) (run true)) (fun t => t.la = [] && t.hostMem = [] && !t.inflight.any (·.isFor (la 9))) &&
      ok (exec (.lookasideDone 6 [] false 0) (run false)) (fun t => t.la = [] && t.hostMem = [] && !t.inflight.any (·.isFor (la 9))) &&
      ok (exec (.lookasideDone 6 (List.replicate 16 0) true 0) { run false with la := [⟨⟨0x28, la 9⟩, 5, slotTxOn, 0, 0, false⟩] }) (fun t =>
        t.la = [] && ended t (la 9) .ok && t.hostByte 0 = 0xCE && t.hostByte 15 = 0x18 && t.hostByte 16 = 0xD0 && t.hostByte 31 = 0x19) &&
      (run false).la.find? (·.op.desc.ring == 6) = some ⟨⟨0x28, la 9⟩, 5, slotTxOn, 111, 9, false⟩) &&
    at_ (keyed [(.pageKeyStaged, .m1, 5, 1), (.pageKeyTarget, .m1, 5, 64), (.pageKeyCarrier, .m1, 5, 2), (.farValid, .m1, 0, 1),
      (.farLiveSf, .m1, 0, 64), (.pageTxCount, .m1, 5, 2 ^ 32 + 3), (.strmSeq, .m1, 9, 2 ^ 32 + 4)]) (fun s => s.farNow 2 = 64 &&
      ok (exec (.rxKeySwap 1 5) s) (fun t => (t.key .m1 5 slotRxOn).isNone && t.key .m1 5 slotTxOn = some 111) &&
      answers s .m1 .pageTxFramesLo 5 && ok (exec (.txFramesRead 1 5) s) (fun t => t.readData = 3 && t.rd .pageTxFramesHi .m1 5 = 1) &&
      answers s .m1 .strmTxSeqLo 9 && ok (exec (.seqRead 1 9) s) (fun t => t.readData = 4 && t.rd .strmTxSeqHi .m1 9 = 1)) := by decide +kernel

/-! The host interface. -/

/-- A host with one ring 100 of a class, owned by a function, with its indices. -/
def ringed (cls fn part host : Nat) (irq : Bool := false) : State :=
  let r := Ring.new fn cls 6 0x10000 1 3 irq 2 9 0 0
  { hosted (up []) with rings := Cells.put 100 { r with partIdx := part, hostIdx := host } (hosted State.reset).rings }

theorem met_DoorbellsFetchAndInterruptTimer_doorbells :
    at_ (ringed 0 5 0 0) (fun s => (Cells.find 100 s.rings).any (·.accepts 64) && !(Cells.find 100 s.rings).any (·.accepts 65) &&
      ok (exec (.doorbell 5 100 true 64) s) (fun t => (Cells.find 100 t.rings).any (·.hostIdx == 64)) &&
      ok (exec (.doorbell 5 100 false 64) s) (fun t => t.rings = s.rings && t.events.map (·.dest) = [0, 5]) &&
      ok (exec (.doorbell 6 100 true 64) s) (fun t => t.rings = s.rings && t.events.map (·.reason) = [Reason.doorbellBad, Reason.doorbellBad])) &&
    at_ (ringed 3 0 9 1) (fun s => (Cells.find 100 s.rings).any (·.accepts 9) &&
      ok (exec (.doorbell 0 100 true 9) s) (fun t => (Cells.find 100 t.rings).any (fun r => r.hostIdx == 9 && r.armed))) := by decide +kernel

theorem met_DoorbellsFetchAndInterruptTimer_fetch :
    at_ (ringed 0 0 127 1) (fun s => s.on .pcieUp && s.ringInTurn = some 100 && !s.inflight.any (·.isFor (Desc.ofBytes 100 63 0 0).2) &&
      ok (exec (.descriptorFetch 100 0) s) (fun t => (Cells.find 100 t.rings).any (·.partIdx == 0) &&
        t.inflight.map (fun o => (o.opcode, o.desc.slot)) = [(0, 63)]) &&
      ok (exec (.descriptorFetch 100 0xFF) s) (fun t => t.inflight = [] && t.compl.map (·.status) = [Status.badDesc.code])) &&
    at_ (ringed 3 0 9 1 true) (fun s =>
      let r := { Ring.new 0 3 6 0x10000 1 3 true 2 9 0 0 with fresh := 1 }
      ok (exec (.interruptTimer 100) { s with rings := [(100, r)] }) (fun t => t.msixSent = [(0, 3)] &&
        (Cells.find 100 t.rings).any (fun r => !r.armed && r.fresh == 0))) := by decide +kernel

theorem met_EntriesWrittenAtTheRingsIndex :
    at_ { hosted (up []) with compl := [⟨0, 0, 9, 1, 7, 0, 0, true, none⟩, ⟨0, 0, 1, 1, 7, 0, 0, true, none⟩] } (fun s =>
      s.compl.find? (fun c => (Cells.find c.cq s.rings).any Ring.room) = some ⟨0, 0, 1, 1, 7, 0, 0, true, none⟩ &&
      ok (exec .completionWrite s) (fun t => t.compl.length = 1 && (Cells.find 1 t.rings).any (·.partIdx == 1) &&
        t.hostByte 0x201F = BitVec.ofNat 8 ((s.complBytes ⟨0, 0, 1, 1, 7, 0, 0, true, none⟩ 1).getD 31 0).toNat)) &&
    at_ { hosted (up []) with events := [⟨5, 0, none, 0, 0, 0, 0, none, 0⟩] } (fun s => (s.eventRing 0).any (fun p => p.1 == 2 && p.2.room) &&
      ok (exec (.eventWrite 0) s) (fun t => t.events = [] && (Cells.find 2 t.rings).any (·.partIdx == 1))) := by decide +kernel

theorem met_NopRingsAndVirtualFunctionWindows_create :
    at_ (hosted (up [])) (fun s =>
      let n := dsc 0 0 0
      let d := dsc 0 (100 + 3 * 2 ^ 18 + 16 * 2 ^ 22) (0x10000 + 2 ^ 64 * (0x3FFFF + 511 * 2 ^ 18) + 2 ^ 128 * 0x1FF)
      let q := dsc 0 (101 + 6 * 2 ^ 22) (0x11000 + 2 ^ 64 * 1 + 2 ^ 128 * 0x1FF)
      acceptsB s 0 n && ok (exec (.nop n) s) (fun t => ended t n .ok) && acceptsB s 1 d && d.clearFrom 42 && s.msixSize 0 = 512 &&
      s.mayCreate 0 100 && ok (exec (.ringCreate d) s) (fun t => ended t d .ok &&
        (Cells.find 100 t.rings).any (fun r => r.cls == 3 && r.lg == 16 && r.base == 0x10000 && r.vec == 511)) &&
      acceptsB s 1 q && s.mayCreate 0 101 && ok (exec (.ringCreate q) s) (fun t => (Cells.find 101 t.rings).any (fun r => r.cls == 0 && r.cq == 1))) &&
    at_ (keyed []) (fun s => let d := dsc 0 (102 + 6 * 2 ^ 18 + 6 * 2 ^ 22) (0x11000 + 2 ^ 64 * 1 + 2 ^ 128 * (5 + 2 ^ 8))
      acceptsB s 1 d && s.bound .m1 5 0 && ok (exec (.ringCreate d) s) (fun t => (Cells.find 102 t.rings).any (fun r => r.cls == 6 && r.page == 5))) := by
  decide +kernel

theorem met_NopRingsAndVirtualFunctionWindows_bind_destroy :
    at_ (ringed 7 0 0 0) (fun s => let b := dsc 0 100 (3 + 2 ^ 16 * 3); let x := dsc 0 100 0
      acceptsB s 3 b && classTakes 7 3 && sourceListed 3 3 0 && (s.ringFor 7 3 3 0).isNone &&
      ok (exec (.ringBind b) s) (fun t => (Cells.find 100 t.rings).any (·.source == some (3, 3, 0))) && acceptsB s 2 x && !s.cqNamed 100 &&
      ok (exec (.ringDestroy x) s) (fun t => (Cells.find 100 t.rings).any (·.closing) && t.inflight = [⟨2, x⟩] && t.compl = [])) &&
    at_ (ringed 7 0 0 0) (fun s => let r := { Ring.new 0 7 6 0 1 0 false 0 0 0 0 with closing := true }
      ok (exec (.ringDestroyDone 100) { s with rings := [(100, r)] }) (fun t => t.rings = [])) &&
    at_ (hosted (up [(.numVfs, .m0, 0, 64)])) (fun s => let d := dsc 0 64 (s.windowSize * 3 + 2 ^ 32 * 9)
      acceptsB s 4 d && d.clearFrom 30 && d.at 24 4 < 2 ^ 18 && s.windowFree 64 (d.at 24 4) &&
      ok (exec (.vfConfig d) s) (fun t => t.on .vfWindowValid .m0 64 && t.rd .vfOpsMax .m0 64 = 9)) := by decide +kernel

theorem met_AdminRingsAndFunctionResets :
    at_ (up [(.hostSqL, .m0, 0, 6), (.hostCqL, .m0, 0, 12), (.hostEqL, .m0, 0, 6), (.hostSqLo, .m0, 0, 0x1000)]) (fun s => !s.adminBad &&
      !s.on .hostAdminReady && ok (exec (.adminEn true) s) (fun t => t.rings.map (fun q => (q.1, q.2.cls)) = [(0, 0), (1, 1), (2, 2)]) &&
      at_ (s.wr .hostCqL .m0 0 13) (fun s => s.adminBad && ok (exec (.adminEn true) s) (fun t => t.on .hostAdminErr && t.rings = []))) &&
    at_ { ringed 0 2 0 0 with inflight := [⟨0, dsc 0 0 0 0 0 100 2⟩, ⟨0, dsc 0 0 0⟩] } (fun s =>
      ok (exec (.adminEn false) s) (fun t => t.rings = []) && ok (exec .hostReset s) (fun t => t.rings = []) &&
      at_ (s.wr .numVfs .m0 0 2) (fun s =>
        ok (exec (.vfFlr 1) s) (fun t => t.inflight = [⟨0, dsc 0 0 0⟩] && (Cells.find 100 t.rings).isNone) &&
        ok (exec .vfDisable s) (fun t => t.rd .numVfs = 0 && (Cells.find 100 t.rings).isNone && t.rings.length = 4))) &&
    ok (exec .pcieLinkUp (put State.reset [(.bootStarted, .m0, 0, 1)])) (fun t => t.on .pcieUp) := by decide +kernel

/-! Timing. -/

theorem met_TimingCandidatesFollowTheirInputs_inputs :
    at_ (up [(.timRequalS, .m0, 0, 255), (.candActive, .m0, 1, 1), (.candQualified, .m0, 1, 1), (.cselSelEn, .m0, 3, 1),
      (.candQlLast, .m0, 6, 4), (.candQlRun, .m0, 6, 2), (.candQlTimeout, .m0, 6, 1)]) (fun s => s.candMayBe 0 && !s.on .candActive .m0 0 &&
      ok (exec (.candidateActive 0) s) (fun t => t.on .candActive .m0 0 && t.rd .candRequalLeftS .m0 0 = 255) &&
      ok (exec (.candidateInactive 1) s) (fun t => !t.on .candActive .m0 1 && !t.on .candQualified .m0 1) &&
      ok (exec (.qlReceived 13 9) s) (fun t => t.rd .candRxQl .m0 13 = 9) &&
      ok (exec (.qlReceived 6 4) s) (fun t => t.rd .candRxQl .m0 6 = 4 && !t.on .candQlTimeout .m0 6) &&
      !s.crosscutCand 6 && ok (exec (.qlTimeout 6) (s.wr .candQlTimeout .m0 6 0)) (fun t => t.on .candQlTimeout .m0 6) &&
      ok (exec (.qlTimeout 5) s) (fun t => !t.on .candQlTimeout .m0 5) && answers s .m0 .cselLane 3 && s.rd .cselLane .m0 3 ≠ 47 &&
      ok (exec (.clkSelWrite 3 47 false) s) (fun t => t.rd .cselLane .m0 3 = 47 && !t.on .cselSelEn .m0 3) && !s.on .timXoLost &&
      ok (exec (.freqMeasureUpdate (List.replicate 14 7)) s) (fun t => t.rd .candFreqOff .m0 1 = 7 && t.rd .candFreqOff .m0 0 = 0) &&
      ok (exec (.freqMeasureUpdate (List.replicate 14 7)) (s.wr .timXoLost .m0 0 1)) (fun t => t.rd .candFreqOff .m0 1 = 0)) := by
  decide +kernel

theorem met_TimingCandidatesFollowTheirInputs_waits :
    at_ (up [(.candEn, .m0, 0, 1), (.candPrio, .m0, 0, 1), (.candActive, .m0, 0, 1), (.candQualified, .m0, 0, 1), (.candWasEn, .m0, 0, 1),
      (.candWtrRunning, .m0, 0, 1), (.timHold, .m0, 0, 1), (.timQlEn, .m0, 0, 0)]) (fun s => s.candBaseNow 0 && (s.candRank 0).isSome && !s.on .candWtrDue .m0 0 &&
      ok (exec (.wtrExpire 0) s) (fun t => t.on .candEligible .m0 0 && !t.on .candWtrRunning .m0 0) && answers s .m0 .candWtrClear 0 &&
      ok (exec (.wtrClear 0) s) (fun t => t.on .candEligible .m0 0 && !t.on .candWtrRunning .m0 0) &&
      ok (exec .holdoffExpire s) (fun t => !t.on .timHold)) := by decide +kernel

theorem met_TimingStateSwitchesAndPhaseSteps :
    at_ (up [(.timTstate, .m0, 0, 1), (.timSelCand, .m0, 0, 6), (.candFreqOff, .m0, 6, 2000)]) (fun s => s.dpllFollows && s.pullsIn &&
      ok (exec .dpllLocked s) (fun t => t.rd .timTstate = 2) &&
      ok (exec .dpllPhaseError s) (fun t => t.rd .timTstate = 1 && t.events = []) &&
      at_ (s.wr .candFreqOff .m0 6 2001) (fun s => !s.pullsIn && ok (exec .dpllLocked s) (fun t => t.rd .timTstate = 1))) &&
    at_ { up [(.timTstate, .m0, 0, 2), (.timHistS, .m0, 0, 30), (.timPstepPending, .m0, 0, 2 ^ 31 - 1)] with
        hist := List.replicate 30 5 } (fun s => s.dpllFollows && ok (exec .dpllPhaseError s) (fun t => t.rd .timTstate = 1) &&
      at_ (s.wr .timSwitching .m0 0 1) (fun s =>
        ok (exec .timSwitch s) (fun t => t.rd .timSwitches = 1 && !t.on .timSwitching) &&
        ok (exec .timSwitch (s.wr .timReturn .m0 0 1)) (fun t => t.rd .timSwitches = 0 && !t.on .timSwitching) &&
        ok (exec .dpllPhaseError s) (fun t => t.rd .timTstate = 2)) &&
      s.rd .timSelCand = 15 &&
      ok (exec .xoLost s) (fun t => t.on .timXoLost && t.rd .timTstate = 0 && t.events.any (·.reason == Reason.xoLost)) &&
      !s.on .timHold && !s.on .timSecVoid &&
      ok (exec (.historySecond (-3)) s) (fun t => t.hist = -3 :: List.replicate 29 5 && t.rd .timHistS = 30) &&
      answers s .m0 .timPstep 0 && ok (exec (.timPstep 1) s) (fun t => t.rd .timPstepPending = 2 ^ 31 - 1) &&
      ok (exec .phaseStepDone s) (fun t => t.rd .timPstepPending = 0)) := by decide +kernel

theorem met_PulseInputsSecondsAndOutputs :
    at_ { up [(.ppsRunIn, .m0, 0, 2), (.timPps1Valid, .m0, 0, 1), (.clkFreqHz, .m0, 0, 1000), (.clkFreqHz, .m0, 1, 999),
        (.clkFreqHz, .m0, 2, 800000000), (.clkFreqHz, .m0, 3, 800000001), (.ppsOffset, .m0, 2, 0xFFFFFFFF), (.ppsEn, .m0, 3, 1),
        (.ppsSquelchUnlocked, .m0, 3, 0), (.ppsMoved, .m0, 3, 0)] with tally := 2 ^ 68 - 1 } (fun s => !s.on .timPps0Valid &&
      ok (exec (.ppsInEdge 0 true false) s) (fun t => t.on .timPps0Valid && t.events.length = 1) &&
      ok (exec (.ppsInMissing 1) s) (fun t => !t.on .timPps1Valid && t.events.length = 1) &&
      ok (exec .internalSecond s) (fun t => t.rd .clkUse .m0 0 = 1000 && t.rd .clkUse .m0 1 = 0 && t.rd .clkUse .m0 2 = 800000000 &&
        t.rd .clkUse .m0 3 = 0 && t.rd .timPpsTallyOff = 2 ^ 20 - 1) &&
      answers s .m0 .ppsRealign 2 && answers s .m0 .ppsRealign 0 && ok (exec (.ppsRealign 2) s) (fun t => t.rd .ppsUse .m0 2 = 0xFFFFFFFF) &&
      ok (exec (.ppsRealign 1) s) (fun t => t.rd .ppsUse .m0 1 = s.rd .ppsUse .m0 1) && answers s .m0 .clkRealign 3 &&
      ok (exec (.clkRealign 3) s) (fun t => t.on .clkRealigning .m0 3) && s.ppsOpen 3 && !s.on .ppsMoved .m0 3 &&
      ok (exec (.ppsOutPulse 3) s) (fun t => t.rd .ppsLast .m0 3 = 2 ^ 68 - 1)) := by decide +kernel

/-! Power. -/

/-- A request of the host for some domains. -/
def preq (d : Desc) (target : Nat) (doms : List (Die × Nat)) (boundary : Option Nat := none) : PwrReq :=
  ⟨some ⟨0x30, d⟩, target, doms, false, false, boundary⟩

/-- A state in which a Sleep request for DEC domain 1 of M1 runs, the answer given. -/
def asked (ans : PwrAns) (boundary : Option Nat := none) (seen : Bool := false) : State :=
  let d := dsc (tgt .m1 1) 2 0
  { hosted (up []) with
    inflight := [⟨0x30, d⟩], pwr := some ⟨preq d 2 [(.m1, 1)] boundary, 0, [⟨.m1, 1, ans, seen⟩], none⟩ }

theorem met_PowerRequestsHandshakeAndRelease_queue :
    at_ (hosted (up [])) (fun s => let d := dsc (tgt .m1 1) 2 0
      !powerBad d && acceptsB s 0x30 d && s.has .m1 && s.reach .m1 && s.namedDoms d = [(.m1, 1)] && s.domSt .m1 1 = 0 &&
      ok (exec (.pwrReq d) s) (fun t => t.pwr = some ⟨preq d 2 [(.m1, 1)], 0, [⟨.m1, 1, .none, false⟩], none⟩ && t.compl = [])) &&
    at_ (asked .none) (fun s => let d := { dsc (tgt .m1 2) 2 0 with slot := 9 }
      acceptsB s 0x30 d && ok (exec (.pwrReq d) s) (fun t => t.pwrQ = [preq d 2 [(.m1, 2)]] && t.pwr = s.pwr)) := by decide +kernel

theorem met_PowerRequestsHandshakeAndRelease_answers :
    at_ (asked .none) (fun s => (s.pwr.any fun r => (s.refusal r.req .m1 1).isNone && !s.mustWait 2 .m1 1) &&
      ok (exec (.pwrRequest .m1 1) s) (fun t => t.pwr.any (fun r => r.doms.map (·.ans) = [.grant])) &&
      at_ (s.wr .fwSwapping .m1 1 1) (fun s => ok (exec (.pwrRequest .m1 1) s) (fun t => t.pwr.isSome)) &&
      ok (exec (.pwrTimeout .m1 1) { s with tally := 1024 * sfLen }) (fun t => t.pwr.isNone && t.releases = [(.m1, 1)] && t.domSt .m1 1 = 0)) &&
    at_ (asked .grant) (fun s => ok (exec (.pwrAnswer .m1 1) s) (fun t => t.pwr.any (·.enter == some 1))) &&
    at_ (asked (.refuse 5)) (fun s => ok (exec (.pwrAnswer .m1 1) s) (fun t => t.pwr.isNone && t.releases = [(.m1, 1)] &&
      t.events.map (·.reason) = [Reason.pwrRefused])) &&
    at_ { asked .grant (some 9) with tally := 5 * sfLen } (fun s => ok (exec (.pwrAnswer .m1 1) s) (fun t => t.pwr.isNone &&
      t.releases = [(.m1, 1)] && t.domSt .m1 1 = 0)) &&
    at_ (asked .delay) (fun s => !s.mustWait 2 .m1 1 && ok (exec (.domainGrant .m1 1) s) (fun t =>
      t.pwr.any (fun r => r.doms.map (·.ans) = [.grant]))) := by decide +kernel

theorem met_PowerRequestsHandshakeAndRelease_refusal :
    at_ (hosted (up [(.loopState, .f0, 0, 2)])) (fun s =>
      let r := preq (dsc (tgt .f0 0xA) 2 0) 2 [(.f0, 0xA)]
      let s : State := { s with pwr := some ⟨r, 0, [⟨.f0, 0xA, .none, false⟩], none⟩ }
      s.refusal r .f0 0xA = some 3 && s.reach .f0 &&
      ok (exec (.pwrRequest .f0 0xA) s) (fun t => t.pwr.any (fun r => r.doms.map (·.ans) = [.refuse 3]))) := by decide +kernel

theorem met_PowerRequestsHandshakeAndRelease_deadline :
    at_ { asked .grant (some 9) true with tally := 5 * sfLen } (fun s => 9 ≤ s.sf + 4 && (s.pwr.any (·.allGranted)) &&
      ok (exec .pwrDeadline s) (fun t => t.pwr.any (·.enter == some 9))) &&
    at_ { asked .delay (some 9) with tally := 5 * sfLen } (fun s => !(s.pwr.any (·.allGranted)) &&
      ok (exec .pwrDeadline s) (fun t => t.pwr.isNone && t.releases = [(.m1, 1)] && t.domSt .m1 1 = 0)) &&
    at_ { up [(.domBusy, .m1, 1, 1)] with releases := [(.m1, 1)] } (fun s =>
      ok (exec (.pwrRelease .m1 1) s) (fun t => !t.on .domBusy .m1 1 && t.releases = [])) := by decide +kernel

theorem met_DomainsEnterWakeAndTheLampBoardClears :
    at_ (asked .grant) (fun s => ok (exec .pwrEnter { s with pwr := s.pwr.map fun r => { r with enter := some 0 } }) (fun t =>
        t.pwr.isNone && t.domSt .m1 1 = 2) &&
      s.domSt .m1 1 ≠ 1 && ok (exec (.wakeSource .m1 1) s) (fun t => t.pwr.isNone && t.releases = [(.m1, 1)] && t.domSt .m1 1 = 0)) &&
    at_ { hosted (up [(.domState, .m1, 1, 2)]) with waking := some (preq (dsc (tgt .m1 1) 0 0) 0 [(.m1, 1)]) } (fun s =>
      ok (exec .domainWakeDone s) (fun t => t.waking.isNone && t.domSt .m1 1 = 0)) &&
    at_ (up [(.domState, .m1, 1, 1), (.lampValid, .m0, 63, 1), (.pwrRefusals, .m0, 0, 4)]) (fun s => s.pwr.isNone &&
      ok (exec (.wakeSource .m1 1) s) (fun t => t.domSt .m1 1 = 0) &&
      ok (exec .lampClear s) (fun t => !t.on .lampValid .m0 63 && t.rd .pwrRefusals = 0)) := by decide +kernel

/-- Codes of the auxiliary converter as temperatures in 0.125 °C (R581): 85 °C, and 100 °C. -/
theorem test_temp_codes : (tempOfCode 2384).toInt = 85 * 8 ∧ (tempOfCode 2624).toInt = 100 * 8 := by decide +kernel

/-- Every supply channel of a die read once, with a code. -/
def supplied (d : Die) (code : Nat) : List (Fld × Die × Nat × Nat) :=
  (List.range 12).flatMap fun k => [(.supSum, d, k, code), (.supCount, d, k, 1)]

theorem met_GrantsTakeEffectAboveFloorsAndLevelsFollowTemperature_grants :
    at_ (up [(.carNlFloor, .m0, 0, 12), (.domState, .f1, Dom.nlc1, 2), (.nlcXiAuto, .f0, 0, 0),
      (.nlcXiAuto, .f1, 0, 0), (.nlcXiAuto, .f2, 0, 0), (.nlcXiAuto, .f3, 0, 0)]) (fun s =>
      at_ (put s (supplied .m1 100)) (fun s => s.supplyOf .m1 = some 9 &&
        ok (exec (.budgetInterval []) s) (fun t => t.rd .pdiePDie .m0 Die.m1.code = 9 && !t.on .pdieStale .m0 Die.m1.code)) &&
      s.sf % 256 = 0 && (s.supplyOf .f0).isNone && !s.on .supGood .f0 &&
      ok (exec (.budgetInterval []) s) (fun t => t.grants.isSome && t.rd .pdiePDie .m0 Die.f0.code = maxDie .f0) &&
      ok (exec (.budgetInterval []) { s with tally := sfLen }) (fun t => t.grants.isNone) &&
      (Die.all.all fun d => !s.on .thermFast d) && s.rd .carCapFloor .m0 0 = 4 &&
      at_ { s with grants := some ⟨[5, 63, 0, 0], [3, 9, 0, 0], [64, 0, 0, 0], [2 ^ 14 - 1, 0], [31, 0]⟩ } (fun s =>
        ok (exec .grantApply s) (fun t => t.grants.isSome && t.rd .carStepsGrant .m0 0 = s.rd .carStepsGrant .m0 0) &&
        ok (exec .grantApply { s with tally := sfLen }) (fun t =>
          t.rd .carStepsGrant .m0 0 = 12 && t.rd .carStepsGrant .m0 1 = 16 && t.rd .carCapGrant .m0 0 = 4 && t.rd .carCapGrant .m0 1 = 9 &&
          t.rd .carSurveyDuty .m0 0 = 64 && t.rd .pmillOtGrant .m0 0 = 2 ^ 14 - 1 && t.rd .pmillAssayK .m0 0 = 31))) := by decide +kernel

theorem met_GrantsTakeEffectAboveFloorsAndLevelsFollowTemperature_levels :
    at_ (up [(.tempCode, .m1, 0, 2624), (.tempGood, .m1, 0, 1), (.binMiss, .b1, 0, 3), (.pdieTemp, .m0, Die.b1.code, 760)]) (fun s =>
      s.has .m1 && !s.on .tripped .m1 && s.on .tempGood .m1 &&
      ok (exec (.thermalCheck .m1) s) (fun t => t.rd .pdieTemp .m0 Die.m1.code = 800 && t.level .m1 = 2) && s.rd .binMiss .b1 < 4 &&
      ok (exec (.thermalCheck .b1) s) (fun t => t.level .b1 = s.levelAt 0 (s.tempOf .b1)) &&
      !s.dieInReset .b1 && !s.domDead .b1 Dom.binCtrl && s.reach .b1 &&
      ok (exec (.binTempReport 1 2385 0) s) (fun t => t.on .binRefresh2x .b1) &&
      ok (exec (.binTempReport 1 0 2384) s) (fun t => !t.on .binRefresh2x .b1 && t.rd .pdieTemp .m0 Die.b1.code = 680) &&
      ok (exec (.binTempReport 1 2385 0) (put s [(.winzLinkUp, .b1, 0, 0), (.winzLinkUp, .m1, 1, 0)])) (fun t => t.on .binRefresh2x .b1)) := by
  decide +kernel

/-! Memory. -/

/-- A memory descriptor: memory, address in it, host address, length. -/
def mdsc (t : Die) (mem addr len : Nat) : Desc := dsc (tgt t) mem (addr + 2 ^ 64 * 0x9000 + 2 ^ 128 * len)

theorem met_HostAndPartialMemoryAccesses_host :
    at_ { hosted (up []) with memory := [(memIx .m1 0 * 2 ^ 34 + 15, 0xAB)], poison := [(memIx .m1 0 * 2 ^ 32 + 2, 1)] } (fun s =>
      let d := mdsc .m1 0 15 2
      !memBad d && servesB s .m1 (memDom .m1 0) && !s.marching .m1 0 true && acceptsB s 0x10 d && s.poisoned (memIx .m1 0) 2 &&
      ok (exec (.memRead d false []) s) (fun t => ended t d .uncorrectable 2 && t.hostByte 0x9000 = 0xAB && t.hostByte 0x9001 = 0) &&
      at_ { s with poison := [] } (fun s => ok (exec (.memRead d false []) s) (fun t => ended t d .ok 2) && acceptsB s 0x11 d && !regionBarred d &&
        ok (exec (.memWrite d [1, 2] [] false []) s) (fun t => ended t d .ok 2 && t.memByte (memIx .m1 0) 15 = 1 &&
          t.memByte (memIx .m1 0) 16 = 2 && t.lineValid (memIx .m1 0) 0 && t.memByte (memIx .m1 0) 14 = 0)) &&
      at_ { s with marches := [⟨.m1, 0, true, false, ⟨0x12, dsc (tgt .m1) 256 0⟩⟩] } (fun s => acceptsB s 0x10 d && s.testMode .m1 0 &&
        !s.marching .m1 0 true && ok (exec (.memRead d true []) s) (fun t => ended t d .retry && t.hostMem = []))) := by decide +kernel

theorem met_HostAndPartialMemoryAccesses_partial :
    at_ { up [] with poison := [(memIx .f0 6 * 2 ^ 32 + 5, 1)] } (fun s => (memShape .f0 6).any (fun g => g.bytes == 8 && decide (5 < g.words)) &&
      s.memUp .f0 6 && ok (exec (.partialMemoryWrite .f0 6 5 0 [1, 2, 3, 4, 5, 6, 7, 8] none) s) (fun t =>
        !t.poisoned (memIx .f0 6) 5 && t.memByte (memIx .f0 6) 47 = 8) &&
      ok (exec (.partialMemoryWrite .f0 6 5 1 [1, 2, 3, 4, 5, 6, 7] none) s) (fun t =>
        t.poisoned (memIx .f0 6) 5 && t.memory = [] && t.rd .memPartialRefused .f0 = 1) &&
      ok (exec (.partialMemoryWrite .f0 6 4 7 [9] none) s) (fun t => t.memByte (memIx .f0 6) 39 = 9)) := by decide +kernel

theorem met_RingContextRegionIsNotWritten :
    at_ (hosted (up [])) (fun s => let low := mdsc .m0 0 (8 * 1835008 - 1) 1; let edge := mdsc .m0 0 (8 * 1835008 - 1) 2
      let top := mdsc .m0 0 (8 * 2097152 - 1) 1
      !memBad edge && acceptsB s 0x11 edge && servesB s .m0 (memDom .m0 0) && memLen edge = 2 &&
      (8 * 1835008 - 1 + 1) / 8 = 1835008 && ok (exec (.memWrite edge [1, 2] [] false []) s) (fun t => ended t edge .notPermitted && t.memory = []) &&
      !memBad top && ok (exec (.memWrite top [1] [] false []) s) (fun t => ended t top .notPermitted) &&
      ok (exec (.memWrite low [1] [] false []) s) (fun t => ended t low .ok 1)) := by decide +kernel

/-- The edges of the barred ranges of the ore bins (R662). -/
theorem met_RingContextRegionIsNotWritten_bins :
    at_ (hosted (up [])) (fun s => [(Die.b0, 0x1DFFFFFFF, false), (.b0, 0x1E0000000, true), (.b1, 0x1E0FFFFFF, false),
      (.b1, 0x1E1000000, true), (.b0, 0x37FFFFFFF, true), (.b1, 0x380000000, false)].all fun (t, a, barred) =>
        let d := mdsc t 0x20 a 1
        !memBad d && acceptsB s 0x11 d && servesB s t (memDom t 0x20) && memLen d = 1 && d.mill = t && d.at 24 8 = a &&
        ok (exec (.memWrite d [1] [] false []) s) (fun u => ended u d (if barred then .notPermitted else .ok) (if barred then 0 else 1))) := by
  decide +kernel

/-- A live word 9 of the scratchpad of M0, with an entry in the error table. -/
def live : State :=
  { up [(.ceValid, .m0, 15, 1), (.ceMemId, .m0, 15, 0), (.ceAddress, .m0, 15, 9), (.ceHitCount, .m0, 15, 2), (.memCeTotal, .m0, 0, 7)] with
    memValid := [(memIx .m0 0 * 2 ^ 32 + 1, 1)] }

theorem met_MemoryErrorsLoggedTestedAndFreed_detected :
    at_ live (fun s => (s.wordLive .m0 0 9).isSome && !s.poisoned (memIx .m0 0) 9 && s.ceEntry .m0 0 9 = some 15 &&
      ok (exec (.ceDetected .m0 0 9 5) s) (fun t => t.rd .memCeTotal .m0 = 8 && t.rd .ceHitCount .m0 15 = 3) &&
      ok (exec (.ueDetected .m0 0 9) s) (fun t => t.poisoned (memIx .m0 0) 9 && t.rd .memUeTotal .m0 = 1 &&
        t.canary.map (fun c => (c.mem, c.addr)) = [(0, 9)]) &&
      answers s .m0 .memCeFree 0 && ok (exec (.ceFree .m0 0x8000) s) (fun t => !t.on .ceValid .m0 15) &&
      ok (exec (.ceFree .m0 0x8000) (s.wr .ceCanaryState .m0 15 1)) (fun t => t.on .ceValid .m0 15) &&
      answers s .m0 .memCntClear 0 && ok (exec (.memCntClear .m0) s) (fun t => t.rd .memCeTotal .m0 = 0)) := by decide +kernel

/-- A word of bank 9 of memory 0 whose cells are sound but that read wrongly once, and one with a bit stuck at 1 (R570). -/
def soft (bank : Nat) : FaultyWord := ⟨0, bank, 0, 0, 0, 0, 0, [⟨0, 1, 7, none⟩]⟩
def stuckAt (bank : Nat) (row : Nat := 0) (col : Nat := 0) : FaultyWord := ⟨0, bank, row, col, 0, 4, 4, []⟩

/-- A read that fails only while SP_BUSY shows counts by its repeat (R552). -/
theorem test_repeat : failsCanary ⟨0, 0, 0, 0, 0, 0, 0, [⟨0, 1, 7, some (background 1 72)⟩, ⟨1, 1, 7, none⟩]⟩ 72 = false ∧
    failsCanary ⟨0, 0, 0, 0, 0, 0, 0, [⟨0, 1, 7, some 7⟩, ⟨1, 1, 7, none⟩]⟩ 72 = true := by decide +kernel

theorem met_MemoryErrorsLoggedTestedAndFreed_canary :
    at_ { live with canary := [⟨.m0, 0, 0, 0, 9, false⟩] } (fun s => s.wordTests .m0 = [⟨.m0, 0, 0, 0, 9, false⟩] &&
      ok (exec (.canaryStart .m0) s) (fun t => t.canary = [⟨.m0, 0, 0, 0, 9, true⟩] && t.on .memCanaryBusy .m0)) &&
    at_ { live with canary := [⟨.m0, 0, 0, 0, 9, true⟩] } (fun s =>
      ok (exec (.canaryDone .m0 0 0 (soft 9) false false) s) (fun t => t.canary = [] && t.rd .ceHitCount .m0 15 = 0 && t.rd .ceCanaryState .m0 15 = 2) &&
      (memShape .m0 0).any (fun g => !failsCanary (soft 9) g.raw && failsCanary (stuckAt 9) g.raw &&
        s.freeSpare (memIx .m0 0) (g.rowOf 9).1 = some 0) &&
      ok (exec (.canaryDone .m0 0 0 (stuckAt 9) false false) s) (fun t => t.canary = [] && t.rowMap.length = 1 && t.sparesTaken (memIx .m0 0) 9 = 1) &&
      at_ { s with spareRows := [(memIx .m0 0 * 1024 + 9, 15)] } (fun s => (s.freeSpare (memIx .m0 0) 9).isNone &&
        ok (exec (.canaryDone .m0 0 0 (stuckAt 9) false false) s) (fun t => t.rowMap = [] && t.events.any (·.reason == Reason.spareExhausted)))) &&
    at_ { live with canary := [⟨.f0, 4, 65, 0, 0, true⟩] } (fun s =>
      ok (exec (.canaryDone .f0 4 65 (soft 0) false false) s) (fun t => t.canary = [] && t.events.any (·.reason == Reason.canaryDone))) &&
    at_ (up [(.fwRunning, .m0, 1, 1)]) (fun s => s.leRuns .m0 1 63 && !s.leRuns .m0 1 64 && !s.on .leSpareUsed .m0 1 &&
      ok (exec (.leLockstep .m0 1 63) s) (fun t => t.rd .lespareLockstepMismatch .m0 1 = 1 && t.on .leSpareUsed .m0 1 &&
        t.canary.map (·.idx) = [191])) := by decide +kernel

theorem met_MarchesRunReportAndRepair :
    at_ { hosted (up []) with memory := [(memIx .f0 0 * 2 ^ 34 + 4, 1), (memIx .f1 0 * 2 ^ 34 + 4, 2)] } (fun s => let d := dsc (tgt .f0) 0 0
      !dieTargetBad d && (memShape .f0 0).isSome && acceptsB s 0x12 d && servesB s .f0 (memDom .f0 0) &&
      !(memUsers .f0 0).any (s.trafficOn .f0) && clusterOf .f0 (memDom .f0 0) = none && !s.on .memMarchBusy .f0 &&
      ok (exec (.marchRun d) s) (fun t => t.marches = [⟨.f0, 0, false, false, ⟨0x12, d⟩⟩] && t.on .memMarchBusy .f0) &&
      at_ { s with marches := [⟨.f0, 0, false, false, ⟨0x12, d⟩⟩], inflight := [⟨0x12, d⟩] } (fun s =>
        ok (exec (.marchDone .f0 ((List.range 5).map fun c => stuckAt 31 259 c)) s) (fun t => ended t d .ok (1 + 2 ^ 32 * 5) &&
          t.memByte (memIx .f0 0) 4 = 0 && t.memByte (memIx .f1 0) 4 = 2 && t.rowMap = [] && t.events.map (·.reason) = [Reason.marchFail])) &&
      at_ { s with marches := [⟨.f0, 0, true, true, ⟨0x12, d⟩⟩], inflight := [⟨0x12, d⟩] } (fun s =>
        (memShape .f0 0).any (fun g => decide (7 < g.rows)) && s.freeSpare (memIx .f0 0) 31 = some 0 &&
        (failRows .f0 true [stuckAt 31 7]).length = 1 &&
        ok (exec (.marchDone .f0 [stuckAt 31 7]) s) (fun t => ended t d .ok (1 + 2 ^ 16 + 2 ^ 32) && t.rowMap.length = 1 &&
          t.memByte (memIx .f0 0) 4 = 1))) := by decide +kernel

/-! Boot, power loss and resets. -/

/-- A boot image that passes every check of the part, but for the check of its signature. -/
def img (sig : Bool) : BootImage := ⟨0x5652584F, 1, 8, 4, 0, 0, 0, 0, sig, true, true, [], none, none⟩

theorem met_BootSelectsAnImageAndReadiesTheFirmware_rise :
    at_ State.reset (fun s => !s.on .bootStarted && s.rd .pkgOff = 0 && !s.on .railBad .m0 && s.bootCheck (img true) = 0 &&
      s.bootCheck (img false) = 4 &&
      ok (exec (.porstRise ⟨0, 9, 3⟩ (img true) (img false)) s) (fun t => t.on .bootReady && t.rd .svnRunning = 4 && t.rd .chipPkgId = 9) &&
      ok (exec (.porstRise ⟨3, 9, 3⟩ (img false) (img true)) s) (fun t => t.on .bootReady && t.on .chipBootFallback && t.rd .chipBootFailReason = 4) &&
      ok (exec (.porstRise ⟨0, 9, 3⟩ (img false) (img false)) s) (fun t => t.on .chipBootFailed && !t.on .bootReady && t.rd .chipSecFailReason = 4) &&
      ok (exec (.porstRise ⟨1, 9, 3⟩ (img false) (img true)) s) (fun t => t.on .chipBootFailed && !t.on .bootReady) &&
      ok (exec (.porstRise ⟨2, 9, 3⟩ (img true) (img true)) s) (fun t => !t.on .bootReady && t.bootImage.isNone)) := by decide +kernel

theorem met_BootSelectsAnImageAndReadiesTheFirmware_ready :
    at_ (put State.reset [(.bootStarted, .m0, 0, 1), (.chipBootFailed, .m0, 0, 1)]) (fun s => !s.on .hostFwReady &&
      ok (exec (.i2cRecoveryLoad (img true)) s) (fun t => t.on .bootReady && !t.on .chipBootFailed)) &&
    at_ (put State.reset [(.bootReady, .m0, 0, 1)]) (fun s => !s.on .surfEverHeld &&
      ok (exec (.fwReady []) s) (fun t => t.on .hostFwReady && t.tallyOn && t.tally = 0 && t.on .tallyOriginLost)) &&
    at_ (put State.reset [(.bootReady, .m0, 0, 1), (.surfEverHeld, .m0, 0, 1), (.surfHeldSf, .m0, 0, 50)]) (fun s =>
      ok (exec (.fwReady []) s) (fun t =>
        t.tally = (50 + wakeAdvance (s.rd .surfTicks) (s.rd .surfRate) (s.on .surfOsc)) * sfLen)) &&
    at_ (up [(.svnRunning, .m0, 0, 2 ^ 32 - 1), (.chipSvnFused, .m0, 0, 3)]) (fun s => s.on .pcieUp &&
      ok (exec .svnCommit s) (fun t => t.rd .chipSvnFused = 2 ^ 32 - 1)) := by decide +kernel

theorem met_PowerLossTripAndWake_losses :
    at_ { hosted (up []) with tallyOn := true, tally := 7 * sfLen + 9, keys := [(5, 6)], memory := [(3, 4)] } (fun s => s.rd .pkgOff ≠ 2 &&
      ok (exec .porstFall s) (fun t => t.on .chipPor && !t.tallyOn && t.tally = 7 * sfLen && t.rd .surfHeldSf = 7 && t.rings = [] && t.keys = []) &&
      s.has .f2 && !s.on .railBad .f2 && ok (exec (.railFault .f2) s) (fun t => t.dieInReset .f2 && t.tallyOn) &&
      ok (exec (.railFault .m0) s) (fun t => !t.tallyOn && t.memory = []) &&
      ok (exec .surfacePowerLoss s) (fun t => t.tally = 0 && t.rd .chipConfig = 8) &&
      ok (exec (.thermalTrip .f2) s) (fun t => t.on .tripped .f2 && t.rd .chipTripDie = 4 && t.tallyOn) &&
      ok (exec (.thermalTrip .m0) s) (fun t => t.rd .pkgOff = 2 && !t.tallyOn) &&
      ok (exec .surfClkLost s) (fun t => t.on .surfOsc && t.on .tallySurfClkLost)) := by decide +kernel

theorem met_PowerLossTripAndWake_wakes :
    at_ (up [(.railBad, .f2, 0, 1), (.inReset, .f2, 63, 1)]) (fun s => !s.on .tripped .f2 && s.resets = [] &&
      ok (exec (.railRestored .f2) s) (fun t => !t.dieInReset .f2 && t.domSt .f2 0 = 0)) &&
    at_ (up [(.pkgOff, .m0, 0, 1), (.railEn, .m0, 0, 1)]) (fun s => ok (exec .packagePowerOff s) (fun t => t.rd .pkgOff = 2 && !t.on .railEn) &&
      ok (exec .wake s) (fun t => t.on .wakeLatch && t.rd .pkgOff = 1)) &&
    at_ (put State.reset [(.pkgOff, .m0, 0, 2), (.wakeLatch, .m0, 0, 1)]) (fun s => ok (exec .wake s) (fun t => t.on .railEn) &&
      ok (exec .railDischarged s) (fun t => t.on .railEn && !t.on .wakeLatch)) &&
    at_ (put State.reset [(.pkgOff, .m0, 0, 2), (.railEn, .m0, 0, 1)]) (fun s => ok (exec .railTimeout s) (fun t => t.on .chipRailFault) &&
      ok (exec .wakeRailsGood s) (fun t => t.rd .pkgOff = 0 && t.on .chipWake)) := by decide +kernel

theorem met_ResetsOfDomainsDiesAndThePackage_begin :
    at_ (hosted (up [(.incarnation, .f1, 3, 15)])) (fun s => let d := dsc (tgt .f1 3) 0 0; let die := dsc (tgt .f1) 5 0; let pkg := dsc 0 2 0
      !s.resetBad d && acceptsB s 0x31 d && s.reach .f1 && !s.resetHeld .f1 && Die.f1.domains.all (fun k => s.domSt .f1 k ≤ 1) &&
      ok (exec (.reset d) s) (fun t => t.on .inReset .f1 3 && t.rd .incarnation .f1 3 = 0 && t.resets.length = 1) &&
      !s.resetBad die && ok (exec (.reset die) s) (fun t => t.dieInReset .f1 && t.resets = [⟨⟨0x31, die⟩, .f1, 63, true⟩]) &&
      at_ { s with resets := [⟨⟨0x31, die⟩, .f1, 63, true⟩] } (fun s => ok (exec (.reset d) s) (fun t => ended t d .retry)) &&
      at_ { s with heldResets := [⟨0x31, die⟩] } (fun s => ok (exec (.reset d) s) (fun t => t.heldResets = [⟨0x31, die⟩, ⟨0x31, d⟩])) &&
      !s.resetBad pkg && ok (exec (.reset pkg) s) (fun t => t.rings = [] && t.on .chipBootFailed) &&
      ok (exec (.reset pkg) { s with bootImage := some (img true) }) (fun t => t.on .bootReady)) := by decide +kernel

theorem met_ResetsOfDomainsDiesAndThePackage_end :
    at_ (hosted (up [])) (fun s => let d := dsc (tgt .f1 3) 0 0; let die := dsc (tgt .f1) 1 0
      ok (exec .resetHoldEnd { s with heldResets := [⟨0x31, d⟩] }) (fun t => t.heldResets = [] && t.on .inReset .f1 3) &&
      at_ { s.wr .inReset .f1 3 1 with resets := [⟨⟨0x31, d⟩, .f1, 3, false⟩], inflight := [⟨0x31, d⟩] } (fun s =>
        ok (exec (.domainResetDone .f1 3) s) (fun t => t.resets = [] && !t.on .inReset .f1 3 && ended t d .ok)) &&
      at_ { s.wr .inReset .f1 63 1 with resets := [⟨⟨0x31, die⟩, .f1, 63, false⟩], inflight := [⟨0x31, die⟩] } (fun s => !s.on .railBad .f1 &&
        ok (exec (.resetDone .f1 []) s) (fun t => t.resets = [] && !t.dieInReset .f1 && ended t die .ok &&
          t.events.any (·.reason == Reason.resetDone)))) := by decide +kernel

theorem met_ClusterFirmwareUpdatesAndMailbox :
    at_ (hosted (up [(.chipSvnFused, .m0, 0, 5), (.fwRunning, .f1, 0, 1), (.fwSwapping, .f1, 5, 1)])) (fun s =>
      let d := dsc (tgt .f1 0xA) 131072 (5 * 2 ^ 64); let old := dsc (tgt .f1 0xA) 131072 (4 * 2 ^ 64); let m := dsc (tgt .f1 0xA) 1 0
      !clusterBad d && servesB s .f1 0xA && acceptsB s 0x32 d && d.clearFrom 36 && ok (exec (.fwUpdate d) s) (fun t => t.fwOps = [⟨0x32, d⟩]) &&
      acceptsB s 0x33 m && ok (exec (.mailbox m) s) (fun t => t.fwOps = [⟨0x33, m⟩]) &&
      at_ { s with fwOps := [⟨0x32, d⟩], inflight := [⟨0x32, d⟩] } (fun s => s.fwOp 0x32 .f1 0 = some ⟨0x32, d⟩ && !s.on .viewFrozen .f1 &&
        ok (exec (.fwStaged .f1 0 0 true) s) (fun t => ended t d .ok && t.rd .fwBankSvn .f1 0 = 5) &&
        ok (exec (.fwStaged .f1 0 0 false) s) (fun t => ended t d .authFail && t.rd .fwBankSvn .f1 0 = 0) &&
        ok (exec (.fwStaged .f1 0 1 true) s) (fun t => ended t d .authFail && t.rd .fwBankSvn .f1 0 = 0) &&
        ok (exec (.fwStaged .f1 0 0 true) (s.wr .viewFrozen .f1 0 1)) (fun t => ended t d .retry && t.rd .fwBankSvn .f1 0 = 0)) &&
      ok (exec (.fwStaged .f1 0 0 true) { s with fwOps := [⟨0x32, old⟩], inflight := [⟨0x32, old⟩] }) (fun t => ended t old .authFail) &&
      ok (exec (.fwSwapped .f1 5) s) (fun t => t.on .fwRunning .f1 5) &&
      at_ { s with fwOps := [⟨0x33, m⟩], inflight := [⟨0x33, m⟩] } (fun s => ok (exec (.mailboxAnswer .f1 0 99) s) (fun t => ended t m .ok 99) &&
        ok (exec (.mailboxTimeout .f1 0) s) (fun t => ended t m .retry))) := by decide +kernel

/-! The auxiliary converters. -/

theorem met_AuxiliaryConversionsAndCalibration :
    at_ (up [(.auxRegMode, .f0, 0, 1), (.auxRefEn, .f0, 0, 1), (.loopState, .f0, 1, 2)]) (fun s =>
      let cal := s.wr .auxCalBusy .f0 0 1
      let full := { s with auxWait := List.replicate 16 ⟨.f0, 0, 1, false, 0⟩ }
      s.auxUp .f0 && !s.on .auxCalBusy .f0 && !s.auxKept .f0 4 && !s.auxKept .f0 1024 && s.loopAsks .f0 1 && !s.loopAsks .f0 0 &&
      ok (exec (.auxInjectRequest .f0 0 9) s) (fun t => t.auxRun.map (fun c => (c.who, c.ch)) = [(0, 9)]) &&
      ok (exec (.auxInjectRequest .f0 2 9) s) (fun t => t.auxRun.map (fun c => (c.who, c.ch)) = [(2, 1)] && t.rd .biasAsked .f0 1 = 1) &&
      ok (exec (.auxInjectRequest .f0 2 9) full) (fun t => t.rd .auxInjDropped .f0 = 1 && t.auxWait.length = 16) &&
      cal.loopAsks .f0 1 && ok (exec (.auxInjectRequest .f0 2 9) cal) (fun t => t.auxRun = []) &&
      ok (exec (.auxConversionEnd .f0 0x900 true) { s with auxRun := [⟨.f0, 3, 8, false, 4⟩] }) (fun t => t.auxQ.map (·.code) = [0xFFF]) &&
      ok (exec (.auxConversionEnd .f0 0x900 true) { s with auxRun := [⟨.f0, 3, 30, false, 4⟩] }) (fun t => t.auxQ.map (·.code) = [0]) &&
      ok (exec (.auxConversionEnd .f0 0x900 true) { s.wr .auxQueueInj .f0 0 0 with auxRun := [⟨.f0, 1, 8, false, 4⟩] }) (fun t => t.auxQ = []) &&
      ok (exec (.auxConversionEnd .f0 0x700 false) { s with auxRun := [⟨.f0, 0, 8, false, 4⟩] }) (fun t =>
        t.rd .tempCode .f0 = 0x700 && t.on .tempGood .f0) &&
      answers s .f0 .auxRegStart 0 && ok (exec (.regStart .f0) s) (fun t => t.auxRun.map (·.who) = [3]) &&
      ok (exec (.auxRegPeriod .f0) (s.wr .auxRegMode .f0 0 2)) (fun t => t.auxRun.map (·.who) = [3]) &&
      ok (exec (.refSettled .f0) s) (fun t => t.on .auxRefSettled .f0) && answers s .f0 .auxCal 0 &&
      ok (exec (.auxCal .f0) (s.wr .auxRefSettled .f0 0 1)) (fun t => t.on .auxCalBusy .f0) &&
      ok (exec (.auxCal .f0) (s.wr .auxRefSettled .f0 0 0)) (fun t => t.auxWait.map (·.who) = [5]) &&
      ok (exec (.auxCalDone .f0) cal) (fun t => !t.on .auxCalBusy .f0)) := by decide +kernel

theorem met_AuxiliaryResultsPoppedAndSampledTogether :
    at_ { hosted (up []) with auxQ := [⟨.f1, 5, 1, false, false, false, false, 0⟩, ⟨.f0, 4095, 31, true, false, false, false, 3 * sfLen + 2⟩] }
      (fun s => answers s .f0 .auxQResult 0 && !s.auxBound .f0 &&
        ok (exec (.auxQPop .f0) s) (fun t => t.readData = 4095 + 31 * 2 ^ 12 + 2 ^ 17 + 2 ^ 21 && t.auxQ.length = 1 && t.rd .auxQSfLow .f0 = 3) &&
        ok (exec (.auxQPop .f3) s) (fun t => t.readData = 0 && t.auxQ.length = 2)) &&
    at_ { hosted (up []) with tally := 5 * sfLen } (fun s => let d := dsc 0 0 (0xFFFFFFFFFF1FFFFF) 5
      sampleCh d .f0 = 0x1F && sampleCh d .f1 = 0xFF && acceptsB s 0x3B d && !s.passed d.pos && !s.farAhead d.pos &&
      ok (exec (.auxSample d) s) (fun t => t.auxSimul = some ⟨0x3B, d⟩) &&
      ok (exec (.auxSample d) { s with auxSimul := some ⟨0x3B, { d with slot := 8 }⟩ }) (fun t => ended t d .retry) &&
      at_ { s with tally := 5 * sfLen + 1 } (fun s => s.passed d.pos && ok (exec (.auxSample d) s) (fun t => ended t d .late)) &&
      at_ { s with auxSimul := some ⟨0x3B, d⟩, inflight := [⟨0x3B, d⟩] } (fun s => s.auxUp .f0 &&
        ok (exec (.auxSimulSample (List.replicate 8 (7, false))) s) (fun t => t.auxQ.map (fun e => (e.ch, e.code, e.simul)) = [(31, 0, true)] && ended t d .ok 1028) &&
        at_ (s.wr .domState .f0 Dom.auxm 3) (fun s => !s.auxUp .f0 &&
          ok (exec (.auxSimulSample []) s) (fun t => ended t d .targetUnpowered)))) := by decide +kernel
/-- The hosted package with every carrier in TRACK and a ring 9 of a class bound to a source. -/
def bound (cls kind index die : Nat) (l : List (Fld × Die × Nat × Nat) := []) : State :=
  let s := hosted (up l)
  { s with rings := s.rings ++ [(9, { Ring.new 0 cls 6 0x9000 0 0 true 0 0 0 0 with source := some (kind, index, die) })] }

theorem met_MonitorsAndRecordsOfSources_monitors :
    at_ { bound 3 2 5 0 [(.monSopThr, .m0, 1, 4), (.acqState, .f1, 0, 7), (.berBits, .m0, 1, 10), (.berErrs, .m0, 1, 2 ^ 24),
        (.lrxEntH, .m0, 1, 809), (.lrxCode, .m0, 1, 2), (.lrxAutoH, .m0, 1, 0), (.ppsTallyLive, .m0, 0, 512 * sfLen)] with tally := 512 * sfLen + 9 } (fun s =>
      s.hasCarrier 1 && s.acq 1 == 7 && ok (exec (.lineMonitorUpdate 1 0x1234 9) s) (fun t => t.rd .monPrefecBer .m0 1 = 10 ^ 7 &&
        t.rd .monDgdPs .m0 1 = 0x1234 && t.rd .monPdl .m0 1 = 9 && t.rd .monSf .m0 1 = 512 && t.rd .berBits .m0 1 = 0) &&
      ok (exec (.lineMonitorUpdate 1 0x1234 9) (s.wr .acqState .f1 0 6)) (fun t => t.rd .berBits .m0 1 = 0 && t.rd .monSf .m0 1 = 0) &&
      ok (exec (.lineMonitorUpdate 1 0x1234 9) { s with tally := 513 * sfLen }) (fun t => t.rd .berBits .m0 1 = 10) &&
      (s.ringFor 3 2 5 0).isSome && s.sopDue 1 &&
      ok (exec (.sopSample 1 1 2 3) s) (fun t => t.sopBuf = [(1, 512 * sfLen, [(1, 2, 3)])] && t.telem = [] &&
        ok (exec (.sopSample 1 1 2 3) t) (fun u => u.sopBuf = t.sopBuf)) &&
      at_ { s with sopBuf := [(1, 77, List.replicate 5 (1, 2, 3))] } (fun s =>
        ok (exec (.sopSample 1 4 5 6) s) (fun t => t.sopBuf = [(1, 77, List.replicate 5 (1, 2, 3) ++ [(4, 5, 6)])])) &&
      at_ { s with sopBuf := [(1, 77, List.replicate 6 (1, 2, 3))] } (fun s =>
        ok (exec (.sopSample 1 4 5 0x6FF) s) (fun t => t.sopBuf = [] && t.telem.map (fun r => (r.source, r.stamp, r.payload.take 42 |>.drop 36)) =
          [(5, 77, [4, 0, 5, 0, 0xFF, 6])])) &&
      s.sopRate 1 ≤ 40 && 40 < s.sopRate 65536 &&
      ok (exec (.sopRateMeasure 1 1) s) (fun t => t.rd .monSopRatePeak .m0 1 = s.sopRate 1 && t.events = []) &&
      ok (exec (.sopRateMeasure 1 65536) s) (fun t => t.rd .monSopRatePeak .m0 1 = s.sopRate 65536 && t.events.map (·.reason) = [Reason.sopFast])) := by
  decide +kernel

/-- A second of ODU container 0's path layer that has ended, judged, with its errored blocks of 100. -/
def closed (k : Nat) (near : Nat := 0) : PmSec :=
  ⟨0x200, 0, 1, false, k, some (k + 1), k, 100, near, 0, 0, 0, 0, false, false, false, true, false, false⟩

theorem pm_flags : (closed 9 15).ses && !(closed 9 14).ses && (closed 9 1).es && !(closed 9).es := by decide

theorem met_MonitorsAndRecordsOfSources_seconds :
    at_ { bound 3 2 0x200 0 [(.ppsTallyLive, .m0, 0, 40 * sfLen + 1)] with tally := 41 * sfLen } (fun s => s.pmLayer 0x200 0 1 &&
      (s.pmBoundary 0x200 0 41).2 = 41 &&
      ok (exec (.pmSecond 0x200 0 1 ⟨0, 0, 0⟩) s) (fun t => t.pmSecs.map (fun x => (x.edge, x.start, x.stop)) = [(41, 41, none)] &&
        ok (exec (.pmSecond 0x200 0 1 ⟨0, 0, 0⟩) t) (fun u => u.pmSecs = t.pmSecs)) &&
      ok (exec (.pmSecond 0x200 0 1 ⟨0, 0, 0⟩) { s with pmSecs := [{ closed 7 with stop := none, judged := false }] }) (fun t =>
        t.pmSecs.map (fun x => (x.edge, x.stop, x.judged)) = [(7, some 41, false), (41, none, false)]) &&
      ok (exec (.pmSecond 0x200 0 1 ⟨0, 0, 0⟩) { s with tally := 41 * sfLen - 1 }) (fun t => t.pmSecs = []) &&
      at_ { s with pmSecs := (List.range 11).map closed } (fun s =>
        ok (exec (.pmRecord 0x200 0 1) s) (fun t => t.pmSecs = (List.range 11).tail.map closed && t.telem.map (fun r => (r.recType, r.stamp)) = [(1, 0)]) &&
        ok (exec (.pmRecord 0x200 0 1) { s with rings := [] }) (fun t => t.pmSecs.length = 10 && t.telem = []) &&
        ok (exec (.pmRecord 0x200 0 1) { s with pmSecs := s.pmSecs.tail }) (fun t => t.pmSecs.length = 10))) &&
    at_ { bound 3 2 0x200 0 with telem := [⟨0x200, 0, 1, true, 3 * sfLen + 2, [7, 8]⟩] } (fun s => s.on .pcieUp &&
      (s.ringFor 3 2 0x200 0).any (fun q => q.1 == 9 && q.2.room) &&
      ok (exec (.telemetryWrite 0x200 0) s) (fun t => t.telem = [] && ((Cells.find 9 t.rings).any fun g => g.partIdx == 1) &&
        (List.range 19).map (fun k => t.hostByte (0x9000 + k)) = [1, 0x81, 0, 2, 3, 0, 0, 0, 0, 0, 0, 0, 2, 0, 0, 0, 7, 8, 0])) := by decide +kernel

theorem met_AssayBatchesSnapshotsAndTagSeeds :
    at_ { up [(.assayBatchLen, .m0, 0, 3), (.assayEventId, .m0, 0, 0x11F0), (.assayEventId, .m0, 1, 0x1200), (.assayEventId, .m0, 2, 0x11F0)] with
        assay := [(0x11F0, 2 ^ 48 - 1)], tally := 5 * 1024 } (fun s => !s.on .assayBatchBusy && s.batchLen = 3 && s.assayLive 0x11F0 &&
      !s.assayLive 0x1200 && ok (exec (.assayBatch [3, 4, 1]) s) (fun t => t.on .assayBatchBusy && t.rd48 .assayCountLo .assayCountHi .m0 0 = 2 &&
        t.rd48 .assayCountLo .assayCountHi .m0 1 = 0 && t.rd .assayStamp .m0 0 = 5 &&
        ok (exec .assayBatchDone t) (fun t => !t.on .assayBatchBusy))) &&
    at_ { bound 3 2 0xD 0 with tally := sfLen } (fun s => let d := dsc 0 3 (0x1F0 + 2 ^ 16 * 9) 1
      acceptsB s 0x39 d && d.clearFrom 28 && s.has .m0 && s.has .m1 && !s.farAhead d.pos && !s.passed d.pos && (s.ringFor 3 2 0xD 0).isSome &&
      ok (exec (.assaySnap d) s) (fun t => t.assaySnap = some ⟨0x39, d⟩ && t.compl = []) &&
      ok (exec (.assaySnap d) { s with assaySnap := some ⟨0x39, { d with slot := 9 }⟩ }) (fun t => ended t d .retry) &&
      ok (exec (.assaySnap d) { s with tally := sfLen + 1 }) (fun t => ended t d .late) &&
      at_ { s with assaySnap := some ⟨0x39, d⟩, inflight := [⟨0x39, d⟩] } (fun s =>
        ok (exec (.assaySnapshot [[1, 2, 0, 0, 0, 0, 0, 0, 0], List.replicate 9 5]) s) (fun t => t.assaySnap = none && ended t d .ok && t.assayCount 0x1F0 = 1 && t.assayCount 0x1F1 = 2 &&
          t.assayCount 0x11F0 = 5) &&
        ok (exec (.assaySnapshot [List.replicate 9 1, List.replicate 9 5]) (s.wr .pcieUp .m0 0 0)) (fun t => t.assaySnap.isSome && t.on .snapTaken))) &&
    at_ (up [(.tagSeedPend, .m1, 0, 1), (.tagGen, .m1, 0, 9)]) (fun s => ok (exec (.tagSeedLoad 1) s) (fun t => t.rd .tagGen .m1 = 1 && !t.on .tagSeedPend .m1) &&
      ok (exec (.tagSeedLoad 0) s) (fun t => t.rd .tagGen .m1 = 9)) := by decide +kernel

/-- A SURVEY_ACQ of carrier 2: 10 bins, 2^10 superframes, max_wait 1. -/
def surv : Desc := dsc (tgt .f2) (10 + 10 * 4096) (1000 + 2 ^ 16) 1

theorem met_SurveysAndCapturesRunToTheirEnd_survey :
    at_ { bound 3 2 10 0 [(.acqState, .f2, 0, 7), (.carSurveyDuty, .m0, 2, 64)] with tally := sfLen } (fun s =>
      !dieTargetBad surv && surv.mill.isFace && surv.mill.carrier = 2 && surv.clearFrom 28 && acceptsB s 0x3A surv && servesB s .f2 Die.f2.anchor &&
      !s.passed surv.pos && ok (exec (.surveyAcq surv) s) (fun t => t.surveys = [⟨2, ⟨0x3A, surv⟩, 0⟩] && t.compl = []) &&
      at_ { s with surveys := [⟨2, ⟨0x3A, surv⟩, 1023⟩], inflight := [⟨0x3A, surv⟩] } (fun s => s.surveyActive 2 &&
        ok (exec (.surveyAccumulate 2) s) (fun t => t.surveys.map (·.count) = [1024]) &&
        ok (exec (.surveyAccumulate 2) (s.wr .carSurveyDuty .m0 2 1)) (fun t => t.surveys.map (·.count) = [1023]) &&
        ok (exec (.surveyDone 2 [] []) s) (fun t => t.surveys.length = 1) &&
        ok (exec (.surveyTimeout 2 [] []) { s with tally := 256 * sfLen }) (fun t => t.surveys.length = 1) &&
        ok (exec (.surveyTimeout 2 [] []) { s with tally := 257 * sfLen }) (fun t => t.surveys = [] && ended t surv .ok (1 + 2 ^ 24 + 2 ^ 25 * 1023)) &&
        ok (exec (.surveyDone 2 [1, 2] [⟨6, 60, 8, 9⟩]) { s with surveys := [⟨2, ⟨0x3A, surv⟩, 1024⟩] }) (fun t => t.surveys = [] &&
          ended t surv .ok (1 + 2 ^ 16 + 2 ^ 25 * 1024) && t.events.map (·.reason) = [Reason.surveyAnomaly]))) := by decide +kernel

/-- A CAPTURE of one lane of carrier 1 to host memory at 0x5000, 128 bytes. -/
def capt : Desc := dsc (tgt .f1) (0b1000100) (128 + 2 ^ 64 * 0x5000) 1

theorem met_SurveysAndCapturesRunToTheirEnd_capture :
    at_ { bound 7 3 1 0 with tally := sfLen } (fun s => !dieTargetBad capt && capt.mill.carrier = 1 && capt.clearFrom 40 && captureLanes capt = 1 &&
      !s.farAhead capt.pos && !s.captureNowhere capt 1 && acceptsB s 0x38 capt && !s.passed capt.pos && servesB s .f1 Dom.convRx &&
      ok (exec (.capture capt) s) (fun t => t.captures = [⟨1, ⟨0x38, capt⟩, false, 0, capt.pos, 0, 0, false⟩] && t.compl = []) &&
      at_ { s with captures := [⟨1, ⟨0x38, capt⟩, false, 0, capt.pos, 0, 0, false⟩], inflight := [⟨0x38, capt⟩] } (fun s =>
        ok (exec (.captureTrigger 1 8) s) (fun t => t.captures.map (fun c => (c.started, c.phi)) = [(true, 8)]) &&
        ok (exec (.captureDone 1) s) (fun t => t.captures.length = 1)) &&
      at_ { s with captures := [⟨1, ⟨0x38, capt⟩, true, 0, capt.pos, 64, 2 ^ 20, false⟩], inflight := [⟨0x38, capt⟩] } (fun s =>
        ok (exec (.captureSet 1 [6, 7] 64) s) (fun t => t.captures.map (fun c => (c.bytes, c.level)) = [(128, 2 ^ 20)] && t.hostByte 0x5041 = 7 &&
          t.hostByte 0x503F = 0 && ok (exec (.captureDone 1) t) (fun u => u.captures = [] && ended u capt .ok &&
            ((Cells.find 9 u.rings).any fun g => g.partIdx == 1) && u.hostByte 0x9000 = 1 && u.hostByte 0x9001 = 0x80)) &&
        ok (exec (.captureSet 1 [6, 7] 63) s) (fun t => t.captures.map (fun c => (c.bytes, c.cut)) = [(64, true)] && t.hostMem = [] &&
          t.events.map (·.reason) = [Reason.captureShed] && ok (exec (.captureDone 1) t) (fun u => ended u capt .shed 64)))) := by decide +kernel
/-- A SHIFT_COMMIT at an SF. -/
def com (sf : Nat) : Desc := dsc 0 0 0 sf

/-- A commit that has taken that descriptor, of the dies M0 and F0. -/
def cmt (sf : Nat) (replies : List (Die × Bool) := []) (go : Bool := false) : Commit :=
  ⟨⟨0x08, com sf⟩, sf, [0, 0, 0, 0], [(.m0, 0), (.f0, 0)], replies, go, [], [], [], [], [], [], [], false⟩

/-- The hosted package with a commit under way, at SF 10. -/
def during (c : Commit) (l : List (Fld × Die × Nat × Nat) := []) : State :=
  { hosted (up l) with commit := some c, inflight := [c.op], tally := 10 * sfLen }

theorem met_CommitsTakenPreparedAndAnswered_taken :
    at_ { hosted (up [(.shiftSeq, .m0, 0, 6)]) with tally := 10 * sfLen } (fun s => acceptsB s 0x08 (com 15) && acceptsB s 0x08 (com 14) &&
      acceptsB s 0x08 (com (10 + 2 ^ 26 + 1)) && !s.commitBad (com 15) && !s.commitBad (com 14) && s.commitBad (com (10 + 2 ^ 26 + 1)) &&
      s.liveDies.length = 8 &&
      ok (exec (.shiftCommit (com 15)) s) (fun t => (t.commit.any fun c => c.dies.length == 8 && c.target == 15) && t.on .prepareSent .b1 &&
        t.on .shiftPending && t.compl = [] && ok (exec (.shiftCommit (com 99)) t) (fun u => u.commit = t.commit && u.commitQ.length = 1)) &&
      ok (exec (.shiftCommit (com 14)) s) (fun t => t.commit = none && ended t (com 14) .late 6) &&
      ok (exec (.shiftCommit (com (10 + 2 ^ 26 + 1))) s) (fun t => t.commit = none && ended t (com (10 + 2 ^ 26 + 1)) .badDesc 6)) := by decide +kernel

theorem met_CommitsTakenPreparedAndAnswered_answered :
    at_ (during (cmt 15) [(.prepareSent, .f0, 0, 1)]) (fun s => s.live .f0 &&
      ok (exec (.shiftPrepare .f0) s) (fun t => t.rd .shiftAnswer .f0 = 1 && t.on .viewFrozen .f0) &&
      ok (exec (.shiftPrepare .f0) (s.wrOff .crLlrStep .f0 0 7)) (fun t => t.rd .shiftAnswer .f0 = 2 && !t.on .viewFrozen .f0) &&
      ok (exec (.shiftPrepare .f0) { s with loads := [⟨⟨9, com 1⟩, .f0, 0⟩] }) (fun t => t.on .prepareHeld .f0 && t.rd .shiftAnswer .f0 = 0) &&
      ok (exec (.shiftPrepare .f0) (s.wr .cancelSent .f0 0 1)) (fun t => t.on .prepareSent .f0 && t.rd .shiftAnswer .f0 = 0)) &&
    at_ { during (cmt 15 [(.m0, true)]) [(.shiftAnswer, .f0, 0, 1)] with tally := 11 * sfLen } (fun s => s.reach .f0 && s.commitQ = [] &&
      (s.commit.any fun c => !s.incChanged c) && ok (exec (.shiftAccept .f0) s) (fun t => t.commit = none && ended t (com 15) .late)) &&
    at_ (during (cmt 15) [(.shiftAnswer, .f0, 0, 2), (.shiftAnswer, .m0, 0, 1), (.shiftSeq, .m0, 0, 6)]) (fun s => s.reach .f0 && s.reach .m0 &&
      ok (exec (.shiftAccept .m0) s) (fun t => (t.commit.any fun c => c.replies == [(.m0, true)]) && t.rd .shiftAnswer .m0 = 0 &&
        t.commitQ = [] && (t.inflight.any (·.isFor (com 15))) &&
        ok (exec (.shiftAccept .f0) t) (fun u => u.commit = none && ended u (com 15) .badDesc 6 && u.on .cancelSent .m0 && u.on .cancelSent .f0))) := by
  decide +kernel

theorem met_GoAheadSwapsCancelAndCompletion_dies :
    at_ (during (cmt 14 [(.m0, true), (.f0, true)])) (fun s => (s.commit.any fun c => !s.incChanged c && s.announced c) &&
      ok (exec .commitDeadline s) (fun t => t.commit.any fun c => c.goSent && c.txLeft == [.m0, .f0])) &&
    at_ (during (cmt 14 [(.m0, true)])) (fun s => ok (exec .commitDeadline s) (fun t => t.commit = none && ended t (com 14) .late)) &&
    at_ (during { cmt 10 [] true with txLeft := [.f0] }) (fun s => s.live .f0 &&
      ok (exec (.goAhead .f0) s) (fun t => t.commit.any fun c => c.go == [.f0])) &&
    at_ ((during { cmt 10 [] true with txLeft := [.f0], go := [.f0] }).wrOff .dacMain .f0 2 0x55) (fun s => s.wf && Fld.dacMain.row.acc = .sh && Fld.dacMain.row.cls = .pkg &&
      ok (exec (.txSwap .f0) s) (fun t => (t.commit.any fun c => c.txLeft == []) && t.rd .dacMain .f0 2 = 0x55 && t.rdOff .dacMain .f0 2 = 0x100 &&
        t.rd .dacMain .f0 1 = 0x100)) &&
    at_ ((during { cmt 10 [] true with txLeft := [.m0], go := [.m0] }).wrOff .symRate .m0 0 400) (fun s =>
      ok (exec (.txSwap .m0) s) (fun t => t.rq != s.rq && t.commit.any fun c => c.newRate && c.txLeft == [])) &&
    at_ ({ during (cmt 15) [(.cancelSent, .f0, 0, 1), (.viewFrozen, .f0, 0, 1)] with held := [⟨.f0, false, 0, 0⟩, ⟨.f1, false, 0, 0⟩] }) (fun s =>
      ok (exec (.shiftCancel .f0) s) (fun t => !t.on .viewFrozen .f0 && t.held.length = 1)) := by decide +kernel

theorem met_GoAheadSwapsCancelAndCompletion_carriers :
    at_ (during { cmt 10 [] true with rx := [0, 7, 0, 0], rxLeft := [0, 1], grpLeft := [0], go := [.m0] }
        [(.farValid, .m0, 1, 1), (.farLiveSf, .m0, 1, 7), (.lgMembers, .m0, 0, 4)]) (fun s =>
      ok (exec (.rxSwap 1) s) (fun t => (t.commit.any fun c => c.rxLeft == [0]) && !t.on .farRxSwapJumped .m0 1) &&
      ok (exec (.rxSwap 1) (s.wr .farLiveSf .m0 1 8)) (fun t => t.on .farRxSwapJumped .m0 1) &&
      ok (exec (.rxSwap 1) (s.wr .farLiveSf .m0 1 6)) (fun t => t.commit = s.commit) &&
      ok (exec (.rxSwap 1) { s.wr .farLiveSf .m0 1 6 with commit := s.commit.map fun c => { c with jumped := [1] } }) (fun t =>
        t.on .farRxSwapJumped .m0 1 && t.commit.any fun c => c.rxLeft == [0]) &&
      ok (exec (.predictedRxSwap 0) s) (fun t => (t.commit.any fun c => c.rxLeft == [1]) && t.on .farRxSwapPredicted .m0 0) &&
      ok (exec (.predictedRxSwap 0) { s with tally := 10 * sfLen - 1 }) (fun t => t.commit = s.commit) &&
      ok (exec (.groupRxSwap 0) s) (fun t => (t.commit.any fun c => c.grpLeft == []) && t.rd .lgRxMembers .m0 0 = 4) &&
      ok (exec (.groupRxSwap 0) (s.wr .lgMembers .m0 0 2)) (fun t => t.commit = s.commit)) &&
    at_ (during (cmt 10 [] true) [(.shiftSeq, .m0, 0, 2 ^ 32 - 1), (.shiftPending, .m0, 0, 1)]) (fun s => s.commitQ = [] &&
      ok (exec .shiftCommitDone s) (fun t => t.commit = none && t.rd .shiftSeq = 0 && !t.on .shiftPending && ended t (com 10) .ok (2 ^ 32 * 10))) := by
  decide +kernel

/-- A TABLE_LOAD of F0 at an offset, two words. -/
def load (off : Nat) : Desc := dsc (tgt .f0) off (0x7000 + 2 ^ 64 * 2)

theorem met_ReloadAnnouncementsAndTableLoads_reload :
    at_ ({ hosted (up [(.viewFrozen, .f0, 0, 1), (.viewStale, .f0, 0, 1), (.reloadDue, .f0, 0, 1)]) with
        held := [⟨.f0, false, Fld.crLlrStep.offsetAt 0, 9⟩] }) (fun s => ok (exec (.offshiftReload .f0) s) (fun t => !t.on .viewFrozen .f0 && !t.on .viewStale .f0 && t.held = []) &&
      at_ (s.wr .reloadDue .f0 0 0) (fun s => ok (exec (.offshiftReload .f0) s) (fun t => t.on .viewFrozen .f0)) &&
      at_ { s.wr .reloadDue .f0 0 0 with commit := some { cmt 10 [] true with go := [.f0] } } (fun s => (s.commit.any (·.doneOn .f0)) &&
        ok (exec (.offshiftReload .f0) s) (fun t => !t.on .viewFrozen .f0))) &&
    at_ ((during (cmt 74) [(.viewFrozen, .m0, 0, 1), (.dacTxEnable, .f0, 0, 1)]).wrOff .dacTxEnable .f0 0 1 |>.wrOff .ltxM .m0 0 0x50) (fun s =>
      s.announces 0 && s.sf + 64 ≤ 74 && ok (exec (.announceStart 0) s) (fun t => t.rd .annTxState .m0 = 1 && t.rd .annTxTarget .m0 = 74 &&
        t.on .ltxAnnouncing .m0) && at_ { s with tally := 11 * sfLen } (fun s => s.commitQ = [] &&
        ok (exec (.announceStart 0) s) (fun t => t.commit = none && t.rd .annTxState .m0 = 0))) &&
    at_ (during (cmt 74) [(.annTxState, .m0, 1, 2), (.annTxTarget, .m0, 1, 10)]) (fun s =>
      ok (exec (.announceCancelEnd 1) s) (fun t => t.rd .annTxState .m0 1 = 0 && t.on .ltxRetuneCancelled .m0 1) &&
      ok (exec (.announceCancelEnd 1) { s with tally := 10 * sfLen - 1 }) (fun t => t.rd .annTxState .m0 1 = 2)) := by decide +kernel

theorem met_ReloadAnnouncementsAndTableLoads_tables :
    at_ (hosted (up [])) (fun s => let d := load (Fld.crLlrStep.offsetAt 0)
      !dieTargetBad d && (load 0x3FFFF8).arg0.toNat + 4 * (load 0x3FFFF8).at 32 2 = 0x400000 && d.clearFrom 34 && acceptsB s 0x09 d &&
      acceptsB s 0x09 (load 0x3FFFF8) && d.mill = .f0 && servesB s .f0 Die.f0.anchor &&
      ok (exec (.tableLoad d [0x1F, 0]) s) (fun t => t.loads = [⟨⟨0x09, d⟩, .f0, 0⟩] && t.rdOff .crLlrStep .f0 = 0x1F) &&
      ok (exec (.tableLoad (load 0x3FFFF8) [0, 0]) s) (fun t => t.loads.length = 1) &&
      ok (exec (.tableLoad d [9, 0]) (s.wr .viewFrozen .f0 0 1)) (fun t => t.loads = [] && t.offs = [] && ended t d .retry) &&
      at_ { s.wr .prepareHeld .f0 0 1 with loads := [⟨⟨0x09, d⟩, .f0, 3⟩], inflight := [⟨0x09, d⟩] } (fun s =>
        ok (exec (.tableLoadDone .f0) s) (fun t => t.loads = [] && ended t d .ok 3 && !t.on .prepareHeld .f0 && t.rd .shiftAnswer .f0 = 1))) := by
  decide +kernel

/-- The BAR0 address of a field, and four bytes of a value. -/
def bar (d : Die) (f : Fld) (i : Nat := 0) : BitVec 26 := BitVec.ofNat 26 (Die.windowBase d + f.offsetAt i)
def word (v : Nat) : List Byte := leBytes 4 v

/-- A host write of one word. -/
def write (a : BitVec 26) (v : Nat) (s : State) : Host.Outcome State Fault Refusal := exec (.registerWrite (.bar0 a) (word v)) s

/-- A word whose fields have codes that pass, no field twice, a given field among them. -/
def codes (s : State) (a : BitVec 26) (f : Fld) (p : Acc → Bool) : Bool :=
  match s.access a.toNat with
  | .word w fs => fs.all (fun e => p e.1.row.acc) && fs.any (fun e => e.1 == f) && !timingWord fs && decide ((fs.map fun e => (e.1, e.2.1)).Nodup) &&
      (s.wordRefused w.store 9 fs).isNone
  | .reserved | .blockOff _ | .unreachable _ => false

theorem met_HostWritesByAccessCode_stored :
    at_ (up []) (fun s => let rw := bar .f0 .spiSclkDiv; let sh := bar .f0 .crLlrStep
      codes s rw .spiSclkDiv (· == .rw) && ok (write rw 0x01020344 s) (fun t => t.rd .spiSclkDiv .f0 = 4 && t.rd .spiCmdWr .f0 = 3 && t.rd .spiCmdRd .f0 = 2) &&
      codes s sh .crLlrStep (fun c => c == .sh || c == .ro) && ok (write sh 0xFFFFFFFF s) (fun t => t.regs = s.regs && t.rdOff .crLlrStep .f0 != s.rdOff .crLlrStep .f0) &&
      ok (exec (.registerWrite (.bar0 rw) [1, 2, 3]) s) (fun t => t.rd .accPartialWrites .m0 = 1 && t.rd .spiSclkDiv .f0 = 1) &&
      ok (exec (.registerWrite (.bar0 (rw + 1)) [1, 2, 3, 4]) s) (fun t => t.rd .accPartialWrites .m0 = 1 && t.rd .spiSclkDiv .f0 = 1) &&
      s.access (Die.windowBase .f0 + 0x3FFFFC) = .reserved && ok (write (BitVec.ofNat 26 (Die.windowBase .f0 + 0x3FFFFC)) 1 s) (fun t => t == s) &&
      at_ (s.wr .domState .f0 ((domainAt .f0 (Fld.spiSclkDiv.offsetAt 0)).getD 63) 3) (fun s => (match s.access rw.toNat with | .blockOff _ => true | _ => false) &&
        ok (write rw 1 s) (fun t => t.events.map (·.reason) = [Reason.blockOff] && t.rd .accDeadAccesses .m0 = 1)) &&
      at_ (s.wr .winzLinkUp .m0 0 0) (fun s => s.access rw.toNat = .unreachable .f0 &&
        ok (write rw 1 s) (fun t => t.events.map (·.reason) = [Reason.dieUnreachable]))) := by decide +kernel

theorem met_HostWritesByAccessCode_guarded :
    at_ (up [(.farRxSwapJumped, .m0, 1, 1), (.farRxSwapPredicted, .m0, 1, 1)]) (fun s => let w1c := bar .m0 .farRxSwapJumped 1; let lk := bar .m0 .cryKeyLimitLog2
      codes s w1c .farRxSwapJumped (fun c => c == .w1c || c == .ro) && ok (write w1c 4 s) (fun t => !t.on .farRxSwapJumped .m0 1 && t.on .farRxSwapPredicted .m0 1) &&
      codes s lk .cryKeyLimitLog2 (fun c => c == .lk || c == .ro) && ok (write lk 0x20 s) (fun t => t.rd .cryKeyLimitLog2 .m0 = 0x20) &&
      at_ (s.wr .lkLocked .m0 0 1) (fun s => s.locked .cryKeyLimitLog2 &&
        ok (write lk 0x20 s) (fun t => t.rd .cryKeyLimitLog2 .m0 = 0x28 && t.events.map (·.reason) = [Reason.lockedWrite]) &&
        ok (write lk 0x28 s) (fun t => t.rd .cryKeyLimitLog2 .m0 = 0x28 && t.events = []))) := by decide +kernel

theorem met_HostWritesByAccessCode_settings :
    at_ (up []) (fun s => ok (exec (.registerWrite .sriov [64]) s) (fun t => t.rd .numVfs = 64) &&
      ok (exec (.registerWrite .sriov [3]) (s.wrP .numVfs 2)) (fun t => t.rd .numVfs = 2) &&
      ok (exec (.registerWrite .symbolRate [0x20, 3]) s) (fun t => t.rdOff .symRate .m0 = 800 && t.rd .symRate = s.rd .symRate) &&
      decide (511 < s.msixSize 0) && ok (exec (.registerWrite (.msixMask 0 511) [1]) s) (fun t => t.msixMasked = [(0, 511)]) &&
      at_ { s with msixMasked := [(0, 5)], msixWaiting := [(0, 5)] } (fun s =>
        ok (exec (.registerWrite (.msixMask 0 5) [0]) s) (fun t => t.msixMasked = [] && t.msixWaiting = [] && t.msixSent = [(0, 5)]))) := by decide +kernel

/-- The queue of F0 while it is frozen, with a number of writes, and one of M0. -/
def frozen (k : Nat) : State :=
  { up [(.viewFrozen, .f0, 0, 1)] with held := List.replicate k ⟨.f0, false, Fld.crLlrStep.offsetAt 0, 9⟩ }

theorem met_FullQueueDiscardsStagedWrites :
    at_ (frozen 256) (fun s => s.on .viewFrozen .f0 && (s.held.filter (·.die == .f0)).length = 256 && codes s (bar .f0 .crLlrStep) .crLlrStep (fun c => c == .sh || c == .ro) &&
      ok (write (bar .f0 .crLlrStep) 5 s) (fun t => t.held.length = 256 && t.regs == s.regs && t.events.map (·.reason) = [Reason.shiftWqFull])) &&
    at_ (frozen 255) (fun s => ok (write (bar .f0 .crLlrStep) 5 s) (fun t => t.held.length = 256 && t.events = [])) := by decide +kernel

theorem met_FullQueueDiscardsStagedWrites_symbolRate :
    at_ { up [(.viewFrozen, .m0, 0, 1)] with held := List.replicate 256 ⟨.m0, true, 0, 9⟩ } (fun s => Window.pkg.store = .m0 &&
      ok (exec (.registerWrite .symbolRate [1, 2]) s) (fun t => t.held.length = 256 && t.events.map (·.reason) = [Reason.shiftWqFull])) := by decide +kernel

theorem met_TallyIsSetForwardOnly :
    at_ { up [(.tallySetSfLo, .m0, 0, 11), (.tallyOriginLost, .m0, 0, 1)] with tally := 10 * sfLen + 7 } (fun s => s.sf = 10 &&
      ok (exec (.tallySet 0) s) (fun t => t.tally = 11 * sfLen + 7 && !t.on .tallyOriginLost) &&
      ok (exec (.tallySet 0) { s with tally := 11 * sfLen }) (fun t => t.tally = 11 * sfLen && t.on .tallyOriginLost && t.events.length = 1) &&
      at_ (s.wrP .tallyOriginLost 0) (fun s => (List.range 4).all (fun n => !s.on .dacTxEnable (faceOf n)) &&
        ok (exec (.tallySet 0) s) (fun t => t.sf = 11) &&
        ok (exec (.tallySet 1) (s.wr .dacTxEnable .f3 0 1)) (fun t => t.sf = 10 && t.events.map (·.reason) = [Reason.fieldEvent]))) := by decide +kernel

theorem met_StepRunsTheCommandInFront :
    at_ { up [] with pending := [.tallySet 1, .surfClkLost] } (fun s => ok (step s) (fun t => t.pending = [.surfClkLost] && t.sf = 2 ^ 32)) &&
    at_ { up [] with tallyOn := true } (fun s => ok (step s) (fun t => t.tally = s.tally + 1 && t.rd .surfTicks = s.rd .surfTicks)) &&
    at_ { up [(.surfTicks, .m0, 0, 2 ^ 48 - 1)] with tallyOn := false } (fun s => ok (step s) (fun t => t.tally = s.tally && t.rd .surfTicks = 0)) := by
  decide +kernel

theorem met_EveryStepKeepsItsStoresCanonical :
    State.reset.wf = true ∧ at_ { State.reset with pending := [.surfClkLost] } (fun s => s.wf && ok (step s) (fun t => t.wf && t.on .tallySurfClkLost)) = true := by
  decide +kernel
theorem met_DescriptorsJudgedInOrder :
    at_ (hosted (up [])) (fun s => let d := dsc 0 0 0; let late := dsc 0 0 0 0 0 0 0 true; let wrong := dsc 0 0 0 0 0 6; let vf := dsc (tgt .f0) 0 0 0 0 0 1
      ok (exec (.nop late) { s with inflight := [⟨0x00, { d with slot := 2 }⟩] }) (fun t => t.inflight.length = 2 && t.compl = []) &&
      ok (exec (.nop late) s) (fun t => ended t late .ok) &&
      ok (exec (.nop d) (s.wrP .hostFwReady 0)) (fun t => ended t d .targetUnpowered) &&
      opcodeRow 0x09 = some (0, true) && opcodeRow 0x00 = some (0, false) && (Cells.find 6 s.rings).any (·.cls == 6) &&
      ok (exec (.nop wrong) s) (fun t => ended t wrong .badDesc && t.events = []) &&
      ok (exec (.tableLoad vf []) s) (fun t => ended t vf .notPermitted && t.events.map (fun e => (e.reason, e.dest)) = [(Reason.cmdNotPermitted, 0), (Reason.cmdNotPermitted, 1)])) := by decide +kernel
end Sys2Proof.Tests
end

/-! ## Every command keeps the canonical form of the stores

`State.Canon` is `State.wf` as a proposition of its own, so that a chain of operations is followed by a chain of lemmas. Each
operation that makes a state has one lemma, under its own name: where the model writes `(s.wr f d i v).raise r b`, the proof is
`h.wr.raise`. A branch is `.ite`, an update for each element of a list `.foldl`, a change of what is no store `.frame`. The
lemmas stand in the order of the model's files. -/

namespace Sys2Proof.Machine

open State

section

/-- The sparse stores of a state are in their canonical forms. -/
structure State.Canon (s : State) : Prop where
  wf : s.wf = true

/-- The next state of an outcome, where there is one, has its stores in canonical form. -/
def CanonNext (o : Host.Outcome State Fault Refusal) : Prop := ∀ t, o = .next t → t.Canon

variable {s : State}

/-! ### Branches, lists and records -/

theorem State.Canon.ite {c : Prop} {i : Decidable c} {a b : State} (ha : a.Canon) (hb : b.Canon) :
    (if c then a else b).Canon := by
  split
  · exact ha
  · exact hb

theorem State.Canon.fst_ite {α : Type} {c : Prop} {i : Decidable c} {a b : State × α} (ha : a.1.Canon) (hb : b.1.Canon) :
    (if c then a else b).1.Canon := by
  split
  · exact ha
  · exact hb

theorem State.Canon.snd_ite {α : Type} {c : Prop} {i : Decidable c} {a b : α × State} (ha : a.2.Canon) (hb : b.2.Canon) :
    (if c then a else b).2.Canon := by
  split
  · exact ha
  · exact hb

theorem CanonNext.next (h : s.Canon) : CanonNext (.next s) := fun _ e => Host.Outcome.next.inj e ▸ h

theorem CanonNext.ite {c : Prop} {i : Decidable c} {a b : Host.Outcome State Fault Refusal}
    (ha : CanonNext a) (hb : CanonNext b) : CanonNext (if c then a else b) := by
  split
  · exact ha
  · exact hb

theorem State.Canon.foldl {α : Type} {f : State → α → State} {l : List α}
    (hf : ∀ u a, u.Canon → (f u a).Canon) (h : s.Canon) : (l.foldl f s).Canon := by
  induction l generalizing s with
  | nil => exact h
  | cons a l ih => exact ih (hf s a h)

theorem State.Canon.fst_foldl {α β : Type} {f : State × β → α → State × β} {l : List α} {x : State × β}
    (hf : ∀ y a, y.1.Canon → (f y a).1.Canon) (hx : x.1.Canon) : (l.foldl f x).1.Canon := by
  induction l generalizing x with
  | nil => exact hx
  | cons a l ih => exact ih (hf x a hx)

/-- A state whose five stores are those of another is in canonical form with it, whatever else it holds. -/
theorem State.Canon.frame
    {pending tallyOn tally rings inflight requests compl events msixSent msixMasked msixWaiting readData freeCtr
      held commit commitQ canary spi spiActive slipRecs slipFixes nlc pilots txLine lfOut rxLine pool poolPast
      telem telemSkipped keys msgTx msgRx annTargets groupRef relMsgs ttis psis ttiSend insLast ohSent ohRecv kw
      zeroing la cipherOut plainOut ohOut hist holdFreq xcSent xcBuf loads pwrQ pwr waking releases grants
      memValid poison spareRows rowMap marches resets heldResets bootImage recovery fwOps auxQ auxWait auxRun
      auxSimul assay assaySnap pmSecs sopBuf surveys captures}
    (h : s.Canon) :
    (State.mk pending s.regs s.offs s.freeRegs tallyOn tally rings inflight requests compl events s.hostMem
      msixSent msixMasked msixWaiting readData freeCtr held commit commitQ canary spi spiActive slipRecs
      slipFixes nlc pilots txLine lfOut rxLine pool poolPast telem telemSkipped keys msgTx msgRx annTargets
      groupRef relMsgs ttis psis ttiSend insLast ohSent ohRecv kw zeroing la cipherOut plainOut ohOut hist
      holdFreq xcSent xcBuf loads pwrQ pwr waking releases grants s.memory memValid poison spareRows rowMap
      marches resets heldResets bootImage recovery fwOps auxQ auxWait auxRun auxSimul assay assaySnap pmSecs
      sopBuf surveys captures).Canon :=
  ⟨wf_of_stores h.wf rfl rfl rfl rfl rfl⟩

/-- Staged copies dropped. -/
theorem State.Canon.filterOffs {p : Nat × Nat → Bool} (h : s.Canon) :
    State.Canon { s with offs := s.offs.filter p } := by
  obtain ⟨hregs, hoffs, hrest⟩ := wf_iff.mp h.wf
  exact ⟨wf_iff.mpr ⟨hregs, Cells.sorted_filter _ hoffs, hrest⟩⟩

/-- A reset that keeps some registers and host memory, and no other store. -/
theorem State.Canon.keepRegs {t : State} {p : Nat × Nat → Bool} (h : s.Canon) (hr : t.regs = s.regs.filter p)
    (ho : t.offs = []) (hf : t.freeRegs = []) (hh : t.hostMem = s.hostMem) (hm : t.memory = []) : t.Canon := by
  obtain ⟨hregs, -, -, hhost, -⟩ := wf_iff.mp h.wf
  refine ⟨wf_iff.mpr ?_⟩
  rw [hr, ho, hf, hh, hm]
  exact ⟨Cells.wf_filter _ hregs, rfl, rfl, hhost, rfl⟩

/-! ### The operations whose laws stand with the model -/

theorem State.Canon.wr {f : Fld} {d : Die} {i v : Nat} (h : s.Canon) : (s.wr f d i v).Canon := ⟨wf_wr _ _ _ _ h.wf⟩
theorem State.Canon.wrOff {f : Fld} {d : Die} {i v : Nat} (h : s.Canon) :
    (s.wrOff f d i v).Canon := ⟨wf_wrOff _ _ _ _ h.wf⟩
theorem State.Canon.wrFree {f : Fld} {d : Die} {i v : Nat} (h : s.Canon) :
    (s.wrFree f d i v).Canon := ⟨wf_wrFree _ _ _ _ h.wf⟩
theorem State.Canon.wrs {d : Die} {i : Nat} {l : List (Fld × Nat)} (h : s.Canon) :
    (s.wrs d i l).Canon := ⟨wf_wrs _ _ _ h.wf⟩
theorem State.Canon.zeros {d : Die} {i : Nat} {l : List Fld} (h : s.Canon) :
    (s.zeros d i l).Canon := ⟨wf_zeros _ _ _ h.wf⟩
theorem State.Canon.inc {f : Fld} {d : Die} {i k : Nat} (h : s.Canon) : (s.inc f d i k).Canon := ⟨wf_inc _ _ _ _ h.wf⟩
theorem State.Canon.bump {f : Fld} {d : Die} {i k : Nat} (h : s.Canon) :
    (s.bump f d i k).Canon := ⟨wf_bump _ _ _ _ h.wf⟩
theorem State.Canon.raiseAs {reason block : Nat} {func : Option Nat} {dest arg0 arg1 : Nat} {far : Option Nat} (h : s.Canon) :
    (s.raiseAs reason block func dest arg0 arg1 far).Canon := ⟨wf_raiseAs _ _ _ _ _ _ _ h.wf⟩
theorem State.Canon.countOps {fn : Nat} (h : s.Canon) : (s.countOps fn).Canon := ⟨wf_countOps _ h.wf⟩
theorem State.Canon.enlist {op : Nat} {d : Desc} (h : s.Canon) : (s.enlist op d).Canon := ⟨wf_enlist _ _ h.wf⟩
theorem State.Canon.finish {op : Nat} {d : Desc} {st : Status} {result : Nat} (h : s.Canon) :
    (s.finish op d st result).Canon := ⟨wf_finish _ _ _ _ h.wf⟩
theorem State.Canon.swapWhere {p : Nat → Bool} (h : s.Canon) : (s.swapWhere p).Canon := ⟨wf_swapWhere _ h.wf⟩
theorem State.Canon.lineCredits {d : Die} {f : Nat → Nat} (h : s.Canon) :
    (s.lineCredits d f).Canon := ⟨wf_lineCredits _ _ h.wf⟩
theorem State.Canon.noiseAdd {d : Die} {i lf err : Nat} (h : s.Canon) :
    (s.noiseAdd d i lf err).Canon := ⟨wf_noiseAdd _ _ _ _ h.wf⟩
theorem State.Canon.toHost {addr : Nat} {l : List Byte} (h : s.Canon) : (s.toHost addr l).Canon := ⟨wf_toHost _ _ h.wf⟩
theorem State.Canon.storeBytes {x a : Nat} {l : List Byte} (h : s.Canon) :
    (s.storeBytes x a l).Canon := ⟨wf_storeBytes _ _ _ h.wf⟩
theorem State.Canon.writeWord {x : Nat} {g : MemShape} {w off : Nat} {bytes : List Byte} (h : s.Canon) :
    (s.writeWord x g w off bytes).Canon := ⟨wf_writeWord _ _ _ _ _ h.wf⟩
theorem State.Canon.loseMem {t : Die} {mem : Nat} (h : s.Canon) : (s.loseMem t mem).Canon := ⟨wf_loseMem _ _ h.wf⟩
theorem State.Canon.loseWhere {p : Nat → Bool} (h : s.Canon) : (s.loseWhere p).Canon := ⟨wf_loseWhere _ h.wf⟩

/-! ### The shared operations -/

theorem State.Canon.wrP {f : Fld} {v : Nat} (h : s.Canon) : (s.wrP f v).Canon := h.wr
theorem State.Canon.assayAdd {id k : Nat} (h : s.Canon) : (s.assayAdd id k).Canon := h.frame
theorem State.Canon.count {d : Die} {i k : Nat} (h : s.Canon) : (s.count d i k).Canon := h.assayAdd
theorem State.Canon.wr48 {lo hi : Fld} {d : Die} {i v : Nat} (h : s.Canon) : (s.wr48 lo hi d i v).Canon := h.wr.wr
theorem State.Canon.fresh (h : s.Canon) : (s.fresh).2.Canon := h.frame

theorem State.Canon.raise {reason block arg0 arg1 : Nat} {far : Option Nat} (h : s.Canon) :
    (s.raise reason block arg0 arg1 far).Canon :=
  h.raiseAs

theorem State.Canon.raiseFn {reason block fn arg0 : Nat} (h : s.Canon) : (s.raiseFn reason block fn arg0).Canon :=
  have h₁ := h.raiseAs
  .ite h₁ h₁.raiseAs

theorem State.Canon.raiseFns {reason block : Nat} {fns : List Nat} {arg0 arg1 : Nat} {far : Option Nat} (h : s.Canon) :
    (s.raiseFns reason block fns arg0 arg1 far).Canon :=
  .foldl (fun _ _ hu => hu.raiseAs) h.raise

/-! ### Fields named by a command's operands -/

theorem State.Canon.raiseField {f : Fld} {d : Die} {i : Nat} {far : Option Nat} (h : s.Canon) :
    (s.raiseField f d i far).Canon :=
  h.raise

/-! ### Descriptors taken and completed -/

theorem State.Canon.finishOp {o : Op} {st : Status} {result : Nat} (h : s.Canon) : (s.finishOp o st result).Canon := h.finish

theorem State.Canon.notPermitted {op : Nat} {d : Desc} {page : Nat} (h : s.Canon) : (s.notPermitted op d page).Canon :=
  h.raiseFn.finish

theorem State.Canon.take {op : Nat} {d : Desc} {bad excluded : Bool} {page : Nat} {act : State → State}
    (h : s.Canon) (ha : ∀ u : State, u.Canon → (act u).Canon) : (s.take op d bad act excluded page).Canon := by
  unfold State.take
  have hu : (s.enlist op d).Canon := h.enlist
  refine .ite hu (.ite hu.finish ?_)
  split
  · exact hu.finish
  · exact .ite hu.finish (.ite hu.notPermitted (.ite hu.finish (ha _ hu)))

theorem State.Canon.wakeIdle {t : Die} {dom : Nat} (h : s.Canon) : (s.wakeIdle t dom).Canon := .ite h.wr h

/-! ### Power requests and the lamp board -/

theorem State.Canon.lamp {block reason st : Nat} (h : s.Canon) : (s.lamp block reason st).Canon := by
  unfold State.lamp
  dsimp only
  split
  · exact h.inc.wr
  · split
    · exact h.wrs.inc
    · exact h.inc

theorem State.Canon.refusedBy {t : Die} {dom reason st : Nat} (h : s.Canon) : (s.refusedBy t dom reason st).Canon :=
  h.lamp.inc.raise

theorem State.Canon.abortedBy {t : Die} {dom reason st : Nat} (h : s.Canon) : (s.abortedBy t dom reason st).Canon :=
  h.lamp.inc.raise

theorem State.Canon.domBusy {l : List (Die × Nat)} {v : Nat} (h : s.Canon) : (s.domBusy l v).Canon :=
  .foldl (fun _ _ hu => hu.wr) h

theorem State.Canon.unask {r : PwrReq} (h : s.Canon) : (s.unask r).Canon := .ite h (.foldl (fun _ _ hu => hu.wr) h)

theorem State.Canon.endRequest {r : PwrReq} {st : Status} (h : s.Canon) : (s.endRequest r st).Canon := by
  unfold State.endRequest
  dsimp only
  split
  · exact h.unask
  · exact h.unask.finishOp

theorem State.Canon.hostMarks {r : PwrReq} (h : s.Canon) : (s.hostMarks r).Canon := .ite h (.foldl (fun _ _ hu => hu.wrs) h)

theorem State.Canon.startRequest {r : PwrReq} (h : s.Canon) : (s.startRequest r).Canon :=
  .ite h.endRequest <| by
    split
    · exact h.abortedBy.endRequest
    · exact .ite h.hostMarks.endRequest <|
      have h₁ := h.domBusy.wrP
      .ite h₁.frame h₁.frame

theorem State.Canon.nextRequests {l : List PwrReq} (h : s.Canon) : (s.nextRequests l).Canon := by
  induction l generalizing s with
  | nil => exact h.frame
  | cons r l ih => exact .ite h.frame (ih h.startRequest)

theorem State.Canon.askPower {r : PwrReq} (h : s.Canon) : (s.askPower r).Canon := h.nextRequests

theorem State.Canon.endEntry {r : PwrRun} {st : Status} {counts : Bool} (h : s.Canon) : (s.endEntry r st counts).Canon :=
  .nextRequests <|
  .endRequest (.foldl (fun _ _ hu => by split; exacts [.ite hu hu.refusedBy, hu, hu, hu]) h.frame.wrP)

theorem State.Canon.wakeBy {t : Die} {k : Nat} (h : s.Canon) : (s.wakeBy t k).Canon := by
  unfold State.wakeBy
  dsimp only
  split
  · exact h.wakeIdle
  · exact .ite h.wakeIdle.abortedBy.endEntry h.wakeIdle

theorem State.Canon.onTarget {op dom : Nat} {d : Desc} {t : Die} {act : State → State}
    (h : s.Canon) (ha : ∀ u : State, u.Canon → (act u).Canon) : (s.onTarget op d t dom act).Canon :=
  .ite h.finish (.ite h.finish (.ite h.finish (.ite h.raise.finish (.ite h.finish (ha _ h.wakeBy)))))

theorem State.Canon.bossAsk {target : Nat} {l : List (Die × Nat)} (h : s.Canon) : (s.bossAsk target l).Canon :=
  .ite h (.askPower (.foldl (fun _ _ hu => hu.wr) h))

theorem State.Canon.wakeParked {d : Die} (h : s.Canon) : (s.wakeParked d).Canon := h.bossAsk

/-! ### Register accesses -/

theorem State.Canon.deadAccess {block off : Nat} {write : Bool} (h : s.Canon) : (s.deadAccess block off write).Canon :=
  h.inc.raise

theorem State.Canon.deadRead {block off : Nat} (h : s.Canon) : (s.deadRead block off).Canon := h.deadAccess.frame

theorem State.Canon.unreachableAccess {d : Die} (h : s.Canon) : (s.unreachableAccess d).Canon := h.inc.raise

theorem State.Canon.unreachableRead {d : Die} (h : s.Canon) : (s.unreachableRead d).Canon := h.unreachableAccess.frame

theorem State.Canon.readReg {d : Die} {f : Fld} {i : Nat} {act : State → State × Nat}
    (h : s.Canon) (ha : ∀ u : State, u.Canon → (act u).1.Canon) : (s.readReg d f i act).Canon := by
  unfold State.readReg
  dsimp only
  split
  · exact (ha s h).frame
  · exact h.frame
  · exact h.deadRead
  · exact h.unreachableRead

theorem State.Canon.writeReg {d : Die} {f : Fld} {i : Nat} {act : State → State}
    (h : s.Canon) (ha : ∀ u : State, u.Canon → (act u).Canon) : (s.writeReg d f i act).Canon := by
  unfold State.writeReg
  dsimp only
  split
  · exact ha s h
  · exact h
  · exact h.deadAccess
  · exact h.unreachableAccess

/-! ### Winze links -/

theorem State.Canon.canaryStart {d : Die} {kind idx : Nat} {stays : Bool} (h : s.Canon) :
    (s.canaryStart d kind idx stays).Canon :=
  .ite h h.frame

theorem State.Canon.abortTo {p : Die → Nat → Bool} {port : Option (Die × Nat)} (h : s.Canon) : (s.abortTo p port).Canon :=
  .foldl (fun _ _ hu => hu.finishOp) (by split; exacts [h.inc, h])

theorem State.Canon.dropFromCommit {ds : List Die} (h : s.Canon) : (s.dropFromCommit ds).Canon := h.frame

theorem State.Canon.linkDrop {d : Die} {port : Nat} (h : s.Canon) : (s.linkDrop d port).Canon := by
  unfold State.linkDrop
  split
  · exact h.wr.wr
  · exact h

theorem State.Canon.credit {d : Die} {port : Nat} (h : s.Canon) : (s.credit d port).Canon := h.wrFree.wrFree

theorem State.Canon.linkRaise {d : Die} {port : Nat} (h : s.Canon) : (s.linkRaise d port).Canon := by
  unfold State.linkRaise
  split
  · exact h.wrs.wrs.credit.credit
  · exact h

theorem State.Canon.reincarnate {d : Die} {dom : Nat} (h : s.Canon) : (s.reincarnate d dom).Canon :=
  .ite h.bump (.foldl (fun _ _ hu => by split; exacts [.ite hu.wr.wr hu.wr, hu.wr]) h.bump)

theorem execWinzCrcError_canon {d : Die} {port : Fin 4} {lane : Fin 256} (h : s.Canon) :
    CanonNext (execWinzCrcError d port lane s) :=
  .ite (.next h) <|
  have h₁ := h.inc.wrs
  .next (.ite h₁ (.ite h₁.wr.raise.canaryStart h₁.bump.wr.canaryStart))

theorem execLinkDown_canon {d : Die} {port : Fin 4} (h : s.Canon) : CanonNext (execLinkDown d port s) := by
  unfold execLinkDown
  split
  · exact .next h
  · exact .ite (.next h) (.next h.linkDrop.raiseField.raiseField.abortTo.dropFromCommit)

theorem execStaleReply_canon {d : Die} {port : Fin 4} {incarnation : Fin 16} {ring slot : Nat} (h : s.Canon) :
    CanonNext (execStaleReply d port incarnation ring slot s) :=
  .ite (.next h.inc) (.next h)

theorem execWinzCntClr_canon {d : Die} {port : Fin 4} (h : s.Canon) : CanonNext (execWinzCntClr d port s) :=
  .next (h.writeReg fun _ hu => hu.zeros)

/-! ### Line converters and optical-engine attach sites -/

theorem State.Canon.wrInt {f : Fld} {d : Die} {i : Nat} {v : Int} (h : s.Canon) : (s.wrInt f d i v).Canon := h.wr

theorem State.Canon.setOnce {f : Fld} {d : Die} {i arg1 : Nat} (h : s.Canon) : (s.setOnce f d i arg1).Canon :=
  .ite h h.wr.raise

theorem State.Canon.dacFollow {d : Die} (h : s.Canon) : (s.dacFollow d).Canon := .ite h (.ite h.wr h.wrs)

theorem State.Canon.txdisUpdate {d : Die} (h : s.Canon) : (s.txdisUpdate d).Canon :=
  have h₁ := h.dacFollow
  .ite h₁.wrs.wrs h₁.wrs.wr

theorem State.Canon.calAdvance {d : Die} {a : Nat} (h : s.Canon) : (s.calAdvance d a).Canon := .ite h.wr.wr h.wr.wr.bump

theorem State.Canon.calResult {d : Die} {a : Nat} {inRange : Bool} (h : s.Canon) : (s.calResult d a inRange).Canon :=
  have h₁ := Canon.ite h.count h
  have h₂ := Canon.ite h₁ h₁.count
  .ite (.ite h₂.wr.raise.calAdvance h₂) (.ite h₂.calAdvance h₂.wrs.count.canaryStart)

theorem execCalWindowEnd_canon {n a : Fin 4} {inRange : Bool} (h : s.Canon) :
    CanonNext (execCalWindowEnd n a inRange s) :=
  .ite (.next h) (.next (.wrs (.ite h.calResult h)))

theorem execAdcOverrange_canon {n a : Fin 4} {unit : Fin 65} (h : s.Canon) : CanonNext (execAdcOverrange n a unit s) :=
  .ite (.next h) <|
  have h₁ := h.setOnce.inc.count
  .next (.ite h₁.wr.inc.inc.count h₁)

theorem State.Canon.ovrLatch {d : Die} {a peak : Nat} (h : s.Canon) : (s.ovrLatch d a peak).Canon :=
  .ite h.wrs (.wr (.wr (.ite h.wrs h.wrs.inc.count)))

theorem State.Canon.dacTick {d : Die} (h : s.Canon) : (s.dacTick d).Canon :=
  .ite h (.ite h.wr (.foldl (fun _ _ hu => hu.count) h.inc))

theorem State.Canon.fgBegin {d : Die} (h : s.Canon) : (s.fgBegin d).Canon :=
  .ite h (.foldl (fun _ _ hu => .ite hu.wr hu.wr.wrs) h.wr)

theorem State.Canon.fgEnd {d : Die} (h : s.Canon) : (s.fgEnd d).Canon :=
  .wrs (.foldl (fun _ _ hu => .ite hu.count hu.count.wrs) h)

theorem execForegroundCalDone_canon {n : Fin 4} (h : s.Canon) : CanonNext (execForegroundCalDone n s) :=
  .next (.ite h.fgEnd h)

theorem State.Canon.tiaRequest {d : Die} {a : Nat} {up : Bool} (h : s.Canon) : (s.tiaRequest d a up).Canon :=
  h.frame.inc.count.wrs

theorem execTiaGainDown_canon {n a : Fin 4} (h : s.Canon) : CanonNext (execTiaGainDown n a s) :=
  .ite (.next h) (.ite (.next h.setOnce) (.next h.tiaRequest))

theorem execTiaHoldoffEnd_canon {n a : Fin 4} (h : s.Canon) : CanonNext (execTiaHoldoffEnd n a s) :=
  .ite (.next h.wrs) (.next h)

theorem execTiaGainUp_canon {n a : Fin 4} (h : s.Canon) : CanonNext (execTiaGainUp n a s) :=
  .ite (.next h.tiaRequest) (.next h)

theorem execSpiTransactionStart_canon {n : Fin 4} (h : s.Canon) : CanonNext (execSpiTransactionStart n s) :=
  .ite (.next h) (by split; exacts [.next h, .next h.frame])

theorem State.Canon.spiHostShadow {d : Die} {o : Desc} (h : s.Canon) : (s.spiHostShadow d o).Canon := .ite h.wr h

theorem execSpiTransactionDone_canon {n : Fin 4} {miso : BitVec 64} (h : s.Canon) :
    CanonNext (execSpiTransactionDone n miso s) := by
  unfold execSpiTransactionDone
  dsimp only
  split
  · exact .next h
  · split
    · exact .next h.frame.wr
    · exact .next h.frame.wr
    · exact .next h.frame.spiHostShadow.finish

theorem execOeSpi_canon {d : Desc} (h : s.Canon) : CanonNext (execOeSpi d s) :=
  .next (h.take fun _ hu => hu.onTarget fun _ hv => .ite hv.frame hv.finish)

theorem execPowerTrim_canon {n : Fin 4} (h : s.Canon) : CanonNext (execPowerTrim n s) :=
  .ite (.next h) (.ite (.next h.wrs) (.ite (.next h.wrs.setOnce) (.next h.wrs.frame)))

theorem State.Canon.biasCode {d : Die} {ch : Nat} {v : Int} (h : s.Canon) : (s.biasCode d ch v).Canon :=
  .ite h.wr.setOnce h.wr

theorem State.Canon.biasDrive {d : Die} {p k : Nat} {v dither : Int} (h : s.Canon) : (s.biasDrive d p k v dither).Canon :=
  have h₁ := h.biasCode
  .ite h₁.biasCode h₁.wr

theorem State.Canon.biasDither {d : Die} {p chip : Nat} (h : s.Canon) : (s.biasDither d p chip).Canon := by
  unfold State.biasDither
  exact .biasDrive (.biasDrive (.biasDrive h))

theorem State.Canon.biasPlain {d : Die} {p : Nat} (h : s.Canon) : (s.biasPlain d p).Canon :=
  .foldl (fun _ _ hu => hu.biasDrive) h

theorem State.Canon.biasHostCodes {d : Die} {p : Nat} (h : s.Canon) : (s.biasHostCodes d p).Canon :=
  .foldl (fun _ _ hu => hu.wr) h

theorem State.Canon.biasArms {d : Die} {p : Nat} (h : s.Canon) : (s.biasArms d p).Canon := .foldl (fun _ _ hu => hu.wr) h

theorem State.Canon.biasClear {d : Die} {p : Nat} (h : s.Canon) : (s.biasClear d p).Canon :=
  .foldl (fun _ _ hu => hu.wr.wr) h.wrs

theorem State.Canon.biasEnter {d : Die} {p mode : Nat} (h : s.Canon) : (s.biasEnter d p mode).Canon :=
  .ite h.wrs.biasHostCodes <|
  .ite (.ite h.wrs h.wrs.biasPlain) <|
  .ite (.biasClear (.foldl (fun _ _ hu => hu.wrInt) h.wrs)) h.wrs.biasClear.biasDither

theorem State.Canon.biasMode {d : Die} {p : Nat} (h : s.Canon) : (s.biasMode d p).Canon := .ite h.wr (.ite h.biasEnter h.wr)

theorem State.Canon.biasUpdate {d : Die} {p : Nat} (h : s.Canon) : (s.biasUpdate d p).Canon :=
  .wrs (.foldl (fun _ _ hu => hu.wr) h.wrInt.wrInt.wrInt)

theorem State.Canon.biasPeriodEnd {d : Die} {p : Nat} (h : s.Canon) : (s.biasPeriodEnd d p).Canon :=
  have h₁ := Canon.foldl (fun _ _ hu => hu.wr) (.wr (.ite h.inc (.inc (.foldl (fun _ _ hu => hu.wrInt) h))))
  .ite h₁.biasUpdate h₁

theorem State.Canon.biasChipEnd {d : Die} {p : Nat} {runs : Bool} (h : s.Canon) : (s.biasChipEnd d p runs).Canon :=
  have h₁ := Canon.ite (.foldl (fun _ _ hu => hu.wrInt) h) h.wr
  .wrs (.ite h₁.biasPeriodEnd h₁)

theorem execBiasChipBoundary_canon {n : Fin 4} {p : Fin 2} (h : s.Canon) : CanonNext (execBiasChipBoundary n p s) :=
  .ite (.next h) <|
  have h₁ := Canon.ite h.wr h.wr.biasChipEnd
  .ite (.next h₁) (.ite (.next h₁.wr.biasClear.biasDither) (.ite (.next h₁.biasEnter) (.next h₁.biasDither)))

theorem State.Canon.spiFlush {d : Die} (h : s.Canon) : (s.spiFlush d).Canon :=
  .foldl (fun _ _ hu => by split; exacts [hu.finish, hu, hu]) h.frame

theorem State.Canon.biasOff {d : Die} (h : s.Canon) : (s.biasOff d).Canon := .foldl (fun _ _ hu => hu.biasEnter) h

theorem execSitePresenceChange_canon {n : Fin 4} {present : Bool} (h : s.Canon) :
    CanonNext (execSitePresenceChange n present s) :=
  .ite (.next h) <|
  have h₁ := h.wrs.raiseField
  .next (.txdisUpdate (.ite h₁ h₁.biasOff.spiFlush))

theorem execOeFault_canon {n : Fin 4} (h : s.Canon) : CanonNext (execOeFault n s) :=
  .ite (.next h) (.next h.wrs.raiseField.txdisUpdate)

theorem execOeFaultEnd_canon {n : Fin 4} (h : s.Canon) : CanonNext (execOeFaultEnd n s) :=
  .ite (.next h) (.next h.wr.txdisUpdate)

theorem execTxdisRelease_canon {n : Fin 4} (h : s.Canon) : CanonNext (execTxdisRelease n s) :=
  .ite (.next h.wrs) (.next h)

/-! ### Line rates -/

theorem State.Canon.showTxRate {n : Nat} (h : s.Canon) : (s.showTxRate n).Canon := h.wrs

/-! ### Telemetry sources -/

theorem State.Canon.emit {source die recType stamp : Nat} {payload : List Byte} (h : s.Canon) :
    (s.emit source die recType stamp payload).Canon :=
  .ite h <|
  .ite h.frame <|
  have h₁ := Canon.ite h.inc h
  .ite h₁ h₁.frame.raise

/-! ### Rings -/

theorem State.Canon.setRing {id : Nat} {r : Ring} (h : s.Canon) : (s.setRing id r).Canon := h.frame
theorem State.Canon.msix {fn vec : Nat} (h : s.Canon) : (s.msix fn vec).Canon := .ite (.ite h h.frame) h.frame
theorem State.Canon.interrupt {id : Nat} {r : Ring} (h : s.Canon) : (s.interrupt id r).Canon := h.msix.setRing
theorem State.Canon.signal {id : Nat} {r : Ring} (h : s.Canon) : (s.signal id r).Canon := .ite h.interrupt h.setRing

theorem State.Canon.writeEntry {id : Nat} {r : Ring} {irqNow : Bool} {bytes : Nat → List Byte} (h : s.Canon) :
    (s.writeEntry id r irqNow bytes).Canon :=
  h.toHost.signal

theorem State.Canon.dropRings {p : Nat → Ring → Bool} (h : s.Canon) : (s.dropRings p).Canon := h.frame

/-! ### Groups, slices, contexts and slots -/

theorem State.Canon.setKey {d : Die} {p k : Nat} {key : Option Nat} {idx : Nat} (h : s.Canon) :
    (s.setKey d p k key idx).Canon :=
  h.frame.wrs

theorem State.Canon.swapSlots {d : Die} {p a b : Nat} (h : s.Canon) : (s.swapSlots d p a b).Canon := h.setKey.setKey

theorem State.Canon.copySlot {d : Die} {p k a : Nat} (h : s.Canon) : (s.copySlot d p k a).Canon := h.setKey

/-! ### Staging -/

theorem State.Canon.stageWord {w : Window} {off val : Nat} (h : s.Canon) : (s.stageWord w off val).Canon :=
  .ite h.wrOff (.foldl (fun _ _ hu => .ite hu.wrOff hu) h)

theorem State.Canon.shWrite {w : Window} {off val : Nat} (h : s.Canon) : (s.shWrite w off val).Canon :=
  .ite h.stageWord (.ite h.frame.wr h.raise)

theorem State.Canon.applyHeld {d : Die} (h : s.Canon) : (s.applyHeld d).Canon :=
  .wr (.wr (.foldl (fun _ _ hu => hu.stageWord) h.frame))

/-! ### Payload encryption -/

theorem State.Canon.kwShow {d : Die} (h : s.Canon) : (s.kwShow d).Canon := h.wr
theorem State.Canon.unwrap {op : Nat} {d : Desc} (h : s.Canon) : (s.unwrap op d).Canon := .ite h.finish h.frame.kwShow

theorem execKekLoad_canon {d : Desc} (h : s.Canon) : CanonNext (execKekLoad d s) :=
  .next (h.take fun _ hu => hu.onTarget fun _ hv => hv.unwrap)

theorem execKeyLoad_canon {d : Desc} (h : s.Canon) : CanonNext (execKeyLoad d s) :=
  .next <|
  h.take fun _ hu =>
    hu.onTarget fun _ hv =>
      .ite hv.finish (.ite hv.finish (.ite hv.finish (.ite hv.finish (.ite hv.finish hv.unwrap))))

theorem State.Canon.storeKey {o : Op} {key : Nat} (h : s.Canon) : (s.storeKey o key).Canon :=
  .ite (.foldl (fun _ _ hu => .ite hu.frame.wr hu) h) h.setKey

theorem execKeyUnwrapDone_canon {m : Fin 2} {agree : Bool} (h : s.Canon) : CanonNext (execKeyUnwrapDone m agree s) := by
  unfold execKeyUnwrapDone
  dsimp only
  split
  · exact .next h
  · refine .ite (.next (.kwShow (.finishOp (.canaryStart (.inc h.count.frame))))) ?_
    split
    · exact .next (.kwShow (.finishOp h.count.frame))
    · exact .next (.kwShow (.finishOp (.storeKey h.count.frame)))

theorem State.Canon.killLa {d : Die} {p : Nat} {key : Option Nat} (h : s.Canon) : (s.killLa d p key).Canon := .ite h h.frame

theorem State.Canon.emptySlot {d : Die} {p slot : Nat} (h : s.Canon) : (s.emptySlot d p slot).Canon := h.setKey.killLa

theorem State.Canon.destroyKey {d : Die} {p slot : Nat} (h : s.Canon) : (s.destroyKey d p slot).Canon :=
  .wr (.emptySlot (.ite h.emptySlot h))

theorem execKeyZero_canon {d : Desc} (h : s.Canon) : CanonNext (execKeyZero d s) :=
  .next (h.take fun _ hu => hu.onTarget fun _ hv => .ite hv.emptySlot.finish hv.frame.wr)

theorem execKeyDestroy_canon {m : Fin 2} {page : Fin 256} (h : s.Canon) : CanonNext (execKeyDestroy m page s) :=
  .next (.foldl (fun _ _ hu => hu.finishOp) (.foldl (fun _ _ hu => .ite hu.destroyKey hu) h.frame))

theorem execPageBind_canon {d : Desc} (h : s.Canon) : CanonNext (execPageBind d s) :=
  .next (h.take fun _ hu => hu.onTarget fun _ hv => .finish (.wr (.foldl (fun _ _ hw => hw.wrs) hv)))

theorem State.Canon.stopStream {d : Die} {i : Nat} (h : s.Canon) : (s.stopStream d i).Canon := h.wrs

theorem State.Canon.rebind (h : s.Canon) : s.rebind.Canon := h.frame

theorem execPageUnbind_canon {d : Desc} (h : s.Canon) : CanonNext (execPageUnbind d s) :=
  .next <|
  h.take fun _ hu =>
    hu.onTarget fun _ hv =>
      .rebind <|
      .frame <|
      .wr <|
      .wr (.foldl (fun _ _ hw => hw.wrs) (.emptySlot (.emptySlot (.foldl (fun _ _ hw => hw.stopStream) hv))))

theorem execStreamBind_canon {d : Desc} (h : s.Canon) : CanonNext (execStreamBind d s) :=
  .next (h.take fun _ hu => hu.onTarget fun _ hv => .ite hv.finish hv.shWrite.shWrite.shWrite.wr.finish)

theorem execStreamStart_canon {d : Desc} (h : s.Canon) : CanonNext (execStreamStart d s) :=
  .next <|
  h.take fun _ hu => hu.onTarget fun _ hv => .ite hv.finish (.ite hv.finish (.ite hv.finish hv.wrs.finish))

theorem execStreamStop_canon {d : Desc} (h : s.Canon) : CanonNext (execStreamStop d s) :=
  .next (h.take fun _ hu => hu.onTarget fun _ hv => .ite hv.finish hv.wrs.finish)

theorem State.Canon.streamDue {d : Die} {i : Nat} (h : s.Canon) : (s.streamDue d i).Canon :=
  .ite (.ite (.wrs (.ite h.wrs h)) (.ite h.wrs h)) (.ite (.wrs (.ite h.wrs h)) (.ite h.wrs h))

theorem State.Canon.countFrame {d : Die} {p : Nat} (h : s.Canon) : (s.countFrame d p).Canon :=
  have h₁ := Canon.ite h.wr.wr.raiseFns h.wr
  .ite h₁.wr h₁

theorem State.Canon.pipeFail {d : Die} {pipe : Nat} (h : s.Canon) : (s.pipeFail d pipe).Canon :=
  .ite h.inc (.ite h.inc.wr.raise.canaryStart h.inc.wrs.canaryStart)

theorem State.Canon.sendFrame {d : Die} {i : Nat} {f : CipherFrame} (h : s.Canon) : (s.sendFrame d i f).Canon := h.frame

theorem execEncryptFrame_canon {m : Fin 2} {stream : Fin 512} {mfas : BitVec 8} {data : List Byte} {agree : Bool}
    {pipe : Fin 17} (h : s.Canon) : CanonNext (execEncryptFrame m stream mfas data agree pipe s) :=
  .ite (.next h) <|
  have h₁ := h.streamDue
  .ite (.next h₁.sendFrame) <|
  .ite (have h₂ := Canon.ite h₁ h₁.wr.raiseFns; .next (.sendFrame (.ite h₂ h₂.wrs))) <|
  .ite (.next h₁.wrs.wr.sendFrame) <|
  .ite (.next h₁.wrs.pipeFail.sendFrame) (.next h₁.wrs.wr.countFrame.count.sendFrame)

theorem State.Canon.passFrame {d : Die} {i : Nat} {f : Fate} {data : List Byte} (h : s.Canon) :
    (s.passFrame d i f data).Canon :=
  h.frame

theorem State.Canon.distrust {d : Die} {i p : Nat} {cnt : Fld} {data : List Byte} (h : s.Canon) :
    (s.distrust d i p cnt data).Canon :=
  .ite h.inc.wr.passFrame h.inc.wr.passFrame

theorem State.Canon.distrustBlind {d : Die} {i p : Nat} {cnt : Fld} {len : Nat} (h : s.Canon) :
    (s.distrustBlind d i p cnt len).Canon :=
  .distrust (.ite h.fresh.inc h.fresh)

theorem State.Canon.seqHunt {d : Die} {i mfas seqb : Nat} (h : s.Canon) : (s.seqHunt d i mfas seqb).Canon :=
  .ite h.wrs (.ite h.wrs (.ite h.wrs.wrs h.wrs.wrs))

theorem State.Canon.decryptAt {d : Die} {i p seq mfas : Nat} {c : Coh} {data : List Byte} {agree : Bool} {pipe : Nat}
    (h : s.Canon) : (s.decryptAt d i p seq mfas c data agree pipe).Canon := by
  unfold State.decryptAt
  dsimp only
  split
  · exact .ite h.inc.wr.passFrame h.distrustBlind
  · exact .ite h.pipeFail.wr.passFrame (.ite h.count.wr.passFrame h.count.count.distrust)

theorem State.Canon.lockedFrame {d : Die} {i cst : Nat} (h : s.Canon) : (s.lockedFrame d i cst).1.Canon :=
  .fst_ite h.wr.wr (.fst_ite h.wr.wrs h.wr.wr)

theorem execDecryptFrame_canon {m : Fin 2} {stream : Fin 512} {mfas : BitVec 8} {coh : Option Coh} {data : List Byte}
    {agree : Bool} {pipe : Fin 17} (h : s.Canon) :
    CanonNext (execDecryptFrame m stream mfas coh data agree pipe s) := by
  unfold execDecryptFrame
  extract_lets d i u p
  have hu : u.Canon := h.streamDue
  refine .ite (.next h) (.ite (.next hu.passFrame) ?_)
  split
  · exact .next (.passFrame (.ite hu.wr hu.wrs.inc))
  · extract_lets r v
    have hv : v.Canon := .fst_ite hu.lockedFrame hu.seqHunt
    exact .ite (.next (.passFrame (.ite hv hv.inc))) (.ite (.next hv.decryptAt) (.next hv.distrustBlind))

theorem execLaEncrypt_canon {d : Desc} (h : s.Canon) : CanonNext (execLaEncrypt d s) :=
  .next (h.take fun _ hu => hu.onTarget fun _ hv => .ite hv.finish (.ite hv.finish hv.wr48.countFrame.frame))

theorem execLaDecrypt_canon {d : Desc} (h : s.Canon) : CanonNext (execLaDecrypt d s) :=
  .next (h.take fun _ hu => hu.onTarget fun _ hv => by split; exacts [hv.finish, hv.frame])

theorem execLookasideDone_canon {ring : BitVec 18} {src : List Byte} {agree : Bool} {pipe : Fin 17} (h : s.Canon) :
    CanonNext (execLookasideDone ring src agree pipe s) := by
  unfold execLookasideDone
  split
  · exact .next h
  · exact .ite (.next h.frame.finishOp) <|
    .ite (.next h.frame.pipeFail.finishOp) <|
    have h₁ := h.frame.count
    .ite (.next h₁.toHost.finishOp) <|
    .ite (.next h₁.toHost.finishOp) (.ite (.next h₁.toHost.finishOp) (.next h₁.finishOp))

theorem State.Canon.swapRxSlots {d : Die} {p : Nat} (h : s.Canon) : (s.swapRxSlots d p).Canon := h.swapSlots.copySlot.wrs

theorem execRxKeySwap_canon {m : Fin 2} {page : Fin 256} (h : s.Canon) : CanonNext (execRxKeySwap m page s) :=
  .ite (.next h.swapRxSlots) (.next h)

theorem execTxFramesRead_canon {m : Fin 2} {page : Fin 256} (h : s.Canon) : CanonNext (execTxFramesRead m page s) :=
  .next (h.readReg fun _ hu => hu.wr48)

theorem execSeqRead_canon {m : Fin 2} {stream : Fin 512} (h : s.Canon) : CanonNext (execSeqRead m stream s) :=
  .next (h.readReg fun _ hu => hu.wr48)

/-! ### The host interface -/

theorem execDoorbell_canon {fn : Fin 65} {ring : BitVec 18} {aligned : Bool} {data : BitVec 64} (h : s.Canon) :
    CanonNext (execDoorbell fn ring aligned data s) := by
  unfold execDoorbell
  dsimp only
  split
  · exact .next h.count.raiseFn
  · exact .ite (.next h.count.raiseFn) (.ite (.next h.count.setRing) (.next h.count.signal))

theorem State.Canon.countTurn {id : Nat} (h : s.Canon) : (s.countTurn id).Canon := h.wrs

theorem execDescriptorFetch_canon {ring : BitVec 18} {data : BitVec 512} (h : s.Canon) :
    CanonNext (execDescriptorFetch ring data s) := by
  unfold execDescriptorFetch
  dsimp only
  split
  · exact .next h
  · refine .ite (.next h) ?_
    split
    · exact .next h.countTurn.count.setRing.enlist.finish
    · exact .next (.ite h.countTurn.count.setRing.enlist h.countTurn.count.setRing.enlist.finish)

theorem execCompletionWrite_canon (h : s.Canon) : CanonNext (execCompletionWrite s) :=
  .ite (.next h) <| by
    split
    · exact .next h
    · split
      · exact .next h
      · exact .next h.count.writeEntry.frame.countOps

theorem execEventWrite_canon {fn : Fin 65} (h : s.Canon) : CanonNext (execEventWrite fn s) :=
  .ite (.next h) <| by
    split
    · exact .ite (.next h.count.frame.writeEntry) (.next h)
    · exact .next h

theorem execInterruptTimer_canon {ring : BitVec 18} (h : s.Canon) : CanonNext (execInterruptTimer ring s) := by
  unfold execInterruptTimer
  split
  · exact .next h
  · exact .next (.ite h.interrupt h)

theorem execNop_canon {d : Desc} (h : s.Canon) : CanonNext (execNop d s) := .next (h.take fun _ hu => hu.finish)

theorem execRingCreate_canon {d : Desc} (h : s.Canon) : CanonNext (execRingCreate d s) :=
  .next (h.take fun _ hu => .ite hu.finish hu.setRing.finish)

theorem execRingDestroy_canon {d : Desc} (h : s.Canon) : CanonNext (execRingDestroy d s) :=
  .next (h.take fun _ hu => by split; exacts [hu.finish, .ite hu.finish hu.setRing])

theorem execRingDestroyDone_canon {ring : BitVec 18} (h : s.Canon) : CanonNext (execRingDestroyDone ring s) := by
  unfold execRingDestroyDone
  dsimp only
  split
  · exact .next h
  · exact .ite (.next h) (.next (.frame (.foldl (fun _ _ hu => hu.finishOp) h)))

theorem execRingBind_canon {d : Desc} (h : s.Canon) : CanonNext (execRingBind d s) :=
  .next (h.take fun _ hu => by split; exacts [hu.finish, .ite hu.finish hu.setRing.finish])

theorem execVfConfig_canon {d : Desc} (h : s.Canon) : CanonNext (execVfConfig d s) :=
  .next (h.take fun _ hu => .ite hu.finish hu.wrs.finish)

theorem State.Canon.recount (h : s.Canon) : s.recount.Canon := .foldl (fun _ _ hu => hu.countOps) h

theorem State.Canon.dropAllRings (h : s.Canon) : s.dropAllRings.Canon := h.dropRings.wrP.recount

theorem execHostReset_canon (h : s.Canon) : CanonNext (execHostReset s) := .next h.frame.dropAllRings.wrP.wrP

theorem State.Canon.flr {fn : Nat} (h : s.Canon) : (s.flr fn).Canon :=
  .recount (.kwShow (.kwShow (.foldl (fun _ _ hu => hu.emptySlot.emptySlot.wr.wr) h.dropRings.frame)))

theorem execVfFlr_canon {v : Fin 64} (h : s.Canon) : CanonNext (execVfFlr v s) := .next (.ite h.flr h)

theorem execVfDisable_canon (h : s.Canon) : CanonNext (execVfDisable s) :=
  .next (.wrP (.foldl (fun _ _ hu => hu.flr) h))

theorem State.Canon.adminEn {en : Bool} (h : s.Canon) : (s.adminEn en).Canon :=
  .ite h.wrs.dropAllRings (.ite h.wrP (.ite h.wrP h.setRing.setRing.setRing.wrs))

theorem execAdminEn_canon {en : Bool} (h : s.Canon) : CanonNext (execAdminEn en s) := .next h.adminEn

theorem execPcieLinkUp_canon (h : s.Canon) : CanonNext (execPcieLinkUp s) := .next (.ite h.wrP h)

/-! ### Client ports and crosscut pairs -/

theorem State.Canon.laneGate {d : Die} {l : Nat} (h : s.Canon) : (s.laneGate d l).Canon :=
  .ite (.ite h.wr h) (.ite h.wr (.foldl (fun _ _ hu => hu.wrs) h.wr))

theorem State.Canon.portsShow {d : Die} (h : s.Canon) : (s.portsShow d).Canon :=
  .foldl (fun _ _ hu => hu.laneGate) (.foldl (fun _ _ hu => hu.wrs) h.wr)

theorem State.Canon.coordChange {d : Die} {p : Nat} (h : s.Canon) : (s.coordChange d p).Canon := h.bump.wr

theorem State.Canon.pairSwitch {d : Die} {p leg : Nat} (h : s.Canon) : (s.pairSwitch d p leg).Canon :=
  .ite h <|
  have h₁ := h.fresh.wr.inc.wrFree.coordChange
  .ite h₁.wrs h₁

theorem State.Canon.pairSelect {d : Die} {p : Nat} (h : s.Canon) : (s.pairSelect d p).Canon := by
  unfold State.pairSelect
  dsimp only
  split
  · exact h.pairSwitch
  · exact h.pairSwitch
  · exact .ite h.pairSwitch h

theorem State.Canon.selectCtx {d : Die} {o : Nat} (h : s.Canon) : (s.selectCtx d o).Canon :=
  .foldl (fun _ _ hu => hu.pairSelect) h

theorem State.Canon.pairAps {d : Die} {o level v : Nat} (h : s.Canon) : (s.pairAps d o level v).Canon :=
  .foldl (fun _ _ hu => hu.pairSwitch) h

theorem State.Canon.pairRole {d : Die} {p role : Nat} {taken : Bool} (h : s.Canon) : (s.pairRole d p role taken).Canon :=
  h.wrs.coordChange.portsShow

/-! ### Windows of transport PM -/

theorem State.Canon.pmCount {source die layer stamp : Nat} {f : PmSec → PmSec} (h : s.Canon) :
    (s.pmCount source die layer stamp f).Canon := by
  unfold State.pmCount
  split
  · exact h
  · exact h.frame

/-! ### Layers of transport PM -/

theorem State.Canon.codewords {d : Die} {l corrected uncorrectable : Nat} (h : s.Canon) :
    (s.codewords d l corrected uncorrectable).Canon :=
  h.inc.inc.pmCount

theorem State.Canon.pmWatch (h : s.Canon) : s.pmWatch.Canon := h.frame

/-! ### Failed slices and server signal fail -/

theorem State.Canon.ctxShow {d : Die} {o : Nat} (h : s.Canon) : (s.ctxShow d o).Canon :=
  .ite h (.selectCtx (.wrs (.ite (.foldl (fun _ _ hu => hu.wr) h) h)))

theorem State.Canon.ctxUpdate {f : Nat} {d : Die} {o : Nat} (h : s.Canon) : (s.ctxUpdate f d o).Canon := by
  induction f generalizing s d o with
  | zero => exact h.ctxShow
  | succ f ih => exact .foldl (fun _ _ hu => ih hu) h.ctxShow

theorem State.Canon.sliceShow {ns : List Nat} (h : s.Canon) : (s.sliceShow ns).Canon :=
  .pmWatch (.foldl (fun _ _ hu => hu.ctxUpdate) (.foldl (fun _ _ hu => .foldl (fun _ _ hv => hv.wr) hu) h))

theorem State.Canon.groupShow {n : Nat} (h : s.Canon) : (s.groupShow n).Canon := h.sliceShow

/-! ### OTN processing -/

theorem State.Canon.putTti {f : Fld} {d : Die} {i : Nat} {bytes : List Byte} (h : s.Canon) : (s.putTti f d i bytes).Canon :=
  .foldl (fun _ _ hu => hu.wr) h

theorem State.Canon.ttiFrame {acc : Fld} {d : Die} {l : OtnLayer} {i mfas : Nat} {b : Byte} (h : s.Canon) :
    (s.ttiFrame acc d l i mfas b).Canon :=
  .ite h.frame (.ite h.frame.putTti.wr h.frame)

theorem State.Canon.psiFrame {d : Die} {l : OtnLayer} {p : Psi} (h : s.Canon) : (s.psiFrame d l p).1.Canon := h.frame

theorem State.Canon.tcmFrame {d : Die} {o l : Nat} {oh : List Byte} {bip far : Nat} (h : s.Canon) :
    (s.tcmFrame d o l oh bip far).Canon :=
  .ite h.wrs h.wrs.pmCount

theorem State.Canon.pmFrame {d : Die} {o : Nat} {oh : List Byte} {bip far : Nat} (h : s.Canon) :
    (s.pmFrame d o oh bip far).Canon :=
  have h₁ := h.wrs.pmCount
  .ite h₁.inc h₁

theorem State.Canon.apsFrame {d : Die} {o mfas : Nat} {oh : List Byte} {far : Nat} (h : s.Canon) :
    (s.apsFrame d o mfas oh far).Canon :=
  .ite h (.ite h.wrs.wr.wr.raise.pairAps h.wrs)

theorem State.Canon.extract {d : Die} {l : OtnLayer} {en div drop : Fld} {i kind mfas : Nat} {oh : List Byte} {fail : Bool}
    {far : Nat} (h : s.Canon) : (s.extract d l en div drop i kind mfas oh fail far).Canon :=
  .ite h.wr <| by
    split
    · exact h
    · exact .ite h.wr (.ite h.wr.wr.writeEntry h.wr.inc.wr)

theorem State.Canon.sliceFrame {d : Die} {x : Nat} {l : OtnLayer} {oh : List Byte} {bip far : Nat} (h : s.Canon) :
    (s.sliceFrame d x l oh bip far).Canon :=
  h.wrs.wrs.pmCount.inc.ttiFrame.wr.sliceShow.extract

theorem State.Canon.ctxPsi {d : Die} {o : Nat} {l : OtnLayer} {x : Option Psi} (h : s.Canon) : (s.ctxPsi d o l x).Canon := by
  unfold State.ctxPsi
  split
  · exact h
  · exact .ite h.psiFrame <|
    have h₁ := h.psiFrame.wrs
    .ite h₁.wr h₁

theorem State.Canon.gmpReceived {d : Die} {o : Nat} {x : Option (Nat × Nat)} (h : s.Canon) : (s.gmpReceived d o x).Canon := by
  unfold State.gmpReceived
  split
  · exact h
  · exact h.wrs

theorem State.Canon.gmpSent {d : Die} {o : Nat} {x : Option Nat} (h : s.Canon) : (s.gmpSent d o x).Canon := by
  unfold State.gmpSent
  split
  · exact h
  · exact h.wrs

theorem State.Canon.bridge {d : Die} {o role : Nat} {oh : List Byte} (h : s.Canon) : (s.bridge d o role oh).Canon :=
  .ite h (.foldl (fun _ _ hu => hu.frame) h)

theorem State.Canon.oduFrame {d : Die} {o : Nat} {l : OtnLayer} {mfas : Nat} {oh : List Byte} {bip : List Nat}
    {psi : Option Psi} {impLost : Bool} {gmp : Option (Nat × Nat)} {far : Nat} (h : s.Canon) :
    (s.oduFrame d o l mfas oh bip psi impLost gmp far).Canon :=
  .extract <|
  .bridge <|
  .apsFrame <|
  .pmWatch <|
  .ctxUpdate <|
  .ctxPsi (.wr (.ttiFrame (.wr (.inc (.wr (.foldl (fun _ _ hu => hu.tcmFrame) h.gmpReceived.wrs.pmFrame))))))

theorem State.Canon.groupPsi {g : Nat} {d : Die} {l : OtnLayer} {psi : Option Psi} (h : s.Canon) :
    (s.groupPsi g d l psi).Canon := by
  unfold State.groupPsi
  dsimp only
  split
  · exact h.wr
  · exact .ite h.wr.psiFrame (.ite h.wr.psiFrame.wr.sliceShow h.wr.psiFrame)

theorem State.Canon.followMap {k : Side} {use useDie : Fld} {d : Die} {p : Nat → Bool} (h : s.Canon) :
    (s.followMap k use useDie d p).Canon :=
  .foldl (fun _ _ hu => hu.wrs) h

theorem State.Canon.rxOmfi {d : Die} {g : Nat} (h : s.Canon) : (s.rxOmfi d g).Canon :=
  .foldl (fun _ _ hu => hu.followMap.wr) h

theorem State.Canon.txOmfi {d : Die} {g : Nat} (h : s.Canon) : (s.txOmfi d g).Canon := .foldl (fun _ _ hu => hu.followMap) h

theorem execOtnFrameReceived_canon {m : Fin 2} {layer : OtnLayer} {mfas : BitVec 8} {omfi : Fin 20} {oh : List Byte}
    {bip : List Nat} {psi : Option Psi} {impLost : Bool} {gmp : Option (Nat × Nat)} {farSf : BitVec 48} (h : s.Canon) :
    CanonNext (execOtnFrameReceived m layer mfas omfi oh bip psi impLost gmp farSf s) :=
  .ite (.next h) <| by
    split
    · exact .next h.sliceFrame
    · exact .ite (.next h.frame.oduFrame) (.next h)
    · exact .next (.groupPsi (.ite h.frame.rxOmfi h.frame))

theorem State.Canon.badEntry {id : Nat} {r : Ring} (h : s.Canon) : (s.badEntry id r).Canon := by
  unfold State.badEntry
  split
  · exact h
  · exact h.frame

theorem State.Canon.insert {d : Die} {l : OtnLayer} {en rep : Fld} {i kind : Nat} {gen entry : List Byte} (h : s.Canon) :
    (s.insert d l en rep i kind gen entry).1.Canon := by
  unfold State.insert
  extract_lets k ctx again
  have hagain (u : State) (hu : u.Canon) : (again u).1.Canon := .fst_ite hu (.ite hu hu.inc)
  refine .fst_ite h ?_
  split
  · exact hagain s h
  · exact .fst_ite (hagain s h) (.fst_ite (hagain _ h.setRing.badEntry) h.setRing.frame.wrs)

theorem State.Canon.ttiOut {f : Fld} {d : Die} {l : OtnLayer} {i mfas : Nat} (h : s.Canon) :
    (s.ttiOut f d l i mfas).1.Canon :=
  .ite h.frame h

theorem State.Canon.sliceGen {d : Die} {x : Nat} {l : OtnLayer} {mfas : Nat} {gen : List Byte} (h : s.Canon) :
    (s.sliceGen d x l mfas gen).1.Canon :=
  h.wrs.ttiOut

theorem State.Canon.sliceSend {d : Die} {x : Nat} {l : OtnLayer} {mfas : Nat} {gen entry : List Byte} (h : s.Canon) :
    (s.sliceSend d x l mfas gen entry).1.Canon :=
  h.wr.sliceGen.insert

theorem State.Canon.signalNow {d : Die} {o : Nat} (h : s.Canon) : (s.signalNow d o).Canon := h.wrs

theorem State.Canon.tcmSend {d : Die} {o l : Nat} {x : State × List Byte} (h : x.1.Canon) : (s.tcmSend d o x l).1.Canon :=
  .fst_ite h h.wrs

theorem State.Canon.oduGen {d : Die} {o mfas : Nat} {l : OtnLayer} {gen : List Byte} (h : s.Canon) :
    (s.oduGen d o l mfas gen).1.Canon :=
  .fst_foldl (fun _ _ hx => hx.tcmSend) h.wrs.wr.ttiOut

theorem State.Canon.oduSend {d : Die} {o mfas : Nat} {l : OtnLayer} {gen entry : List Byte} (h : s.Canon) :
    (s.oduSend d o l mfas gen entry).1.Canon :=
  .fst_ite h.signalNow (Canon.insert h.signalNow.bridge.oduGen)

theorem execOtnFrameTransmit_canon {m : Fin 2} {layer : OtnLayer} {mfas : BitVec 8} {omfi : Fin 20}
    {gen entry : List Byte} {client : Option Nat} (h : s.Canon) :
    CanonNext (execOtnFrameTransmit m layer mfas omfi gen entry client s) :=
  .ite (.next h) <| by
    split
    · exact .next h.sliceSend.frame
    · exact .ite (.next h.gmpSent.oduSend.frame) (.next h)
    · exact .next (.frame (.ite h.txOmfi h))

theorem execEthBlockReceived_canon {m : Fin 2} {o : Fin 512} {kind : EthBlock} {taken : Nat} (h : s.Canon) :
    CanonNext (execEthBlockReceived m o kind taken s) :=
  .ite (.next h) <|
  have h₁ := Canon.ite h.inc h
  .ite (.next (.ite h₁.wrs.wr h₁.wrs)) <|
  .ite (.next h₁.wrs.wrs) (.ite (.next h₁.wrs) (.ite (.next h₁.wrs.wr) (.next h₁.wrs.inc.wr)))

theorem execApsTx_canon {m : Fin 2} {o : Fin 512} {level : Fin 8} (h : s.Canon) : CanonNext (execApsTx m o level s) :=
  .next (h.writeReg fun _ hu => hu.wrs)

theorem execLcrHandshake_canon {m : Fin 2} {o : Fin 512} {slots : List (Fin 960)} (h : s.Canon) :
    CanonNext (execLcrHandshake m o slots s) :=
  .ite (.next h) (.ite (.next (.foldl (fun _ _ hu => hu.wr) (.foldl (fun _ _ hu => hu.wr) h))) (.next h.raise))

theorem execOduCntClr_canon {m : Fin 2} {o : Fin 512} (h : s.Canon) : CanonNext (execOduCntClr m o s) :=
  .next (h.writeReg fun _ hu => hu.zeros)

/-! ### References, holdover and timing outputs -/

theorem State.Canon.judgeCand {c : Nat} (h : s.Canon) : (s.judgeCand c).Canon := h.wrs
theorem State.Canon.clearHist (h : s.Canon) : s.clearHist.Canon := h.wrP.frame
theorem State.Canon.showQl (h : s.Canon) : s.showQl.Canon := h.wrP.wrP

theorem State.Canon.timTo {st : Nat} (h : s.Canon) : (s.timTo st).Canon :=
  .ite h <|
  have h₁ := h.wrs.raise
  .ite h₁.clearHist h₁

theorem State.Canon.timLose (h : s.Canon) : s.timLose.Canon :=
  .ite h.wrs.timTo (.ite (.timTo (.inc (.ite h.wrs.fresh.frame h.wrs.frame))) h.wrs)

theorem State.Canon.timSelect {c : Nat} (h : s.Canon) : (s.timSelect c).Canon :=
  have h₁ := h.wrs.frame
  have h₂ := Canon.ite h₁ h₁.wrs
  .ite h₂.timTo h₂

theorem State.Canon.timUpdate (h : s.Canon) : s.timUpdate.Canon := by
  unfold State.timUpdate
  extract_lets u cur
  have hu : u.Canon := .foldl (fun _ _ hv => hv.judgeCand) h
  refine .ite hu.showQl ?_
  split
  · exact .showQl (.ite hu hu.timSelect)
  · exact .ite hu.showQl hu.timLose.showQl

theorem State.Canon.candDown {c : Nat} (h : s.Canon) : (s.candDown c).Canon := by
  unfold State.candDown
  exact .timUpdate (.wrs (.ite h.wrs.wrP h.wrs))

theorem State.Canon.candUp {c : Nat} (h : s.Canon) : (s.candUp c).Canon := by
  unfold State.candUp
  exact .timUpdate (.ite h.wrs.wrs.wr h.wrs)

theorem execCandidateActive_canon {c : Fin 14} (h : s.Canon) : CanonNext (execCandidateActive c s) :=
  .ite (.next h) (.next h.candUp)

theorem execCandidateInactive_canon {c : Fin 14} (h : s.Canon) : CanonNext (execCandidateInactive c s) :=
  .ite (.next h) (.next h.candDown)

theorem State.Canon.qlMessage {c ql : Nat} (h : s.Canon) : (s.qlMessage c ql).Canon :=
  .ite (.timUpdate (.ite h.wr.wrs.wr h.wr.wrs)) h.wr.wr.timUpdate

theorem execQlReceived_canon {c : Fin 14} {ql : BitVec 4} (h : s.Canon) : CanonNext (execQlReceived c ql s) :=
  .ite (.next h) (.next h.qlMessage)

theorem execQlTimeout_canon {c : Fin 14} (h : s.Canon) : CanonNext (execQlTimeout c s) :=
  .ite (.next h) (.next h.wrs.timUpdate)

theorem State.Canon.measure {c : Nat} {off : BitVec 16} (h : s.Canon) : (s.measure c off).Canon :=
  .ite h <|
  have h₁ := Canon.ite h.wr.wr.raise h.wr
  .ite (.ite (have h₂ := h₁.wr.wrs.raise; .ite h₂.wrP h₂) h₁.wr) <|
  .ite (have h₂ := h₁.wr.wrs.raise; .ite h₂.wrP h₂) (have h₂ := h₁.wr.wrs; .ite h₂.wr.wrP h₂)

theorem execFreqMeasureUpdate_canon {offs : List (BitVec 16)} (h : s.Canon) :
    CanonNext (execFreqMeasureUpdate offs s) :=
  .ite (.next h) (.next (.timUpdate (.foldl (fun _ _ hu => hu.measure) h)))

theorem State.Canon.waitEnds {c : Nat} (h : s.Canon) : (s.waitEnds c).Canon := h.wrs.timUpdate

theorem execWtrExpire_canon {c : Fin 14} (h : s.Canon) : CanonNext (execWtrExpire c s) :=
  .ite (.next h.waitEnds) (.next h)

theorem execWtrClear_canon {c : Fin 14} (h : s.Canon) : CanonNext (execWtrClear c s) :=
  .next (h.writeReg fun _ hu => hu.waitEnds)

theorem execHoldoffExpire_canon (h : s.Canon) : CanonNext (execHoldoffExpire s) :=
  .ite (.next h.wrP.wr.timUpdate) (.next h)

theorem execTimSwitch_canon (h : s.Canon) : CanonNext (execTimSwitch s) :=
  .ite (.next h) (.next (.timUpdate (.ite h.wrs h.wrs.inc.raise)))

theorem execXoLost_canon (h : s.Canon) : CanonNext (execXoLost s) :=
  .ite (.next h) <|
  have h₁ := h.wrP.raise
  .next (.ite h₁.timLose.showQl h₁)

theorem execDpllLocked_canon (h : s.Canon) : CanonNext (execDpllLocked s) := .ite (.next h.timTo.showQl) (.next h)

theorem execDpllPhaseError_canon (h : s.Canon) : CanonNext (execDpllPhaseError s) :=
  .ite (.next h.timTo.showQl) (.next h)

theorem execHistorySecond_canon {avg : BitVec 64} (h : s.Canon) : CanonNext (execHistorySecond avg s) :=
  .ite (.next h) (.ite (.next h.wrP) (.next h.wrP.frame))

theorem execTimPstep_canon {v : BitVec 32} (h : s.Canon) : CanonNext (execTimPstep v s) :=
  .next (h.writeReg fun _ hu => hu.wrs)

theorem execPhaseStepDone_canon (h : s.Canon) : CanonNext (execPhaseStepDone s) := .next h.wrs

theorem State.Canon.ppsShift (h : s.Canon) : s.ppsShift.Canon := h.wr.wr

theorem execPpsInEdge_canon {p : Fin 2} {spaced onTime : Bool} (h : s.Canon) :
    CanonNext (execPpsInEdge p spaced onTime s) :=
  .ite (.ite (have h₁ := h.wrs.wrP.raiseField; .next (.ite h₁.ppsShift h₁)) (.next h.wr)) <|
  .ite (.next h.wr) (.ite (.next h.wr) (.next (.ite h.wr.inc.raise.ppsShift h.wr)))

theorem execPpsInMissing_canon {p : Fin 2} (h : s.Canon) : CanonNext (execPpsInMissing p s) :=
  .ite (.next h.wrs.wrP.raiseField) (.next h)

theorem execInternalSecond_canon (h : s.Canon) : CanonNext (execInternalSecond s) :=
  .next (.foldl (fun _ _ hu => hu.wrs) (.foldl (fun _ _ hu => .ite hu.wr hu) h.wrP.wrP))

theorem execPpsRealign_canon {p : Fin 4} (h : s.Canon) : CanonNext (execPpsRealign p s) :=
  .next (h.writeReg fun _ hu => .ite hu hu.wrs)

theorem execClkRealign_canon {c : Fin 4} (h : s.Canon) : CanonNext (execClkRealign c s) :=
  .next (h.writeReg fun _ hu => hu.wr)

theorem State.Canon.cselWrite {n lane : Nat} {en : Bool} (h : s.Canon) : (s.cselWrite n lane en).Canon :=
  .ite h <|
  have h₁ := h.wrs.wrs
  have h₂ := Canon.ite h₁.candDown h₁
  .ite h₂.candUp h₂

theorem execClkSelWrite_canon {n : Fin 4} {lane : BitVec 6} {en : Bool} (h : s.Canon) :
    CanonNext (execClkSelWrite n lane en s) :=
  .next (h.writeReg fun _ hu => hu.cselWrite)

theorem execPpsTallyRead_canon (h : s.Canon) : CanonNext (execPpsTallyRead s) := .next (h.readReg fun _ hu => hu.wr48)

theorem execPpsOutPulse_canon {p : Fin 4} (h : s.Canon) : CanonNext (execPpsOutPulse p s) :=
  .ite (.next h) (.ite (.next h) (.next h.wrs))

theorem State.Canon.timWritten {old : State} (h : s.Canon) : (s.timWritten old).Canon := by
  unfold State.timWritten
  exact .timUpdate (.foldl (fun _ _ hu => .ite hu.wr.raiseField hu) (.foldl (fun _ _ hu => .ite hu.wrs hu) (.ite h.ppsShift h)))

/-! ### Client lanes and the crosscut link -/

theorem State.Canon.portEvent {d : Die} {l : Nat} (h : s.Canon) : (s.portEvent d l).Canon := h.raiseField

theorem execCdrLockChange_canon {m : Fin 2} {l : Fin 24} {locked : Bool} {ppm : BitVec 16} (h : s.Canon) :
    CanonNext (execCdrLockChange m l locked ppm s) := by
  unfold execCdrLockChange
  extract_lets d u v
  have hu : u.Canon := h.wr.raiseField
  have hv : v.Canon := .ite hu.wr hu
  refine .ite (.next h) (.ite (.next hu) ?_)
  split
  · exact .next (.ite hv hv.portEvent.pmWatch)
  · exact .next hv

theorem execLaneTrained_canon {m : Fin 2} {l : Fin 24} (h : s.Canon) : CanonNext (execLaneTrained m l s) :=
  .ite (.next h.wr) (.next h)

theorem execLaneTrainFail_canon {m : Fin 2} {l : Fin 24} (h : s.Canon) : CanonNext (execLaneTrainFail m l s) :=
  .ite (.next h.wr.inc.raise) (.next h)

theorem execLaneRetrain_canon {m : Fin 2} {l : Fin 24} (h : s.Canon) : CanonNext (execLaneRetrain m l s) :=
  .ite (.next h.wr) (.next h)

theorem execLaneTrainRequest_canon {m : Fin 2} {l : Fin 24} {coef : Fin 5} {req : Fin 3} {beyond : Bool} (h : s.Canon) :
    CanonNext (execLaneTrainRequest m l coef req beyond s) :=
  .ite (.next h) (.ite (.next h.wr) (.ite (.next h.wr) (.next h.wrs)))

theorem State.Canon.prbsCount {d : Die} {l errs nbits : Nat} (h : s.Canon) : (s.prbsCount d l errs nbits).Canon :=
  .ite h.inc.inc h

theorem execPrbsLock_canon {m : Fin 2} {l : Fin 24} (h : s.Canon) : CanonNext (execPrbsLock m l s) :=
  .ite (.next h.wr) (.next h)

theorem execPrbsLockLost_canon {m : Fin 2} {l : Fin 24} {errs nbits : BitVec 48} (h : s.Canon) :
    CanonNext (execPrbsLockLost m l errs nbits s) :=
  .ite (.next h.prbsCount.wrs) (.next h)

theorem execPrbsErrRead_canon {m : Fin 2} {l : Fin 24} {errs nbits : BitVec 48} (h : s.Canon) :
    CanonNext (execPrbsErrRead m l errs nbits s) :=
  .next (h.prbsCount.readReg fun _ hu => hu.wr48.wr48)

theorem State.Canon.inject {d : Die} {f : Fld} {l n : Nat} (h : s.Canon) : (s.inject d f l n).Canon :=
  h.writeReg fun _ hu => .ite hu.raiseField hu.wrs

theorem execInjSingle_canon {m : Fin 2} {l : Fin 24} (h : s.Canon) : CanonNext (execInjSingle m l s) := .next h.inject

theorem execInjBurst_canon {m : Fin 2} {l : Fin 24} (h : s.Canon) : CanonNext (execInjBurst m l s) := .next h.inject

theorem execInjDone_canon {m : Fin 2} {l : Fin 24} (h : s.Canon) : CanonNext (execInjDone m l s) := .next h.wrs

theorem execAlignLockChange_canon {m : Fin 2} {l : Fin 24} {locked : Bool} {corrected uncorrectable : Nat}
    (h : s.Canon) : CanonNext (execAlignLockChange m l locked corrected uncorrectable s) :=
  .ite (.next h) <|
  have h₁ := h.codewords
  .ite (.next h₁) (.next (.ite h₁.wr h₁.wr.portEvent.pmWatch))

theorem State.Canon.linkEval {d : Die} (h : s.Canon) : (s.linkEval d).Canon :=
  .ite h <|
  have h₁ := h.wr.raise
  .ite (.foldl (fun _ _ hu => hu.wr) h₁.wr) h₁.inc.wr

theorem execBlockLock_canon {m : Fin 2} {l : Fin 24} (h : s.Canon) : CanonNext (execBlockLock m l s) :=
  .ite (.next h.wr.linkEval) (.next h)

theorem execBlockLockLost_canon {m : Fin 2} {l : Fin 24} (h : s.Canon) : CanonNext (execBlockLockLost m l s) :=
  .ite (.next h) <|
  have h₁ := h.wrs.inc.linkEval
  .next (.ite h₁ h₁.wr.wr)

theorem execAlignBlock_canon {m : Fin 2} {l : Fin 24} {pos : Byte} {skew : Nat} (h : s.Canon) :
    CanonNext (execAlignBlock m l pos skew s) :=
  .ite (.next h.wrs.linkEval) (.next h)

theorem execStatusBlock_canon {m : Fin 2} {id : BitVec 12} {ql : BitVec 4} {tstate : BitVec 3} (h : s.Canon) :
    CanonNext (execStatusBlock m id ql tstate s) :=
  .ite (.next h) (.next (.foldl (fun _ _ hu => hu.wr.timUpdate) (.linkEval (.ite h.wrs.wr h.wrs))))

theorem execTimeBlock_canon {m : Fin 2} {x : BitVec 12} {count : BitVec 48} {x₂ : BitVec 3} (h : s.Canon) :
    CanonNext (execTimeBlock m x count x₂ s) :=
  .ite (.next h.wr48) (.next h)

theorem execCoordBlock_canon {m : Fin 2} {p : Fin 32} {owner take x : Bool} {seq ack : BitVec 16} (h : s.Canon) :
    CanonNext (execCoordBlock m p owner take x seq ack s) :=
  .ite (.next h) <|
  .ite (.ite (.next h.wr.wrs) (.next h.wr.wr)) <|
  have h₁ := h.wr.wr.raise
  .next (.ite h₁.pairRole h₁)

theorem execBadCtrl_canon {m : Fin 2} (h : s.Canon) : CanonNext (execBadCtrl m s) := .next (.ite h.inc h)

theorem execXcDataBlock_canon {m : Fin 2} {p : Fin 32} {sof : Bool} {bytes : List Byte} (h : s.Canon) :
    CanonNext (execXcDataBlock m p sof bytes s) :=
  .ite (.next h) <|
  have h₁ := Canon.ite h.wrs h
  .ite (.next h₁) (.next h₁.frame)

theorem State.Canon.sendBlock {d : Die} {kind p : Nat} {body : List Nat} (h : s.Canon) : (s.sendBlock d kind p body).Canon :=
  h.frame

theorem execXcTimeSend_canon {m : Fin 2} (h : s.Canon) : CanonNext (execXcTimeSend m s) :=
  .ite (.next h) (.next h.sendBlock)

theorem execXcStatusSend_canon {m : Fin 2} (h : s.Canon) : CanonNext (execXcStatusSend m s) :=
  .ite (.next h) (.next h.sendBlock)

theorem execXcCoordSend_canon {m : Fin 2} {p : Fin 32} (h : s.Canon) : CanonNext (execXcCoordSend m p s) :=
  .ite (.next h.sendBlock) (.next h)

theorem State.Canon.pairLost {d : Die} {p : Nat} (h : s.Canon) : (s.pairLost d p).Canon :=
  .ite h.wr.pairRole.wr.raise (.ite h.pairSwitch h)

theorem execXcPartnerLost_canon {m : Fin 2} (h : s.Canon) : CanonNext (execXcPartnerLost m s) :=
  .ite (.next h) (.next (.foldl (fun _ _ hu => hu.pairLost) h.wr.raise))

/-! ### Nonlinear compensation -/

theorem State.Canon.nlcUpdate {n : Nat} (h : s.Canon) : (s.nlcUpdate n).Canon := .frame (.wrs (.ite h h.wr))
theorem State.Canon.xiStep {n : Nat} (h : s.Canon) : (s.xiStep n).Canon := .ite h h.wrs.nlcUpdate

/-! ### The demapper -/

theorem State.Canon.demapSym {n cls : Nat} {comp : List Nat} {nsub sf g : Nat} {y : RxSym} (h : s.Canon) :
    (s.demapSym n cls comp nsub sf g y).1.Canon :=
  h.noiseAdd.noiseAdd.noiseAdd.noiseAdd

theorem State.Canon.demap {n cls nsub sf g : Nat} {comp : List Nat} {l : List RxSym} (h : s.Canon) :
    (s.demap n cls comp nsub sf g l).1.Canon := by
  induction l generalizing s g with
  | nil => exact h
  | cons y l ih => exact ih h.demapSym

/-! ### Receive signal processing -/

theorem State.Canon.acqTo {n st : Nat} (h : s.Canon) : (s.acqTo n st).Canon :=
  have h₁ := Canon.ite h.count h
  .zeros (.wrs (.ite h₁ h₁.count))

theorem State.Canon.chainStop {n : Nat} (h : s.Canon) : (s.chainStop n).Canon := h.wrs.frame

theorem State.Canon.frameOff {n : Nat} (h : s.Canon) : (s.frameOff n).Canon := .ite h.wr h.wr.wr

theorem State.Canon.dropCands {n : Nat} (h : s.Canon) : (s.dropCands n).Canon := .frame (.foldl (fun _ _ hu => hu.wrs) h)

theorem State.Canon.trackEnd {n : Nat} (h : s.Canon) : (s.trackEnd n).Canon := h.nlcUpdate.dropCands.chainStop.frameOff

theorem State.Canon.noWarm {n : Nat} (h : s.Canon) : (s.noWarm n).Canon := h.wrs

theorem State.Canon.acqOff {n : Nat} (h : s.Canon) : (s.acqOff n).Canon := .ite h h.acqTo.noWarm.trackEnd

theorem State.Canon.acqGate {n : Nat} (h : s.Canon) : (s.acqGate n).Canon := .ite (.ite h.acqTo.noWarm h) h.acqOff

theorem State.Canon.acqCold {n : Nat} (h : s.Canon) : (s.acqCold n).Canon := .ite h h.acqTo.noWarm.trackEnd

theorem State.Canon.discard {n : Nat} (h : s.Canon) : (s.discard n).Canon := .zeros (.foldl (fun _ _ hu => hu.zeros) h)

theorem State.Canon.acqFailed {n : Nat} (h : s.Canon) : (s.acqFailed n).Canon := h.acqTo.inc.count.wr.noWarm.raise

theorem State.Canon.leaveTrack {n : Nat} (h : s.Canon) : (s.leaveTrack n).Canon := h.acqTo.wrs.raise.trackEnd

theorem State.Canon.warmStart {n : Nat} (h : s.Canon) : (s.warmStart n).Canon := h.acqTo.count.wrs

theorem State.Canon.scanStart {n : Nat} (h : s.Canon) : (s.scanStart n).Canon := h.acqTo.wr

theorem execSignalDetected_canon {n : Fin 4} (h : s.Canon) : CanonNext (execSignalDetected n s) :=
  .ite (.ite (.next h.warmStart) (.ite (.next h.scanStart) (.next h))) (.next h)

theorem execCdScanDone_canon {n : Fin 4} {cdEst : BitVec 16} (h : s.Canon) : CanonNext (execCdScanDone n cdEst s) :=
  .ite (.next h) (.next h.acqTo.wrs)

theorem execFreqAcqDone_canon {n : Fin 4} {offset : BitVec 16} (h : s.Canon) : CanonNext (execFreqAcqDone n offset s) :=
  .ite (.next h.acqTo.wr) (.next h)

theorem execEqConverged_canon {n : Fin 4} {rateDiff : BitVec 16} (h : s.Canon) :
    CanonNext (execEqConverged n rateDiff s) :=
  .ite (.next h.acqTo) (.next h)

theorem execTrainLockDone_canon {n : Fin 4} {farSub : Fin 8} {farRolloff : BitVec 7} (h : s.Canon) :
    CanonNext (execTrainLockDone n farSub farRolloff s) :=
  .ite (.next h.acqTo) (.next h)

theorem State.Canon.chainStart {n : Nat} {join : Bool} (h : s.Canon) : (s.chainStart n join).Canon :=
  have h₁ := h.inc.wrs
  have h₂ := Canon.ite h₁.wrs.frame h₁
  .ite h₂.wrs h₂

theorem execPhaseLockDone_canon {n : Fin 4} (h : s.Canon) : CanonNext (execPhaseLockDone n s) :=
  .ite (.next h.acqTo.wr.raise.nlcUpdate.chainStart) (.next h)

theorem execAcqFail_canon {n : Fin 4} (h : s.Canon) : CanonNext (execAcqFail n s) := by
  unfold execAcqFail
  split
  · exact .next h
  · exact .ite (.next h.acqFailed) (.next h)

theorem execLosSet_canon {n : Fin 4} (h : s.Canon) : CanonNext (execLosSet n s) :=
  .ite (.next h) <|
  have h₁ := h.wr.count.raiseField
  .ite (.next h₁.leaveTrack) (.ite (.next h₁.acqFailed) (.next h₁))

theorem execLosClear_canon {n : Fin 4} (h : s.Canon) : CanonNext (execLosClear n s) :=
  .ite (.next h) <|
  have h₁ := h.wr.count.raiseField
  .ite (.next h₁.warmStart) (.next h₁)

theorem execAcqRestart_canon {n : Fin 4} (h : s.Canon) : CanonNext (execAcqRestart n s) :=
  .next (h.writeReg fun _ hu => hu.wr)

theorem State.Canon.losTick {n : Nat} {rms : List (BitVec 8)} (h : s.Canon) : (s.losTick n rms).Canon := h.wrs.wr

theorem State.Canon.eqTick {n : Nat} {rx : RxReport} (h : s.Canon) : (s.eqTick n rx).Canon :=
  .wrs <|
  .ite (.wr (by split <;> exact .wrs (.ite h.wrs.count h.wrs))) <|
  by split <;> exact .wrs (.ite h.wrs.count h.wrs)

theorem State.Canon.rxTick {n : Nat} {rx : RxReport} (h : s.Canon) : (s.rxTick n rx).Canon :=
  have h₁ := Canon.ite h h.losTick.eqTick
  .ite h₁.wr.wr.acqCold.discard.nlcUpdate h₁.wr

theorem State.Canon.stepTick {d : Die} (h : s.Canon) : (s.stepTick d).Canon := h.count.count

theorem execOvrSfLatch_canon {n : Fin 4} {peaks : List (Fin 129)} {clips : List (BitVec 16)} {rx : RxReport}
    (h : s.Canon) : CanonNext (execOvrSfLatch n peaks clips rx s) :=
  .ite (.next h) <|
  .next <|
  .rxTick <|
  .stepTick (.dacTick (.foldl (fun _ _ hu => hu.wr.count.count) (.foldl (fun _ _ hu => hu.ovrLatch) h)))

theorem execRxLockLost_canon {n : Fin 4} {cause : LockLoss} (h : s.Canon) : CanonNext (execRxLockLost n cause s) :=
  .ite (.next h.leaveTrack) (.next h)

theorem execCdEstUpdate_canon {n : Fin 4} {residual : BitVec 16} (h : s.Canon) :
    CanonNext (execCdEstUpdate n residual s) :=
  .ite (.ite (.next h.wr) (.next h.wr.wrInt.nlcUpdate)) (.next h)

theorem execSlipCandidate_canon {n : Fin 4} {pol : Fin 2} {sub : Fin 16} {jump : BitVec 16} {start : BitVec 20}
    (h : s.Canon) : CanonNext (execSlipCandidate n pol sub jump start s) :=
  .ite (.next h) (.ite (.next h.wr) (.next h.wrs))

theorem State.Canon.pilotError {n i : Nat} {err : BitVec 16} (h : s.Canon) : (s.pilotError n i err).Canon :=
  .ite h.frame h.frame.wrInt.wrInt

theorem execPilotCheck_canon {n : Fin 4} {pol : Fin 2} {sub : Fin 16} {err : BitVec 16} {dist : BitVec 32}
    {sf : BitVec 48} {pilot : BitVec 20} (h : s.Canon) : CanonNext (execPilotCheck n pol sub err dist sf pilot s) :=
  .ite (.next h) <|
  have h₁ := h.pilotError.noiseAdd
  .ite (.next (.ite h₁.inc.count.wr h₁)) (.ite (.next h₁.wrs.inc.count.count.frame) (.next h₁.wrs.count))

theorem execSlipClr_canon {m c : Fin 2} (h : s.Canon) : CanonNext (execSlipClr m c s) :=
  .next (h.writeReg fun _ hu => hu.zeros)

/-! ### The decoder pool -/

theorem State.Canon.poolShow {d : Die} (h : s.Canon) : (s.poolShow d).Canon := h.wrs

theorem State.Canon.engFail {d : Die} {e : Nat} (h : s.Canon) : (s.engFail d e).Canon :=
  .ite h.inc (.ite h.inc.wr.raise.canaryStart h.inc.wrs.canaryStart.frame.poolShow)

theorem State.Canon.shedJudge {n : Nat} {arrival : Bool} (h : s.Canon) : (s.shedJudge n arrival).Canon :=
  .wr (.wrs (.ite h.wrs.wakeParked h.wrs))

theorem State.Canon.payOvertime {p : Pos} (h : s.Canon) : (s.payOvertime p).Canon := h.wr.bump.count

theorem State.Canon.slipInto {r : SlipRec} {nsub : Nat} {p : Pos} (h : s.Canon) : (s.slipInto r nsub p).1.Canon := by
  unfold State.slipInto
  dsimp only
  split
  · exact h
  all_goals exact .fst_ite (.fst_ite (.ite h h.inc.count) (.payOvertime (.ite h h.inc.count))) (.ite h h.inc)

theorem State.Canon.slipApply {r : SlipRec} {nsub : Nat} {l : List Pos} (h : s.Canon) : (s.slipApply r nsub l).1.Canon := by
  induction l generalizing s with
  | nil => exact h
  | cons p l ih => exact ih (.fst_ite h.slipInto h)

theorem execSlipRecord_canon {n : Fin 4} (h : s.Canon) : CanonNext (execSlipRecord n s) := by
  unfold execSlipRecord
  split
  · exact .next h
  · exact
      have h₁ := Canon.ite h.frame.inc h.frame
      .next (.shedJudge (.frame (.slipApply (.ite h₁.frame h₁))))

theorem execPositionComplete_canon {n : Fin 4} {sf : BitVec 48} {j : Fin 252} {syms : List RxSym} {first : Nat}
    (h : s.Canon) : CanonNext (execPositionComplete n sf j syms first s) :=
  .ite (.next h) (.next h.demap.count.wr.wrs.lineCredits.frame.frame.shedJudge)

theorem execPositionDispatch_canon {m : Fin 2} {engine : Fin 68} (h : s.Canon) :
    CanonNext (execPositionDispatch m engine s) :=
  .ite (.next h) <| by
    split
    · exact .next h
    · exact .next (.frame (.ite h.payOvertime h))

theorem State.Canon.iterated {here : Pos → Bool} {p : Pos} (h : s.Canon) : (s.iterated here p).Canon :=
  have h₁ := h.frame.bump
  .ite h₁.frame h₁

theorem State.Canon.finishPos {here : Pos → Bool} {p : Pos} {ok : Bool} (h : s.Canon) : (s.finishPos here p ok).Canon :=
  have h₁ := Canon.ite h.count h
  .shedJudge (.frame (.ite h₁.count h₁))

theorem execIterationEnd_canon {m : Fin 2} {engine : Fin 68} {misreport : Bool} (h : s.Canon) :
    CanonNext (execIterationEnd m engine misreport s) := by
  unfold execIterationEnd
  dsimp only
  split
  · exact .next h
  · exact
      have h₁ := Canon.ite h h.iterated
      .ite (.ite (.next h₁.finishPos) (.next h₁.finishPos.engFail)) <|
      .ite (.next h₁.frame) <|
      .ite (.next h₁.finishPos) (.ite (.next h₁.frame) (.ite (.next h₁.payOvertime.frame) (.next h₁.finishPos)))

theorem State.Canon.countRelease {p : Pos} (h : s.Canon) : (s.countRelease p).Canon :=
  have h₁ := h.bump.count
  .ite h₁.inc (.ite h₁.inc h₁)

theorem State.Canon.countErrors {p : Pos} (h : s.Canon) : (s.countErrors p).Canon := h.bump.bump.pmCount

theorem State.Canon.passOn {p : Pos} (h : s.Canon) : (s.passOn p).Canon :=
  .ite h.frame (.count (.count (.inc (.inc (.ite h.frame.inc.count h.frame)))))

theorem State.Canon.tagPosition {p : Pos} {unsat changed : Nat} (h : s.Canon) : (s.tagPosition p unsat changed).Canon :=
  .ite h h.emit

theorem execPositionRelease_canon {n : Fin 4} (h : s.Canon) : CanonNext (execPositionRelease n s) := by
  unfold execPositionRelease
  split
  · exact .next h
  · exact .ite (.next h) (.next h.countRelease.countErrors.tagPosition.passOn.lineCredits.frame.shedJudge)

theorem execOtTokenReload_canon {m : Fin 2} (h : s.Canon) : CanonNext (execOtTokenReload m s) := .next h.wr.wrs

theorem execKatTest_canon {m : Fin 2} {answer : List Bool} (h : s.Canon) : CanonNext (execKatTest m answer s) :=
  .ite (.next h) <|
  .ite (.next h.wr.inc) (.ite (.next h) (by split; exacts [.next h, .next (.ite h.wr.wr h.wr.wr.engFail)]))

theorem execFecPhaseWindow_canon {n : Fin 4} (h : s.Canon) : CanonNext (execFecPhaseWindow n s) :=
  .ite (.next h) <| by
    split
    · exact .next h.frame
    · exact .ite (have h₁ := h.frame.wrs; .next (.ite h₁ h₁.wr.raise)) (have h₁ := h.frame.wrs; .next (.ite h₁.wrs h₁))

theorem execDecCntClr_canon {m c : Fin 2} (h : s.Canon) : CanonNext (execDecCntClr m c s) :=
  .next (h.writeReg fun _ hu => hu.zeros)

theorem execUnfinishedHwmRead_canon {m c : Fin 2} (h : s.Canon) : CanonNext (execUnfinishedHwmRead m c s) :=
  .next (h.readReg fun _ hu => hu.wr)

/-! ### Line groups -/

theorem State.Canon.setMask {f : Fld} {g n : Nat} {v : Bool} (h : s.Canon) : (s.setMask f g n v).Canon := h.wr
theorem State.Canon.setRef {g sf a : Nat} (h : s.Canon) : (s.setRef g sf a).Canon := .ite h.frame.frame h.frame

theorem State.Canon.chooseRef {g : Nat} {n : Option Nat} (h : s.Canon) : (s.chooseRef g n).Canon := by
  unfold State.chooseRef
  dsimp only
  split
  · exact .wr (.foldl (fun _ _ hu => hu.wr) h.frame)
  · exact .wrs (.foldl (fun _ _ hu => hu.wr) h.frame)

theorem State.Canon.raiseMember {reason g n : Nat} {far : Option Nat} (h : s.Canon) : (s.raiseMember reason g n far).Canon :=
  h.raise

theorem State.Canon.memberOut {g n far : Nat} {skew : Bool} (h : s.Canon) : (s.memberOut g n far skew).Canon :=
  have h₁ := h.setMask.wrs
  have h₂ := Canon.raiseMember (.inc (.ite h₁.setMask h₁))
  .groupShow (.ite h₂.wr h₂)

theorem State.Canon.memberEnter {g n : Nat} (h : s.Canon) : (s.memberEnter g n).Canon := h.setMask.wr.groupShow

theorem State.Canon.memberLost {n : Nat} (h : s.Canon) : (s.memberLost n).Canon := by
  unfold State.memberLost
  split
  · exact h
  · exact .wr (.wrs (.ite h.memberOut h))

theorem State.Canon.judgeMember {g n far : Nat} {sigma : Int} (h : s.Canon) : (s.judgeMember g n far sigma).Canon :=
  .ite (.ite h.wrs h.wrs.memberOut) (.ite h.wrs.wrs (.ite h.wrs.wr.memberEnter (.ite h.wrs.wr.wr h.wrs.wr)))

theorem State.Canon.memberArrival {n far arr : Nat} (h : s.Canon) : (s.memberArrival n far arr).Canon := by
  unfold State.memberArrival
  split
  · exact h
  next g _ =>
    extract_lets r s₁ s₂ live ref s₃
    have h₁ : s₁.Canon := .ite h.wr.chooseRef.wr h
    have h₂ : s₂.Canon := .ite h₁.chooseRef h₁
    have h₃ : s₃.Canon := .ite h₂ (.ite h₂.setRef (.ite h₂.setRef h₂))
    refine .ite h₃ ?_
    split
    · exact h₃
    · exact h₃.judgeMember

theorem execMemberIn_canon {n : Fin 4} (h : s.Canon) : CanonNext (execMemberIn n s) := by
  unfold execMemberIn
  split
  · exact .next h
  · dsimp only
    split
    · exact .next h
    · exact .ite (.next h) (.next h.inc.raiseMember.memberEnter)

theorem execGroupRelease_canon {g : Fin 4} (h : s.Canon) : CanonNext (execGroupRelease g s) := by
  unfold execGroupRelease
  dsimp only
  split
  · exact .next h
  · exact .ite (.next h.wr) (.next h)

theorem execReleasePositionMsg_canon {g : Fin 4} (h : s.Canon) : CanonNext (execReleasePositionMsg g s) := by
  unfold execReleasePositionMsg
  split
  · exact .next h
  · exact .ite (.next h.frame.wr) (.next h.frame)

theorem execRefClear_canon {g : Fin 4} (h : s.Canon) : CanonNext (execRefClear g s) :=
  .ite (.next h.chooseRef) (.next h)

theorem execRefRestart_canon {g : Fin 4} (h : s.Canon) : CanonNext (execRefRestart g s) := .next h.wr

/-! ### The Mymos line frame -/

theorem State.Canon.msgShow {n : Nat} (h : s.Canon) : (s.msgShow n).Canon := h.wrs

theorem State.Canon.lineBegin {n : Nat} {r : LineRate} (h : s.Canon) : (s.lineBegin n r).1.Canon :=
  .fst_ite h (.ite h h.fresh.fresh)

theorem State.Canon.annEnds {n : Nat} (h : s.Canon) : (s.annEnds n).Canon := .ite h.wrs h

theorem State.Canon.overheadBegins {n : Nat} {r : LineRate} {t : TxLine} (h : s.Canon) : (s.overheadBegins n r t).Canon :=
  have h₁ := h.annEnds.frame
  .msgShow (.wr (.ite h₁.count h₁))

theorem State.Canon.lineSent {n : Nat} {r : LineRate} {t : TxLine} {filled : Bool} {dims : List (Nat × Nat)} (h : s.Canon) :
    (s.lineSent n r t filled dims).Canon :=
  h.frame

theorem State.Canon.lineFilled {n : Nat} {r : LineRate} {t : TxLine} (h : s.Canon) : (s.lineFilled n r t).Canon :=
  .lineSent (.foldl (fun _ _ hu => hu.count) h.wr.inc.frame)

theorem State.Canon.lineCoded {n : Nat} {r : LineRate} {t : TxLine} (h : s.Canon) : (s.lineCoded n r t).Canon :=
  .lineSent (.ite h.overheadBegins h)

theorem execTxLineFrame_canon {n : Fin 4} {frames : List (List (List Byte))} (h : s.Canon) :
    CanonNext (execTxLineFrame n frames s) := by
  unfold execTxLineFrame
  extract_lets t lf r follows b t'
  have hb : b.1.Canon := .fst_ite h.lineBegin h
  exact .ite (.next h) (.ite (.next h.frame) (.next (.ite hb.lineCoded hb.lineFilled)))

theorem State.Canon.jumpPast {n far : Nat} (h : s.Canon) : (s.jumpPast n far).Canon := h.frame

theorem State.Canon.predictFrom {n : Nat} (h : s.Canon) : (s.predictFrom n).Canon := h.frame

theorem State.Canon.farClear {n : Nat} (h : s.Canon) : (s.farClear n).Canon := .ite h.predictFrom.wr.memberLost h

theorem State.Canon.farSet {n far : Nat} {inPhase : Bool} (h : s.Canon) : (s.farSet n far inPhase).Canon :=
  have h₁ := Canon.ite h.wrs.wr h.wrs
  .wrs (.ite h₁.wr.raise h₁)

theorem State.Canon.huntFrom {n pos : Nat} {fresh : Bool} (h : s.Canon) : (s.huntFrom n pos fresh).Canon :=
  have h₁ := Canon.ite h.count h
  .ite h₁.wrs.wr h₁.wrs

theorem State.Canon.stageKeys {n target far : Nat} (h : s.Canon) : (s.stageKeys n target far).Canon :=
  .foldl (fun _ _ hu => .ite hu (.ite hu.wrs.raiseFns hu.wr.raiseFns)) h.wr

theorem State.Canon.dropKeys {n : Nat} (h : s.Canon) : (s.dropKeys n).Canon := .foldl (fun _ _ hu => hu.wrs) h.wr

theorem State.Canon.applyStaging {n : Nat} (h : s.Canon) : (s.applyStaging n).Canon :=
  .ite h (.foldl (fun _ _ hu => hu.wrOff) h)

theorem State.Canon.liftStaging {n : Nat} (h : s.Canon) : (s.liftStaging n).Canon :=
  .foldl (fun _ _ hu => hu.filterOffs) h

theorem State.Canon.dropRetune {n : Nat} (h : s.Canon) : (s.dropRetune n).Canon := .ite h h.liftStaging.wrs

theorem State.Canon.raiseFrame {reason n : Nat} {far : Option Nat} (h : s.Canon) : (s.raiseFrame reason n far).Canon :=
  h.raise

theorem State.Canon.stageRetune {n key far : Nat} (h : s.Canon) : (s.stageRetune n key far).Canon :=
  .ite h (.ite h.wrs.raiseFrame h.wrs.applyStaging.raiseFrame)

theorem State.Canon.sight {n : Nat} {oh : BitVec 256} {far : Nat} {follows : Bool} (h : s.Canon) :
    (s.sight n oh far follows).Canon :=
  have h₁ := Canon.ite h.wrs h.wrs.wrs
  have h₂ := Canon.ite h₁.frame h₁
  have h₃ := Canon.ite h₂.stageRetune h₂
  have h₄ := Canon.ite h₃.dropRetune.wr h₃
  have h₅ := Canon.ite h₄.stageKeys h₄
  .ite h₅.dropKeys h₅

theorem State.Canon.msgArrives {n : Nat} {b : Byte} (h : s.Canon) : (s.msgArrives n b).Canon :=
  .ite h.count.frame.msgShow h.count.wr

theorem State.Canon.mfasFrom {n mfas : Nat} (h : s.Canon) : (s.mfasFrom n mfas).Canon :=
  .ite h (.foldl (fun _ _ hu => hu.wr) h)

theorem State.Canon.goodOverhead {n : Nat} {oh : BitVec 256} (h : s.Canon) : (s.goodOverhead n oh).Canon :=
  have h₁ := Canon.mfasFrom (.ite h.wrs.jumpPast.farClear (.ite h.wrs.farSet h.wrs))
  have h₂ := Canon.ite h₁ h₁.wr.raiseFrame
  .sight (.ite h₂.msgArrives h₂)

theorem State.Canon.falseSync {n : Nat} (h : s.Canon) : (s.falseSync n).Canon := by
  unfold State.falseSync
  exact h.inc.count.wrs.huntFrom

theorem State.Canon.ptrOn {n : Nat} (h : s.Canon) : (s.ptrOn n).Canon := h.wrs

theorem execSfOverheadReceived_canon {n : Fin 4} {oh : BitVec 256} (h : s.Canon) :
    CanonNext (execSfOverheadReceived n oh s) :=
  .ite (.next h) <|
  .ite (have h₁ := h.ptrOn.inc.count; .next (.ite h₁.wrs.falseSync h₁.wrs)) <|
  .ite (.next h.falseSync) (.next h.wr.goodOverhead)

theorem State.Canon.retune {n key far : Nat} (h : s.Canon) : (s.retune n key far).Canon :=
  have h₁ := h.liftStaging.wrs.wrs
  .groupShow (.raiseFrame (.inc (.ite h₁ h₁.chainStart)))

theorem State.Canon.targetsReached {n far : Nat} (h : s.Canon) : (s.targetsReached n far).Canon :=
  have h₁ := Canon.foldl (fun _ _ hu => .ite hu.retune (.raiseFrame (.inc (.wr (.ite hu.dropRetune hu))))) h.frame
  .ite h₁ (.ite h₁.wr h₁.dropKeys)

theorem execFarSfArrival_canon {n : Fin 4} (h : s.Canon) : CanonNext (execFarSfArrival n s) :=
  .ite (.next h) <| by
    split
    · exact .next (by split <;> exact h.wrs)
    · exact .next <|
      .ite (.memberArrival (.targetsReached (by split <;> exact h.wrs))) <|
      .targetsReached (by split <;> exact h.wrs)

theorem execShapeSweepWindow_canon {n : Fin 4} (h : s.Canon) : CanonNext (execShapeSweepWindow n s) :=
  .ite (.next h) (.ite (.next h.wrs.huntFrom) (.next h.wrs))

theorem execFrameHunt_canon {n : Fin 4} {lf : Fin 64} {looks : List (List Bool)} (h : s.Canon) :
    CanonNext (execFrameHunt n lf looks s) :=
  .ite (.next h) (by split; exacts [.next h.wrs, .next h.wr])

theorem execMymosSync_canon {n : Fin 4} {finals : List (List Bool)} (h : s.Canon) :
    CanonNext (execMymosSync n finals s) :=
  .ite (.next h) (.ite (.next h.wrs.raiseFrame.groupShow) (.next h.huntFrom))

theorem execMymosLof_canon {n : Fin 4} {cause : LofCause} (h : s.Canon) : CanonNext (execMymosLof n cause s) :=
  .ite (.next h) (.next h.farClear.huntFrom.wrs.inc.count.raiseFrame.groupShow)

theorem execShapeUnlock_canon {n : Fin 4} (h : s.Canon) : CanonNext (execShapeUnlock n s) :=
  .ite (.next h.wrs.huntFrom) (.next h)

theorem execMsgTxWrite_canon {m c : Fin 2} {byte : Byte} (h : s.Canon) : CanonNext (execMsgTxWrite m c byte s) :=
  .next (h.writeReg fun _ hu => .ite hu.frame.msgShow hu.raiseField)

theorem execMsgRxRead_canon {m c : Fin 2} (h : s.Canon) : CanonNext (execMsgRxRead m c s) :=
  .next (h.readReg fun _ hu => hu.frame.msgShow)

theorem execFrmCntClr_canon {m c : Fin 2} (h : s.Canon) : CanonNext (execFrmCntClr m c s) :=
  .next (h.writeReg fun _ hu => hu.zeros)

/-! ### Domains lost and regained -/

theorem State.Canon.loseKeys {t : Die} (h : s.Canon) : (s.loseKeys t).Canon := by
  unfold State.loseKeys
  exact h.frame.loseWhere

theorem State.Canon.loseKek {t : Die} (h : s.Canon) : (s.loseKek t).Canon := h.frame.wr

theorem State.Canon.frameDown {n : Nat} (h : s.Canon) : (s.frameDown n).Canon := .ite h h.farClear.chainStop.wrs.groupShow

theorem State.Canon.gates {t : Die} (h : s.Canon) : (s.gates t).Canon :=
  have h₁ := Canon.ite h.wr.wrs h.wr
  .ite h₁.txdisUpdate.acqGate.nlcUpdate <|
  .ite
    (have h₂ := Canon.linkEval (.foldl (fun _ _ hu => .ite hu hu.wrs) h₁.portsShow.pmWatch.poolShow)
     .ite (.foldl (fun _ _ hu => hu.frameDown) h₂) h₂)
    h₁

theorem State.Canon.linksDown {t : Die} {plan : Bool} (h : s.Canon) : (s.linksDown t plan).Canon := by
  refine .foldl (fun _ _ hu => .dropFromCommit (.abortTo ?_)) h
  split
  · exact .ite hu.linkDrop hu.linkDrop.raiseField.raiseField
  · exact hu.linkDrop

theorem State.Canon.reloadKeys {d : Die} (h : s.Canon) : (s.reloadKeys d).Canon :=
  .foldl (fun _ _ hu => have h₁ := hu.copySlot; .ite h₁ h₁.copySlot) h

theorem State.Canon.reload {d : Die} (h : s.Canon) : (s.reload d).Canon :=
  have h₁ := h.filterOffs
  .wr (.applyHeld (.ite (.foldl (fun _ _ hu => hu.applyStaging) h₁.reloadKeys) h₁))

theorem State.Canon.markStale {d : Die} (h : s.Canon) : (s.markStale d).Canon :=
  have h₁ := h.reload.wrs
  .sliceShow (.gates (.ite h₁ h₁.raise))

theorem State.Canon.returnDies {ds : List Die} (h : s.Canon) : (s.returnDies ds).Canon :=
  .foldl (fun _ _ hu => .ite hu.markStale hu) h

theorem execLinkRetrainDone_canon {d : Die} {port : Fin 4} (h : s.Canon) : CanonNext (execLinkRetrainDone d port s) :=
  .ite (.next h.linkRaise.returnDies) (.next h)

theorem State.Canon.linksUp {t : Die} (h : s.Canon) : (s.linksUp t).Canon :=
  .foldl (fun _ _ hu => .ite hu.linkRaise.returnDies hu) h

theorem State.Canon.purge {t : Die} {dom : Nat → Bool} (h : s.Canon) : (s.purge t dom).Canon := h.frame

theorem State.Canon.returnPositions {t : Die} {k : Nat} (h : s.Canon) : (s.returnPositions t k).Canon := h.frame

theorem State.Canon.powerReset {hit : Die → Nat → Bool} (h : s.Canon) : (s.powerReset hit).Canon := by
  unfold State.powerReset
  split
  · exact h
  · split
    · exact h
    · exact h.abortedBy.endEntry

theorem State.Canon.domainLost {t : Die} {dom : Nat} (h : s.Canon) : (s.domainLost t dom).Canon :=
  have h₁ := Canon.purge (.loseWhere (.ite h.acqOff h))
  have h₂ := Canon.ite h₁.loseKeys h₁
  .ite h₂.returnPositions h₂

theorem State.Canon.dieLost {t : Die} (h : s.Canon) : (s.dieLost t).Canon :=
  .frame (.foldl (fun _ _ hu => hu.loseMem) h.loseWhere.purge.loseKeys.loseKek)

theorem State.Canon.dieDown {t : Die} (h : s.Canon) : (s.dieDown t).Canon :=
  .foldl (fun _ _ hu => hu.reincarnate) <|
  .reincarnate <|
  .dieLost (.foldl (fun _ _ hu => .ite hu.frameDown hu.acqOff) h.linksDown.abortTo.dropFromCommit.powerReset)

theorem State.Canon.clustersRun {t : Die} {doms : List Nat} (h : s.Canon) : (s.clustersRun t doms).Canon :=
  .foldl (fun _ _ hu => by split; exacts [hu.wr, hu]) h

theorem State.Canon.loadSections {t : Die} (h : s.Canon) : (s.loadSections t).Canon := by
  unfold State.loadSections
  dsimp only
  split
  · exact .ite (.wr (.foldl (fun _ _ hu => by split; exacts [hu.wrs, hu]) h)) <|
    .foldl (fun _ _ hu => by split; exacts [hu.wrs, hu]) h
  · exact .foldl (fun _ _ hu => by split; exacts [hu.wrs, hu]) h

theorem State.Canon.dieBack {t : Die} (h : s.Canon) : (s.dieBack t).Canon :=
  .markStale <|
  .linksUp (.foldl (fun _ _ hu => hu.wr) (.foldl (fun _ _ hu => hu.wr) h.loadSections.wr.clustersRun))

theorem State.Canon.enterDomain {t : Die} {dom st : Nat} (h : s.Canon) : (s.enterDomain t dom st).Canon := by
  unfold State.enterDomain
  extract_lets s₁ s₂ s₃ s₄ s₅ s₆ s₇
  have h₁ : s₁.Canon := h.wrs
  have h₂ : s₂.Canon := by
    dsimp only [s₂]
    split
    · exact .ite h₁.wr h₁
    · exact h₁
  have h₃ : s₃.Canon := .ite h₂.wr h₂
  have h₄ : s₄.Canon := .ite (.foldl (fun _ _ hu => hu.wrs) h₃) h₃
  have h₅ : s₅.Canon := .ite h₄.wr h₄
  have h₆ : s₆.Canon := .ite h₅.loseKeys.loseKek h₅
  have h₇ : s₇.Canon := .ite h₆.linksDown.wr h₆
  exact .ite h₃ (.ite h₇.domainLost h₇)

theorem State.Canon.wakeDomain {t : Die} {dom : Nat} (h : s.Canon) : (s.wakeDomain t dom).Canon :=
  .ite h.wrs <|
  have h₁ := h.wrs.clustersRun
  .ite h₁ <|
  have h₂ := Canon.foldl (fun _ _ hu => hu.loseMem) h₁
  have h₃ := Canon.ite h₂.fgEnd h₂
  have h₄ := Canon.ite h₃.abortTo.reincarnate h₃
  .ite h₄ <|
  .ite h₄.linksUp <|
  have h₅ := Canon.linksUp (.wrs (.ite h₄.dieLost.loadSections.reincarnate h₄))
  .ite h₅.markStale h₅

/-! ### The power handshake -/

theorem State.Canon.stopTally (h : s.Canon) : s.stopTally.Canon := .ite h h.frame.wrs
theorem State.Canon.resumeTally (h : s.Canon) : s.resumeTally.Canon := .ite h h.wr48.wrs.frame

theorem execPwrReq_canon {d : Desc} (h : s.Canon) : CanonNext (execPwrReq d s) :=
  .next (h.take fun _ hu => .ite hu.finish (.ite hu.raise.finish hu.askPower))

theorem execPwrRequest_canon {t : Die} {dom : Fin 16} (h : s.Canon) : CanonNext (execPwrRequest t dom s) := by
  unfold execPwrRequest
  split
  · exact .next h
  · refine .ite (.next h) ?_
    split
    · exact .next h.frame
    · exact .next (.ite h.frame.wr.poolShow h.frame)

theorem execPwrAnswer_canon {t : Die} {dom : Fin 16} (h : s.Canon) : CanonNext (execPwrAnswer t dom s) := by
  unfold execPwrAnswer
  split
  · exact .next h
  · split
    · exact .next h
    · refine .ite (.next h) (.ite (.next h.endEntry) ?_)
      split
      · exact .next h.refusedBy.endEntry
      all_goals exact .next h.frame

theorem execDomainGrant_canon {t : Die} {dom : Fin 16} (h : s.Canon) : CanonNext (execDomainGrant t dom s) := by
  unfold execDomainGrant
  split
  · exact .next h
  · exact .ite (.next h.frame) (.next h)

theorem execPwrTimeout_canon {t : Die} {dom : Fin 16} (h : s.Canon) : CanonNext (execPwrTimeout t dom s) := by
  unfold execPwrTimeout
  split
  · exact .next h
  · exact .ite (.next h.abortedBy.endEntry) (.next h)

theorem execPwrDeadline_canon (h : s.Canon) : CanonNext (execPwrDeadline s) := by
  unfold execPwrDeadline
  split
  · exact .next h
  · split
    · exact .next h
    · exact .ite (.next h) (.ite (.next h.frame) (.next h.endEntry))

theorem State.Canon.allGates (h : s.Canon) : s.allGates.Canon := .foldl (fun _ _ hu => hu.gates) h

theorem State.Canon.setParked {t : Die} {l : List Nat} (h : s.Canon) : (s.setParked t l).Canon := .ite h h.wr.raise

theorem State.Canon.parkMarks {r : PwrReq} (h : s.Canon) : (s.parkMarks r).Canon :=
  .foldl (fun _ _ hu => .ite hu (.ite hu.setParked hu.setParked)) h

theorem execPwrEnter_canon (h : s.Canon) : CanonNext (execPwrEnter s) := by
  unfold execPwrEnter
  split
  · exact .next h
  · exact .ite (.next h) <|
    have h₁ := Canon.parkMarks (.wrP (.allGates (.foldl (fun _ _ hu => hu.enterDomain) h.frame)))
    have h₂ := Canon.ite h₁.stopTally h₁
    .next (.nextRequests (.endRequest (.hostMarks (.ite h₂.wrP h₂))))

theorem execPwrRelease_canon {t : Die} {dom : Fin 16} (h : s.Canon) : CanonNext (execPwrRelease t dom s) :=
  .ite (.next h) <|
  have h₁ := h.frame.wr
  .next (.ite h₁.wr.poolShow h₁)

theorem execWakeSource_canon {t : Die} {dom : Fin 16} (h : s.Canon) : CanonNext (execWakeSource t dom s) :=
  .ite (.next h) (.next (.ite h.wakeBy.gates h.wakeBy))

theorem execLampClear_canon (h : s.Canon) : CanonNext (execLampClear s) := .next h.loseWhere.wrs

/-! ### Budget grants and heat -/

theorem State.Canon.issueGrants {other : Int} (h : s.Canon) : (s.issueGrants other).Canon :=
  .ite (.frame (.wrP (.wrP (.ite h h.wrP.raise)))) h.wrP.wrP.wrP.frame

theorem State.Canon.supplyClear {t : Die} (h : s.Canon) : (s.supplyClear t).Canon := .foldl (fun _ _ hu => hu.zeros) h.wr

theorem State.Canon.supply {t : Die} {v : Option Nat} (h : s.Canon) : (s.supply t v).Canon := by
  unfold State.supply
  split
  · exact h.wrs.wrs
  · exact .ite h.wr.wr.wrP.wr.raise h.wr.wr

theorem State.Canon.thermJudge {t : Die} {temp : Int} (h : s.Canon) : (s.thermJudge t temp).Canon :=
  .ite h <|
  have h₁ := h.wr.raise
  have h₂ := Canon.ite h₁.wrs h₁
  .ite h₂.wr (.ite h₂.wr h₂)

theorem State.Canon.limitCheck {t : Die} (h : s.Canon) : (s.limitCheck t).Canon := .ite (.ite h h.wr.raise) h.wr

theorem State.Canon.binInterval {t : Die} (h : s.Canon) : (s.binInterval t).Canon :=
  .ite h.wrs (.ite h.wr (.thermJudge (.ite h.wr.wrP.raise h.wr)))

theorem State.Canon.nlc1Interval {g : Grants} {n : Nat} (h : s.Canon) : (s.nlc1Interval g n).Canon :=
  .ite h.wr.wr.wakeBy.bossAsk (.ite h.wr.bossAsk h.wr)

theorem State.Canon.decInterval {t : Die} {load : List Nat} (h : s.Canon) : (s.decInterval t load).Canon :=
  .ite h.bossAsk (.ite h (by split; exacts [h, .ite h h.bossAsk]))

theorem State.Canon.latchPower (h : s.Canon) : s.latchPower.Canon := h.wrs

theorem execBudgetInterval_canon {pool : List (List Nat)} (h : s.Canon) : CanonNext (execBudgetInterval pool s) :=
  .ite (.next h) <|
  .next <|
  .foldl (fun _ _ hu => hu.decInterval) <|
  .foldl (fun _ _ hu => hu.nlc1Interval) <|
  .issueGrants <|
  .foldl (fun _ _ hu => hu.xiStep) <|
  .wrs <|
  .foldl (fun _ _ hu => hu.binInterval) <|
  .foldl (fun _ _ hu => hu.supplyClear) (.foldl (fun _ _ hu => hu.supply) h.latchPower)

theorem State.Canon.applyCarrier {n steps cap survey : Nat} (h : s.Canon) : (s.applyCarrier n steps cap survey).Canon :=
  h.wrs.wr.wr.nlcUpdate.shedJudge

theorem State.Canon.applyMill {m ot k : Nat} (h : s.Canon) : (s.applyMill m ot k).Canon := h.wrs.wrs

theorem State.Canon.raiseFloors (h : s.Canon) : s.raiseFloors.Canon := .foldl (fun _ _ hu => hu.applyCarrier) h

theorem State.Canon.throttleNow {t : Die} (h : s.Canon) : (s.throttleNow t).Canon :=
  .ite h <|
  .ite h.wr (.ite h.wr.applyCarrier (.ite (.foldl (fun _ _ hu => hu.applyCarrier) h.wr.applyMill) h.wr))

theorem execGrantApply_canon (h : s.Canon) : CanonNext (execGrantApply s) := by
  refine .next (.foldl (fun _ _ hv => hv.limitCheck) (.foldl (fun _ _ hv => hv.throttleNow) ?_))
  split
  · exact h
  · exact .ite h (.foldl (fun _ _ hv => hv.applyMill) (.foldl (fun _ _ hv => hv.applyCarrier) h.frame))

theorem State.Canon.setTemp {t : Die} {temp : BitVec 12} (h : s.Canon) : (s.setTemp t temp).Canon := h.wrs

theorem execThermalCheck_canon {t : Die} (h : s.Canon) : CanonNext (execThermalCheck t s) :=
  .ite (.next h) <|
  have h₁ := Canon.ite h h.setTemp
  .next (.limitCheck (.ite h₁ h₁.thermJudge))

theorem execBinTempReport_canon {b : Fin 2} {base top : BitVec 12} (h : s.Canon) :
    CanonNext (execBinTempReport b base top s) :=
  .ite (.next h) (.next (.ite h.wr.setTemp.wr h.wr))

theorem execDomainWakeDone_canon (h : s.Canon) : CanonNext (execDomainWakeDone s) := by
  unfold execDomainWakeDone
  split
  · exact .next h
  · exact .ite (.next h) <|
    have h₁ := Canon.parkMarks (.wrP (.allGates (.domBusy (.foldl (fun _ _ hu => hu.wakeDomain) h.frame))))
    have h₂ := Canon.foldl (fun _ _ hu => hu.wr) (.ite h₁.resumeTally h₁)
    .next (.nextRequests (.endRequest (.hostMarks (.ite h₂ h₂.issueGrants))))

/-! ### On-chip memories -/

theorem State.Canon.takeSpare {x bank k : Nat} (h : s.Canon) : (s.takeSpare x bank k).Canon := h.frame

theorem State.Canon.mapRow {x bank row : Nat} (h : s.Canon) (e : s.mapRow x bank row = some t) : t.Canon := by
  obtain ⟨k, -, rfl⟩ := Option.map_eq_some_iff.mp e
  exact h.takeSpare.frame

theorem State.Canon.repRecord {t : Die} {mem bank row : Nat} {canary applied : Bool} (h : s.Canon) :
    (s.repRecord t mem bank row canary applied).Canon := by
  unfold State.repRecord
  dsimp only
  split
  · exact h.wrs
  · split
    · exact h.wrs
    · exact h.wr.raise

theorem State.Canon.repairRow {t : Die} {f : MarchFail} (h : s.Canon) : (s.repairRow t f).1.Canon := by
  unfold State.repairRow
  split
  next e => exact (h.mapRow e).repRecord
  · exact h.wr.raise

theorem State.Canon.marchRows {t : Die} {repair : Bool} {l : List MarchFail} (h : s.Canon) :
    (s.marchRows t repair l).1.Canon := by
  induction l generalizing s with
  | nil => exact h
  | cons f l ih => exact .fst_ite (ih h.raise.repairRow) (ih h.raise)

theorem State.Canon.badSpares {t : Die} {l : List MarchFail} (h : s.Canon) : (s.badSpares t l).Canon :=
  .foldl (fun _ _ hu => by split; exacts [.ite hu.takeSpare hu, hu]) h

theorem State.Canon.marchLeaves {t : Die} {repair : Bool} {l : List MarchFail} (h : s.Canon) :
    (s.marchLeaves t repair l).1.Canon :=
  .marchRows (.ite h.badSpares h)

theorem State.Canon.wordTestShow {t : Die} (h : s.Canon) : (s.wordTestShow t).Canon := h.wrs

theorem State.Canon.ceState {t : Die} {mem addr v : Nat} (h : s.Canon) : (s.ceState t mem addr v).Canon := by
  unfold State.ceState
  split
  · exact h.wr
  · exact h

theorem State.Canon.testWord {t : Die} {mem addr : Nat} (h : s.Canon) : (s.testWord t mem addr).Canon :=
  .ite h (.ite h.inc.ceState h.frame.ceState.wordTestShow)

theorem State.Canon.ceJudge {t : Die} {e mem addr : Nat} (h : s.Canon) : (s.ceJudge t e mem addr).Canon :=
  .ite h h.raise.testWord

theorem State.Canon.ceShow {t : Die} (h : s.Canon) : (s.ceShow t).Canon := h.wr

theorem State.Canon.logCe {t : Die} {mem addr syn : Nat} (h : s.Canon) : (s.logCe t mem addr syn).Canon := by
  unfold State.logCe
  dsimp only
  split
  · exact
      have h₁ := Canon.wr (.inc (.ite h.inc.count h.inc))
      .ceJudge (.ite h₁ h₁.wrs)
  · split
    · exact .ceJudge (.ceShow (.wr (.wrs (.ite h.inc.count h.inc))))
    · exact
        have h₁ := Canon.inc (.ite h.inc.count h.inc)
        .ite h₁ h₁.wr.raise

theorem execCeDetected_canon {t : Die} {mem : Byte} {addr : BitVec 32} {syn : BitVec 22} (h : s.Canon) :
    CanonNext (execCeDetected t mem addr syn s) :=
  .ite (.next h) (.next h.logCe)

theorem State.Canon.ueWord {t : Die} {mem addr : Nat} (h : s.Canon) : (s.ueWord t mem addr).Canon :=
  h.inc.raise.frame.testWord

theorem execUeDetected_canon {t : Die} {mem : Byte} {addr : BitVec 32} (h : s.Canon) :
    CanonNext (execUeDetected t mem addr s) :=
  .ite (.next h) (.next h.ueWord)

theorem execPartialMemoryWrite_canon {t : Die} {mem : Byte} {addr : BitVec 32} {off : Nat} {bytes : List Byte}
    {fault : Option (BitVec 22)} (h : s.Canon) : CanonNext (execPartialMemoryWrite t mem addr off bytes fault s) := by
  unfold execPartialMemoryWrite
  dsimp only
  split
  · exact .next h
  · exact .ite (.next h) (.ite (.next h.inc) (.next (.writeWord (by split; exacts [.ite h.logCe h, h]))))

theorem execCanaryStart_canon {t : Die} (h : s.Canon) : CanonNext (execCanaryStart t s) :=
  .ite (.next h) <| by
    split
    · exact .next h
    · exact .next h.frame.wordTestShow

theorem State.Canon.wordResult {t : Die} {mem addr : Nat} {stuck : Bool} (h : s.Canon) :
    (s.wordResult t mem addr stuck).Canon := by
  unfold State.wordResult
  split
  · exact h
  · refine .ite ?_ ?_
    · split
      · exact h.wrs
      · exact h
    · dsimp only
      split
      next e => exact (h.ceState.mapRow e).repRecord
      · exact h.ceState.raise.repRecord

theorem State.Canon.unitResult {t : Die} {c : Canary} {stuck : Bool} (h : s.Canon) : (s.unitResult t c stuck).Canon := by
  unfold State.unitResult
  dsimp only
  split
  · exact .ite h (.ite h.wr.poolShow h.wrs.poolShow)
  · exact .ite h (.ite h.wr h.wrs)
  · exact .ite h.raise h
  · exact .ite h.wrs (.ite h.wrs.wr h.wrs.wrs.raiseField)
  · exact .ite h h.wr.wr
  · exact .ite h (.ite h.wr h.wr.wr)
  · exact h

theorem execCanaryDone_canon {t : Die} {kind : Fin 7} {idx : Nat} {word : FaultyWord} {fails1 fails2 : Bool}
    (h : s.Canon) : CanonNext (execCanaryDone t kind idx word fails1 fails2 s) := by
  unfold execCanaryDone
  split
  · exact .next h
  · exact .next (.raise (.ite h.frame.wordResult.wordTestShow h.frame.unitResult))

theorem execCeFree_canon {t : Die} {mask : BitVec 16} (h : s.Canon) : CanonNext (execCeFree t mask s) :=
  .next <|
  h.writeReg fun _ hu =>
    have h₁ := Canon.foldl (fun _ _ hv => hv.zeros) hu
    .ceShow (.ite h₁ h₁.wr)

theorem execMemCntClear_canon {t : Die} (h : s.Canon) : CanonNext (execMemCntClear t s) :=
  .next (h.writeReg fun _ hu => .foldl (fun _ _ hv => hv.wr) hu.zeros)

theorem execLeLockstep_canon {t : Die} {cluster : Fin 6} {engine : Fin 65} (h : s.Canon) :
    CanonNext (execLeLockstep t cluster engine s) :=
  .ite (.next h) <|
  have h₁ := h.inc.raise
  have h₂ := Canon.ite h₁.count h₁
  .next (.ite h₂ (.ite h₂.wr.raise.canaryStart h₂.wr.wr.canaryStart))

theorem State.Canon.stall {t : Die} {masters : List (BitVec 5)} (h : s.Canon) : (s.stall t masters).Canon := by
  unfold State.stall
  dsimp only
  split
  · exact h
  · exact .ite h (.foldl (fun _ _ hu => hu.inc) h)

theorem State.Canon.memAccess {op : Nat} {d : Desc} {warned : Bool} {rivals : List (List (BitVec 5))} {act : State → State}
    (h : s.Canon) (ha : ∀ u : State, u.Canon → (act u).Canon) : (s.memAccess op d warned rivals act).Canon := by
  unfold State.memAccess
  refine h.onTarget fun u hu => .ite hu.finish (.ite hu.finish ?_)
  have hv : (rivals.foldl (fun u l => u.stall d.mill l) u).Canon := .foldl (fun _ _ hw => hw.stall) hu
  exact .ite hv.inc.finish (ha _ hv)

theorem execMemRead_canon {d : Desc} {warned : Bool} {rivals : List (List (BitVec 5))} (h : s.Canon) :
    CanonNext (execMemRead d warned rivals s) :=
  .next (h.take fun _ hu => hu.memAccess fun _ hv => hv.toHost.finish)

theorem State.Canon.writeWords {t : Die} {m f a n : Nat} {g : MemShape} {lost : List (Nat × BitVec 64)} {data : List Byte} {l : Bool}
    (h : s.Canon) : (s.writeWords t m g lost f a data n l).1.Canon := by
  induction f generalizing s a data n l with
  | zero => exact h
  | succ f ih =>
    unfold State.writeWords
    split
    · exact h
    · dsimp only
      split
      · exact ih h.writeWord.inc
      · exact .fst_ite h.inc (ih h.writeWord)

theorem execMemWrite_canon {d : Desc} {data : List Byte} {lost : List (Nat × BitVec 64)} {warned : Bool}
    {rivals : List (List (BitVec 5))} (h : s.Canon) : CanonNext (execMemWrite d data lost warned rivals s) :=
  .next (h.take fun _ hu => hu.memAccess fun _ hv => by split; exacts [hv.finish, hv.writeWords.finish])

theorem execMarchRun_canon {d : Desc} (h : s.Canon) : CanonNext (execMarchRun d s) :=
  .next (h.take fun _ hu => hu.onTarget fun _ hv => .ite hv.finish (.ite hv.finish hv.frame.wr))

theorem execMarchDone_canon {t : Die} {faulty : List FaultyWord} (h : s.Canon) :
    CanonNext (execMarchDone t faulty s) := by
  unfold execMarchDone
  split
  · exact .next h
  · exact
      have h₁ := h.frame.wr
      .next (.finishOp (.marchLeaves (.ite h₁ h₁.loseMem)))

/-! ### Start-up, reset and firmware -/

theorem State.Canon.packageLost (h : s.Canon) : s.packageLost.Canon := h.keepRegs rfl rfl rfl rfl rfl

theorem State.Canon.repairMap {t : Die} (h : s.Canon) : (s.repairMap t).Canon := by
  refine .foldl (fun u e hu => .ite hu ?_) (.foldl (fun u r hu => .ite hu ?_) h.frame)
  · refine .ite hu.wr ?_
    split
    next e => exact (hu.mapRow e).wr
    · exact hu.wr
  · cases e : u.mapRow (memIx t r.1) r.2.1 r.2.2 with
    | none => exact hu
    | some v => exact hu.mapRow e

theorem State.Canon.bootWith {i : BootImage} (h : s.Canon) : (s.bootWith i).Canon :=
  .foldl (fun _ _ hu => hu.linksUp) <|
  .foldl (fun _ _ hu => hu.wr.loadSections.repairMap.fgBegin) <| by
    split
    · exact h.frame.wrs.wrP
    · exact h.frame.wrs

theorem State.Canon.bootFails (h : s.Canon) : s.bootFails.Canon := h.wrP

theorem State.Canon.bootFlash {fallback : Bool} {primary secondary : BootImage} (h : s.Canon) :
    (s.bootFlash fallback primary secondary).Canon :=
  .ite h.bootWith (.ite h.wrP.bootFails (.ite h.wrP.wrP.bootWith h.wrP.wrP.bootFails))

theorem execPorstRise_canon {straps : Straps} {primary secondary : BootImage} (h : s.Canon) :
    CanonNext (execPorstRise straps primary secondary s) :=
  .ite (.next h) <|
  .next <| by
    split
    · exact .frame (.ite h.wrs h.wrs.wrP)
    · exact .bootFlash (.frame (.ite h.wrs h.wrs.wrP))

theorem execI2cRecoveryLoad_canon {img : BootImage} (h : s.Canon) : CanonNext (execI2cRecoveryLoad img s) :=
  .ite (.next h) (.next (.ite h.frame.wrP.bootWith (.ite h.frame.wrP.bootFails h.frame.bootFails)))

theorem State.Canon.startTally (h : s.Canon) : s.startTally.Canon := .ite h.resumeTally h.frame.wrs

theorem State.Canon.dieReady {t : Die} (h : s.Canon) : (s.dieReady t).Canon :=
  .ite h <|
  have h₁ := h.clustersRun
  have h₂ := Canon.ite h₁.fgEnd h₁
  have h₃ := Canon.ite h₂ h₂.wrs
  .gates (.ite h₃.wrs.wrs h₃)

theorem execFwReady_canon {faulty : List (Die × FaultyWord)} (h : s.Canon) : CanonNext (execFwReady faulty s) :=
  .ite (.next h) <|
  have h₁ := Canon.foldl (fun _ _ hu => hu.dieReady) (.wrs (.startTally (.foldl (fun _ _ hu => hu.marchLeaves) h)))
  have h₂ := Canon.ite h₁.raise h₁
  .next (.ite h₂.wrP.raise h₂)

theorem execPorstFall_canon (h : s.Canon) : CanonNext (execPorstFall s) :=
  .ite (.next h.wrP) (.next h.stopTally.packageLost.wrs)

theorem execSurfacePowerLoss_canon (h : s.Canon) : CanonNext (execSurfacePowerLoss s) :=
  .next (h.keepRegs rfl rfl rfl rfl rfl)

theorem execSvnCommit_canon (h : s.Canon) : CanonNext (execSvnCommit s) := .ite (.next h) (.next h.wrP)

theorem execRailFault_canon {t : Die} (h : s.Canon) : CanonNext (execRailFault t s) :=
  .ite (.next h) (.ite (.next h.wr.stopTally.packageLost.wrs) (.next h.wr.dieDown.wrs.wrP.gates))

theorem execRailRestored_canon {t : Die} (h : s.Canon) : CanonNext (execRailRestored t s) :=
  .ite (.next h) (.ite (.next h.wr) (.ite (.next h.wr.repairMap.dieBack.dieReady) (.next h.wr.wr.linksUp)))

theorem execWake_canon (h : s.Canon) : CanonNext (execWake s) := by
  unfold execWake
  split
  · exact .next h
  · exact .next h.wrP
  · exact .next h.wrP

theorem execRailDischarged_canon (h : s.Canon) : CanonNext (execRailDischarged s) := .ite (.next h.wrs) (.next h)

theorem execRailTimeout_canon (h : s.Canon) : CanonNext (execRailTimeout s) := .ite (.next h.wrs) (.next h)

theorem execWakeRailsGood_canon (h : s.Canon) : CanonNext (execWakeRailsGood s) :=
  .ite (.next (.foldl (fun _ _ hu => hu.wr) h.wrs)) (.next h)

theorem State.Canon.powerOff (h : s.Canon) : s.powerOff.Canon := h.stopTally.packageLost.wrs

theorem execPackagePowerOff_canon (h : s.Canon) : CanonNext (execPackagePowerOff s) := .next (.ite h.powerOff h)

theorem execThermalTrip_canon {t : Die} (h : s.Canon) : CanonNext (execThermalTrip t s) :=
  .ite (.next h) <|
  .ite (.next h.wrs.powerOff) <|
  .next <|
  .gates (.wr (.foldl (fun _ _ hu => hu.wrs) (.wrs (.foldl (fun _ _ hu => hu.finishOp) h.wrs.dieDown.frame))))

theorem State.Canon.resetDomain {t : Die} {k : Nat} (h : s.Canon) : (s.resetDomain t k).Canon := by
  unfold State.resetDomain
  cases clusterOf t k with
  | none =>
    exact
      have h₁ := h.wr.reincarnate.abortTo.powerReset.domainLost
      .gates (.ite h₁.fgBegin h₁)
  | some c =>
    exact
      have h₁ := h.wr.reincarnate.abortTo.powerReset.domainLost.wrs
      .gates (.ite h₁.fgBegin h₁)

theorem State.Canon.wakeTarget {t : Die} {k : Nat} (h : s.Canon) : (s.wakeTarget t k).Canon :=
  .foldl (fun _ _ hu => .ite hu.wakeDomain hu) h

theorem State.Canon.startReset {o : Op} (h : s.Canon) : (s.startReset o).Canon :=
  have h₁ := h.wakeTarget.frame
  .ite h₁.dieDown.wrs.fgBegin.gates h₁.resetDomain

theorem execReset_canon {d : Desc} (h : s.Canon) : CanonNext (execReset d s) := by
  refine .next (h.take fun u hu => .ite ?_ (.ite hu.finish (.ite hu.raise.finish (.ite hu.frame hu.startReset))))
  have hv := hu.stopTally.packageLost.wrs (d := .m0) (i := 0) (l := [(.bootStarted, 1), (.chipPkgReset, 1)])
  dsimp only
  split
  · exact hv.bootWith
  · exact hv.bootFails

theorem execResetHoldEnd_canon (h : s.Canon) : CanonNext (execResetHoldEnd s) := by
  unfold execResetHoldEnd
  dsimp only
  split
  · exact .next h
  · exact .next h.frame.startReset

theorem execDomainResetDone_canon {t : Die} {dom : Fin 16} (h : s.Canon) : CanonNext (execDomainResetDone t dom s) := by
  unfold execDomainResetDone
  split
  · exact .next h
  · exact
      have h₁ := h.frame.wrs.clustersRun
      .next (.finishOp (.raise (.gates (.ite h₁.fgEnd h₁))))

theorem execResetDone_canon {t : Die} {faulty : List FaultyWord} (h : s.Canon) :
    CanonNext (execResetDone t faulty s) := by
  unfold execResetDone
  split
  · exact .next h
  · exact .ite (.next h) (.next h.frame.repairMap.marchLeaves.dieBack.dieReady.raise.finishOp)

theorem execFwUpdate_canon {d : Desc} (h : s.Canon) : CanonNext (execFwUpdate d s) :=
  .next (h.take fun _ hu => hu.onTarget fun _ hv => hv.frame)

theorem execFwStaged_canon {t : Die} {cluster : Fin 6} {keyHash : BitVec 384} {sigOk : Bool} (h : s.Canon) :
    CanonNext (execFwStaged t cluster keyHash sigOk s) := by
  unfold execFwStaged
  split
  · exact .next h
  · exact .ite (.next h.frame.raise.finishOp) (.ite (.next h.frame.finishOp) (.next h.frame.wrs.raise.finishOp))

theorem execFwSwapped_canon {t : Die} {cluster : Fin 6} (h : s.Canon) : CanonNext (execFwSwapped t cluster s) :=
  .ite (.next h) (.next h.wrs.raise)

theorem execMailbox_canon {d : Desc} (h : s.Canon) : CanonNext (execMailbox d s) :=
  .next (h.take fun _ hu => hu.onTarget fun _ hv => .frame (.ite hv.count hv))

theorem execMailboxAnswer_canon {t : Die} {cluster : Fin 6} {answer : BitVec 64} (h : s.Canon) :
    CanonNext (execMailboxAnswer t cluster answer s) := by
  unfold execMailboxAnswer
  split
  · exact .next h
  · exact .ite (.next h) (.next h.frame.finishOp)

theorem execMailboxTimeout_canon {t : Die} {cluster : Fin 6} (h : s.Canon) :
    CanonNext (execMailboxTimeout t cluster s) := by
  unfold execMailboxTimeout
  split
  · exact .next h
  · exact .next h.frame.finishOp

/-! ### The auxiliary ADCs -/

theorem State.Canon.auxShow {t : Die} (h : s.Canon) : (s.auxShow t).Canon := h.wr

theorem State.Canon.auxPush {e : AuxEntry} (h : s.Canon) : (s.auxPush e).Canon :=
  .ite h.frame.auxShow (.ite h.inc h.inc.frame.raise)

theorem State.Canon.auxTags {t : Die} {ch : Nat} {overrange unsettled : Bool} (h : s.Canon) :
    (s.auxTags t ch overrange unsettled).Canon :=
  have h₁ := Canon.ite h.raise h
  .ite h₁.raise h₁

theorem State.Canon.bossTake {t : Die} {ch code : Nat} {bad : Bool} (h : s.Canon) : (s.bossTake t ch code bad).Canon :=
  .ite (.ite h h.wrs) (.ite (.ite h.wr h.wrs) h)

theorem State.Canon.auxDeny {t : Die} {who ch : Nat} (h : s.Canon) : (s.auxDeny t who ch).Canon := by
  unfold State.auxDeny
  exact .auxTags (.ite h.bossTake h)

theorem State.Canon.auxSpend {t : Die} (h : s.Canon) : (s.auxSpend t).Canon := h.wr

theorem State.Canon.auxCalBegin {t : Die} (h : s.Canon) : (s.auxCalBegin t).Canon :=
  .foldl (fun _ _ hu => hu.auxDeny) h.frame.wr

theorem State.Canon.auxStart {t : Die} (h : s.Canon) : (s.auxStart t).Canon :=
  .ite h (by split; exacts [h, .ite h.auxCalBegin h.frame.auxSpend])

theorem State.Canon.trimTake {e : AuxEntry} (h : s.Canon) : (s.trimTake e).Canon := .ite h.wrs h

theorem State.Canon.loopTake {e : AuxEntry} {p : Nat} (h : s.Canon) : (s.loopTake e p).Canon := .ite h h.wrs

theorem State.Canon.auxDeliver {e : AuxEntry} {queue : Bool} (h : s.Canon) : (s.auxDeliver e queue).Canon :=
  have h₁ := Canon.auxTags (.trimTake (.ite h.wr h))
  .ite h₁.auxPush h₁

theorem execAuxConversionEnd_canon {t : Die} {code : BitVec 12} {overrange : Bool} (h : s.Canon) :
    CanonNext (execAuxConversionEnd t code overrange s) := by
  unfold execAuxConversionEnd
  split
  · exact .next h
  · exact .next <|
    .auxStart (.auxDeliver (by split; exacts [h.frame.bossTake, h.frame.loopTake, h.frame.loopTake, h.frame]))

theorem execAuxInjectRequest_canon {t : Die} {who : Fin 3} {chan : BitVec 5} (h : s.Canon) :
    CanonNext (execAuxInjectRequest t who chan s) :=
  .ite (.next h) <|
  have h₁ := Canon.ite h h.wr
  .ite (.next h₁.auxDeny) (.ite (.next h₁.inc.auxDeny) (.next h₁.frame.auxStart))

theorem State.Canon.auxRegular {t : Die} (h : s.Canon) : (s.auxRegular t).Canon := .ite h h.frame.auxStart

theorem execRegStart_canon {t : Die} (h : s.Canon) : CanonNext (execRegStart t s) :=
  .next (h.writeReg fun _ hu => .ite hu.auxRegular hu)

theorem execAuxRegPeriod_canon {t : Die} (h : s.Canon) : CanonNext (execAuxRegPeriod t s) := .next (.ite h.auxRegular h)

theorem execRefSettled_canon {t : Die} (h : s.Canon) : CanonNext (execRefSettled t s) := .next (.ite h.wr.auxStart h)

theorem State.Canon.refWritten {t : Die} (h : s.Canon) : (s.refWritten t).Canon := .ite h h.wr

theorem State.Canon.auxCal {t : Die} (h : s.Canon) : (s.auxCal t).Canon := .ite h h.frame.auxStart

theorem execAuxCal_canon {t : Die} (h : s.Canon) : CanonNext (execAuxCal t s) :=
  .next (h.writeReg fun _ hu => hu.auxCal)

theorem execAuxCalDone_canon {t : Die} (h : s.Canon) : CanonNext (execAuxCalDone t s) := .next (.ite h.wr.auxStart h)

theorem execAuxQPop_canon {t : Die} (h : s.Canon) : CanonNext (execAuxQPop t s) := by
  refine .next (h.readReg fun u hu => ?_)
  dsimp only
  generalize (if (u.zeros t 0 auxQFields).auxBound t then none else _ : Option AuxEntry) = head
  cases head with
  | none => exact hu.zeros
  | some e => exact hu.zeros.frame.wrs.auxShow

theorem execAuxSample_canon {d : Desc} (h : s.Canon) : CanonNext (execAuxSample d s) :=
  .next (h.take fun _ hu => .ite hu.finish (.ite hu.finish hu.frame))

theorem execAuxSimulSample_canon {codes : List (BitVec 12 × Bool)} (h : s.Canon) :
    CanonNext (execAuxSimulSample codes s) := by
  unfold execAuxSimulSample
  split
  · exact .next h
  · extract_lets u l r
    have hr : r.1.Canon := .fst_foldl (fun _ _ hx => hx.auxSpend.auxDeliver.auxStart) h.frame
    exact .ite (.next h) (.next (.ite hr.finishOp hr.finishOp))

/-! ### Records, monitors, surveys and captures -/

theorem State.Canon.nextRecord {source die : Nat} {r : Telem × State} (h : s.Canon) (e : s.nextRecord source die = some r) :
    r.2.Canon := by
  unfold State.nextRecord at e
  split at e
  · cases e
    exact h.frame
  · split at e
    · cases e
    · split at e
      · cases e
        exact h.frame.auxShow
      · cases e

theorem State.Canon.snapEnd (h : s.Canon) : s.snapEnd.Canon := by
  unfold State.snapEnd
  split
  · exact h
  · exact .ite h h.wrP.frame.finishOp

theorem State.Canon.telemPush {source die : Nat} (h : s.Canon) : (s.telemPush source die).Canon := by
  unfold State.telemPush
  split
  · exact h.frame
  · refine .ite h ?_
    split
    · exact h
    next e => exact (h.nextRecord e).count.writeEntry

theorem execTelemetryWrite_canon {source : BitVec 10} {m : Fin 2} (h : s.Canon) :
    CanonNext (execTelemetryWrite source m s) :=
  .next h.telemPush.snapEnd

theorem State.Canon.emitNow {source die recType stamp : Nat} {payload : List Byte} (h : s.Canon) :
    (s.emitNow source die recType stamp payload).Canon :=
  h.emit.telemPush

theorem State.Canon.intervalBer {n : Nat} (h : s.Canon) : (s.intervalBer n).2.Canon := .snd_ite h.fresh h

theorem State.Canon.qOf {ber : Nat} (h : s.Canon) : (s.qOf ber).2.Canon := .snd_ite h.fresh h

theorem execLineMonitorUpdate_canon {n : Fin 4} {dgd : BitVec 16} {pdl : BitVec 10} (h : s.Canon) :
    CanonNext (execLineMonitorUpdate n dgd pdl s) :=
  .ite (.next h) (.ite (.next h.wrs) (.next h.intervalBer.qOf.wrs.wrs.emit))

theorem execSopSample_canon {n : Fin 4} {s1 s2 s3 : BitVec 16} (h : s.Canon) : CanonNext (execSopSample n s1 s2 s3 s) :=
  .ite (.next h.frame) (.ite (.next h) (.ite (.next h.wr.frame) (.next h.wr.frame.emit)))

theorem execSopRateMeasure_canon {n : Fin 4} {rot : BitVec 17} (h : s.Canon) : CanonNext (execSopRateMeasure n rot s) :=
  .ite (.next h) (.next (.ite h.wr.raise h.wr))

theorem execSopRatePeakRead_canon {n : Fin 4} (h : s.Canon) : CanonNext (execSopRatePeakRead n s) :=
  .ite (.next h.deadRead) (.next h.wr.frame)

theorem State.Canon.pmEnd {source m layer : Nat} {far : Bool} (h : s.Canon) : (s.pmEnd source m layer far).Canon := by
  unfold State.pmEnd
  dsimp only
  split
  · exact h
  · exact h.frame.raise

theorem State.Canon.pmJudge {source m layer : Nat} (h : s.Canon) : (s.pmJudge source m layer).Canon := by
  unfold State.pmJudge
  dsimp only
  split
  · exact h
  · exact
      have h₁ := h.frame.pmEnd
      .ite h₁.pmEnd h₁

theorem execPmSecond_canon {source : BitVec 10} {m : Fin 2} {layer : Fin 10} {c : PortCounts} (h : s.Canon) :
    CanonNext (execPmSecond source m layer c s) :=
  .ite (.next h) (.next (.pmWatch (.frame (.pmJudge (.ite h.codewords.pmCount h)))))

theorem execPmRecord_canon {source : BitVec 10} {m : Fin 2} {layer : Fin 10} (h : s.Canon) :
    CanonNext (execPmRecord source m layer s) := by
  unfold execPmRecord
  dsimp only
  split
  · exact .ite (.next h) (.next h.frame.emit)
  · exact .next h

theorem State.Canon.assayRead {id : Nat} {k : Option (BitVec 48)} (h : s.Canon) : (s.assayRead id k).1.Canon := by
  refine .fst_ite h (.fst_ite h (.assayAdd ?_))
  cases k with
  | none => exact h.fresh
  | some k => exact h

theorem execAssayBatch_canon {vals : List (BitVec 48)} (h : s.Canon) : CanonNext (execAssayBatch vals s) :=
  .ite (.next h) (.next (.foldl (fun _ _ hu => hu.assayRead.wrs) h.wrP))

theorem execAssayBatchDone_canon (h : s.Canon) : CanonNext (execAssayBatchDone s) := .next h.wrP

theorem execAssaySnap_canon {d : Desc} (h : s.Canon) : CanonNext (execAssaySnap d s) :=
  .next (h.take fun _ hu => .ite hu.finish (.ite hu.finish hu.frame))

theorem State.Canon.snapRecords {t : Die} {pos f i : Nat} {l : List (Option (BitVec 48))} (h : s.Canon) :
    (s.snapRecords t pos f i l).Canon := by
  induction f generalizing s i l with
  | zero => exact h
  | succ f ih =>
    unfold State.snapRecords
    split
    · exact h
    · exact ih (.emitNow (.fst_foldl (fun _ _ hx => hx.assayRead) h))

theorem execAssaySnapshot_canon {vals : List (List (BitVec 48))} (h : s.Canon) :
    CanonNext (execAssaySnapshot vals s) := by
  unfold execAssaySnapshot
  split
  · exact .next h
  · exact .ite (.next h) (.next (.snapEnd (.foldl (fun _ _ hu => hu.snapRecords) h.wrP)))

theorem execTagSeedLoad_canon {m : Fin 2} (h : s.Canon) : CanonNext (execTagSeedLoad m s) := .next (.ite h.wrs h)

theorem execSurveyAcq_canon {d : Desc} (h : s.Canon) : CanonNext (execSurveyAcq d s) :=
  .next (h.take fun _ hu => .ite hu.finish (.ite hu.finish (hu.onTarget fun _ hv => hv.frame)))

theorem execSurveyAccumulate_canon {n : Fin 4} (h : s.Canon) : CanonNext (execSurveyAccumulate n s) := by
  unfold execSurveyAccumulate
  split
  · exact .next h
  · exact .ite (.next h.frame) (.next h)

theorem State.Canon.profileRecords {src pos f b : Nat} {l : List (BitVec 16)} (h : s.Canon) :
    (s.profileRecords src pos f b l).Canon := by
  induction f generalizing s b l with
  | zero => exact h
  | succ f ih =>
    unfold State.profileRecords
    split
    · exact h
    · exact ih h.emitNow

theorem State.Canon.surveyEnd {v : Survey} {profile : List (BitVec 16)} {anoms : List Anomaly} {partial' : Bool}
    (h : s.Canon) : (s.surveyEnd v profile anoms partial').Canon :=
  .finishOp <| by
    split
    · exact .raise (.foldl (fun _ _ hu => hu.emitNow) h.frame.profileRecords)
    · exact .foldl (fun _ _ hu => hu.emitNow) h.frame.profileRecords

theorem execSurveyDone_canon {n : Fin 4} {profile : List (BitVec 16)} {anoms : List Anomaly} (h : s.Canon) :
    CanonNext (execSurveyDone n profile anoms s) := by
  unfold execSurveyDone
  split
  · exact .next h
  · exact .next (.ite h.surveyEnd h)

theorem execSurveyTimeout_canon {n : Fin 4} {profile : List (BitVec 16)} {anoms : List Anomaly} (h : s.Canon) :
    CanonNext (execSurveyTimeout n profile anoms s) := by
  unfold execSurveyTimeout
  split
  · exact .next h
  · exact .next (.ite h.surveyEnd h)

theorem execCapture_canon {d : Desc} (h : s.Canon) : CanonNext (execCapture d s) :=
  .next (h.take fun _ hu => .ite hu.finish (.ite hu.finish (hu.onTarget fun _ hv => hv.frame)))

theorem State.Canon.setCapture {c c' : Capture} (h : s.Canon) : (s.setCapture c c').Canon := h.frame

theorem execCaptureTrigger_canon {n : Fin 4} {phi : Fin 9} (h : s.Canon) : CanonNext (execCaptureTrigger n phi s) := by
  unfold execCaptureTrigger
  split
  · exact .next h
  · exact .ite (.next h) (.next h.setCapture)

theorem State.Canon.captureStore {c : Capture} {bytes : List Byte} (h : s.Canon) : (s.captureStore c bytes).Canon :=
  .ite h.toHost (by split; exacts [h, .ite h.writeWords h])

theorem execCaptureSet_canon {n : Fin 4} {bytes : List Byte} {drained : Nat} (h : s.Canon) :
    CanonNext (execCaptureSet n bytes drained s) := by
  unfold execCaptureSet
  split
  · exact .next h
  · exact .ite (.next h) (.ite (.next h.setCapture.raise) (.next h.captureStore.setCapture))

theorem execCaptureDone_canon {n : Fin 4} (h : s.Canon) : CanonNext (execCaptureDone n s) := by
  unfold execCaptureDone
  split
  · exact .next h
  · refine .ite (.next h) ?_
    dsimp only
    split
    · exact .next (by exact h.frame.finishOp)
    · exact .ite (.next h) (.next (by exact h.writeEntry.frame.finishOp))

/-! ### Host writes to registers -/

theorem State.Canon.having {o : Host.Outcome State Fault Refusal} (h : s.Canon) (ho : CanonNext o) : (s.having o).Canon := by
  cases o with
  | next t => exact ho t rfl
  | fault => exact h
  | refused => exact h

theorem State.Canon.storeField {d : Die} {off val : Nat} {e : Fld × Nat × Nat} (h : s.Canon) :
    (s.storeField d off val e).Canon := by
  unfold State.storeField
  dsimp only
  split
  · exact .ite h h.wr
  · exact h.wr
  · exact .ite h.wr (.ite h h.raise)
  · exact .ite h.wr h
  · exact h
  · exact h

theorem State.Canon.tallySet {hi : Nat} (h : s.Canon) : (s.tallySet hi).Canon :=
  .ite (have h₁ := h.frame.wrP; .ite h₁ h₁.wrs) h.raiseField

theorem execTallySet_canon {hi : BitVec 16} (h : s.Canon) : CanonNext (execTallySet hi s) := .next h.tallySet

theorem State.Canon.trigger {d : Die} {val : Nat} {e : Fld × Nat × Nat} (h : s.Canon) : (s.trigger d val e).Canon := by
  unfold State.trigger
  extract_lets i v m c o l whenOne
  have once {x : Host.Outcome State Fault Refusal} (hx : CanonNext x) : (whenOne x).Canon := .ite (h.having hx) h
  split
  · exact once (execWinzCntClr_canon h)
  · exact .ite h.wrs h
  · exact once (execAcqRestart_canon h)
  · exact once (execSlipClr_canon h)
  · exact once (execDecCntClr_canon h)
  · exact h.having (execMsgTxWrite_canon h)
  · exact once (execFrmCntClr_canon h)
  · exact once (execRefRestart_canon h)
  · exact h.having (execApsTx_canon h)
  · exact once (execOduCntClr_canon h)
  · exact once (execInjSingle_canon h)
  · exact once (execInjBurst_canon h)
  · exact h.having (execTimPstep_canon h)
  · exact once (execPpsRealign_canon h)
  · exact once (execClkRealign_canon h)
  · exact once (execWtrClear_canon h)
  · exact once (execLampClear_canon h)
  · exact .ite h (h.having (execCeFree_canon h))
  · exact once (execMemCntClear_canon h)
  · exact once (execAuxCal_canon h)
  · exact once (execRegStart_canon h)
  · exact once (execAssayBatch_canon h)
  · exact once (execSvnCommit_canon h)
  · exact h.tallySet
  · exact h

theorem State.Canon.written {old : State} {d : Die} {val : Nat} {e : Fld × Nat × Nat} (h : s.Canon) :
    (s.written old d val e).Canon := by
  unfold State.written
  dsimp only
  split
  · exact h.txdisUpdate
  · exact h.biasMode
  · exact h.wr
  · exact .ite h.biasArms h
  · exact .ite h (.foldl (fun _ _ hu => hu.wr) h)
  · exact h.ctxUpdate
  · exact .ite h.wr (.ite h (.ite (h.wrs.having (execBlockLockLost_canon h.wrs)) h.wrs))
  · exact .ite h.pairSelect h
  · exact h.adminEn
  · exact h.cselWrite
  · exact h.refWritten
  · exact h.wr
  · exact h

theorem State.Canon.writeFields {w : Window} {off val : Nat} {fs : List (Fld × Nat × Nat)} (h : s.Canon) :
    (s.writeFields w off val fs).Canon := by
  unfold State.writeFields
  refine .ite h ?_
  split
  · exact h.raiseField
  · extract_lets old s₁ s₂ s₃ s₄
    have h₁ : s₁.Canon := .foldl (fun _ _ hu => hu.storeField) h
    have h₂ : s₂.Canon := .ite h₁.shWrite h₁
    have h₃ : s₃.Canon := .foldl (fun _ _ hu => hu.written) h₂
    have h₄ : s₄.Canon := .ite h₃.timWritten h₃
    exact .foldl (fun _ _ hu => hu.trigger) h₄

theorem State.Canon.regWord {addr val : Nat} (h : s.Canon) : (s.regWord addr val).Canon := by
  unfold State.regWord
  split
  · exact h
  · exact h.deadAccess
  · exact h.unreachableAccess
  · exact h.writeFields

theorem State.Canon.writeBytes : ∀ {l : List Byte} {s : State} {addr : Nat}, s.Canon → (s.writeBytes addr l).Canon
  | [], _, _, h => h
  | [_], _, _, h | [_, _], _, _, h | [_, _, _], _, _, h => h.inc
  | _ :: _ :: _ :: _ :: _, _, _, h => by
    rw [State.writeBytes]
    exact Canon.writeBytes h.regWord

theorem State.Canon.hostWrite {addr : Nat} {data : List Byte} (h : s.Canon) : (s.hostWrite addr data).Canon :=
  .ite h.inc h.writeBytes

theorem State.Canon.vfWrite {v : Nat} : ∀ {l : List Byte} {s : State} {addr : Nat}, s.Canon → (s.vfWrite v addr l).Canon
  | [], _, _, h => h
  | [_], _, _, h | [_, _], _, _, h | [_, _, _], _, _, h => h.inc
  | _ :: _ :: _ :: _ :: _, _, _, h => by
    rw [State.vfWrite]
    refine Canon.vfWrite ?_
    split
    · exact h.regWord
    · exact h

theorem State.Canon.maskVector {fn vec : Nat} {masked : Bool} (h : s.Canon) : (s.maskVector fn vec masked).Canon :=
  .ite h.frame.frame (.ite h.frame.frame.msix h.frame)

theorem execRegisterWrite_canon {tgt : WriteTarget} {data : List Byte} (h : s.Canon) :
    CanonNext (execRegisterWrite tgt data s) := by
  unfold execRegisterWrite
  split
  · exact .next h.hostWrite
  · exact .next (.ite h.inc h.vfWrite)
  · exact .next h.shWrite
  · exact .next (.ite h.wrP h)
  · exact .next (.ite h.maskVector h)

theorem execBlockOffAccess_canon {addr : BitVec 26} {write : Bool} (h : s.Canon) :
    CanonNext (execBlockOffAccess addr write s) := by
  unfold execBlockOffAccess
  dsimp only
  split
  · exact .next (.ite h.deadAccess h.deadRead)
  · exact .next h
  · exact .next h
  · exact .next h

theorem execDieUnreachableAccess_canon {addr : BitVec 26} {write : Bool} (h : s.Canon) :
    CanonNext (execDieUnreachableAccess addr write s) := by
  unfold execDieUnreachableAccess
  split
  · exact .next (.ite h.unreachableAccess h.unreachableRead)
  · exact .next h
  · exact .next h
  · exact .next h

theorem execRegAccClr_canon (h : s.Canon) : CanonNext (execRegAccClr s) := .next h.wrs

theorem execTempPeakRead_canon {t : Die} (h : s.Canon) : CanonNext (execTempPeakRead t s) :=
  .ite (.next h.frame) (.next h.wr.frame)

theorem execQueueHwmRead_canon {t : Die} {q : Fin 32} {occ peak : BitVec 16} (h : s.Canon) :
    CanonNext (execQueueHwmRead t q occ peak s) := .next (h.readReg fun _ hu => .fst_ite hu hu.wrs)

theorem State.Canon.loadWords {addr n : Nat} {l : List Word} (h : s.Canon) : (s.loadWords addr n l).1.Canon := by
  induction l generalizing s addr n with
  | nil => exact h
  | cons w l ih => exact ih h.regWord

theorem execTableLoad_canon {d : Desc} {words : List Word} (h : s.Canon) : CanonNext (execTableLoad d words s) :=
  .next (h.take fun _ hu => hu.onTarget fun _ hv => .ite hv.finish hv.loadWords.frame)

/-! ### What a swap brings about -/

theorem State.Canon.announce {n target : Nat} (h : s.Canon) : (s.announce n target).Canon := h.wrs

theorem State.Canon.cancelAnnouncements (h : s.Canon) : s.cancelAnnouncements.Canon :=
  .foldl (fun _ _ hu => .ite hu.wr hu) h

theorem State.Canon.swapTxSlots {d : Die} {p : Nat} (h : s.Canon) : (s.swapTxSlots d p).Canon :=
  have h₁ := Canon.swapSlots (.ite h.destroyKey h)
  have h₂ := Canon.ite h₁ h₁.wrs
  .ite h₂ (.foldl (fun _ _ hu => .ite hu.wr hu) h₂)

theorem State.Canon.takeRxSlots {d : Die} {p : Nat} (h : s.Canon) : (s.takeRxSlots d p).Canon :=
  .swapSlots (.ite h.destroyKey h)

theorem State.Canon.swapKeys {d : Die} (h : s.Canon) : (s.swapKeys d).Canon :=
  .foldl (fun _ _ hu => have h₁ := hu.swapTxSlots; .ite h₁ h₁.takeRxSlots) h

theorem State.Canon.streamsFollow {d : Die} (h : s.Canon) : (s.streamsFollow d).Canon :=
  .foldl (fun _ _ hu => have h₁ := Canon.ite hu hu.wr; .ite h₁ h₁.wrs) h

theorem State.Canon.pairsFollow {old : State} {d : Die} (h : s.Canon) : (s.pairsFollow old d).Canon :=
  .foldl (fun _ _ hu => .ite (.pairRole (.ite hu hu.wr)) hu) h

theorem State.Canon.holdParents {old : State} {d : Die} (h : s.Canon) : (s.holdParents old d).Canon :=
  .foldl (fun _ _ hu => .ite hu (.foldl (fun _ _ hv => hv.wr) hu)) h

theorem State.Canon.flexFollow {d : Die} (h : s.Canon) : (s.flexFollow d).Canon := .foldl (fun _ _ hu => .ite hu.wr hu) h

theorem State.Canon.loopsVoid {d : Die} (h : s.Canon) : (s.loopsVoid d).Canon := .foldl (fun _ _ hu => .ite hu hu.wr) h

theorem State.Canon.swapFirmware {d : Die} (h : s.Canon) : (s.swapFirmware d).Canon :=
  .foldl (fun _ _ hu => .ite hu (have h₁ := Canon.foldl (fun _ _ hv => hv.finishOp) hu.frame; .ite h₁.wrs.loopsVoid
    h₁.wrs)) h

theorem State.Canon.rateChange (h : s.Canon) : s.rateChange.Canon :=
  .foldl (fun _ _ hu => have h₁ := hu.fgBegin.wrs; have h₂ := Canon.ite h₁ h₁.acqCold; .ite h₂ h₂.wr) h.frame

theorem State.Canon.afterMillSwap {old : State} {d : Die} (h : s.Canon) : (s.afterMillSwap old d).Canon :=
  have h₁ := Canon.portsShow (.flexFollow (.holdParents (.pairsFollow (.followMap (.rebind (.streamsFollow (.swapKeys
    (.foldl (fun _ _ hu => .showTxRate (.wrs (.ite hu.wr hu))) h))))))))
  .foldl (fun _ _ hu => hu.ctxUpdate) (.sliceShow (.linkEval (.ite h₁ h₁.wr)))

theorem State.Canon.afterTxSwap {old : State} {d : Die} (h : s.Canon) : (s.afterTxSwap old d).Canon :=
  have h₁ := h.swapFirmware
  have h₂ := Canon.ite h₁.txdisUpdate (.ite h₁.afterMillSwap h₁)
  .ite h₂ <|
  have h₃ := h₂.raiseFloors
  .ite h₃ (.foldl (fun _ _ hu => hu.showTxRate) h₃.rateChange)

theorem State.Canon.rxMapSwap {n : Nat} (h : s.Canon) : (s.rxMapSwap n).Canon := by
  unfold State.rxMapSwap
  dsimp only
  split
  · exact h.followMap.wr.wr
  · exact h.followMap.wr

theorem State.Canon.acqAfterSwap {old : State} {n : Nat} (h : s.Canon) : (s.acqAfterSwap old n).Canon :=
  .ite (.ite h.acqTo.trackEnd h.acqTo) (.ite h.scanStart (.ite h.acqTo h))

theorem State.Canon.afterRxSwap {old : State} {n : Nat} (h : s.Canon) : (s.afterRxSwap old n).Canon :=
  have h₁ := Canon.acqGate (.acqAfterSwap (.rxMapSwap (.ite h.wr h)))
  .groupShow (.nlcUpdate (.ite h₁ h₁.chainStart))

theorem State.Canon.afterGroupSwap {old : State} {g : Nat} (h : s.Canon) : (s.afterGroupSwap old g).Canon :=
  have h₁ := Canon.foldl (fun _ _ hu => .ite hu.takeRxSlots hu) h
  .ite h₁ <|
  .foldl (fun _ _ hu => hu.groupShow) (.foldl (fun _ _ hu => .ite hu hu.setMask.setMask.wrs) h₁.chooseRef)

/-! ### Tally time and shift changes -/

theorem State.Canon.commitFail {c : Commit} {st : Status} (h : s.Canon) : (s.commitFail c st).Canon :=
  .finishOp (.wrP (.foldl (fun _ _ hu => hu.wrs) h.cancelAnnouncements.frame))

theorem State.Canon.commitTake {o : Op} (h : s.Canon) : (s.commitTake o).Canon :=
  .ite h.finishOp (.ite h.finishOp (.frame (.wrP (.foldl (fun _ _ hu => hu.wr.wr) h))))

theorem State.Canon.nextCommits {l : List Op} (h : s.Canon) : (s.nextCommits l).Canon := by
  induction l generalizing s with
  | nil => exact h.frame
  | cons o l ih => exact .ite h.frame (ih h.commitTake)

theorem execShiftCommit_canon {d : Desc} (h : s.Canon) : CanonNext (execShiftCommit d s) :=
  .next (h.take fun _ hu => .ite hu.frame hu.commitTake)

theorem State.Canon.answerPrepare {d : Die} (h : s.Canon) : (s.answerPrepare d).Canon := .ite h.wr.wr.wr h.wr.wr.wr.wr

theorem execShiftPrepare_canon {d : Die} (h : s.Canon) : CanonNext (execShiftPrepare d s) :=
  .ite (.next h) (.ite (.next h.wr) (.next h.answerPrepare))

theorem State.Canon.judgeCommit {c : Commit} (h : s.Canon) : (s.judgeCommit c).Canon :=
  .ite h <|
  .ite h.commitFail.nextCommits <|
  .ite h.commitFail.nextCommits (.ite h.commitFail.nextCommits (.ite h (.ite h.commitFail.nextCommits h.frame)))

theorem execShiftAccept_canon {d : Die} (h : s.Canon) : CanonNext (execShiftAccept d s) := by
  unfold execShiftAccept
  split
  · exact .next h.wr
  · exact .ite (.next h) (.next h.wr.frame.judgeCommit)

theorem execCommitDeadline_canon (h : s.Canon) : CanonNext (execCommitDeadline s) := by
  unfold execCommitDeadline
  split
  · exact .next h
  · exact .ite (.next h) (.next h.judgeCommit)

theorem execGoAhead_canon {d : Die} (h : s.Canon) : CanonNext (execGoAhead d s) := by
  unfold execGoAhead
  split
  · exact .next h
  · exact .ite (.next h.frame) (.next h)

theorem execShiftCancel_canon {d : Die} (h : s.Canon) : CanonNext (execShiftCancel d s) :=
  .ite (.next h) (.next h.wrs.applyHeld)

theorem execTxSwap_canon {d : Die} (h : s.Canon) : CanonNext (execTxSwap d s) := by
  unfold execTxSwap
  split
  · exact .next h
  · exact .ite (.next h) (.next h.swapWhere.wr.afterTxSwap.frame)

theorem State.Canon.swapRx {c : Commit} {n : Nat} (h : s.Canon) : (s.swapRx c n).Canon :=
  .frame (.applyStaging (.afterRxSwap (.swapWhere (.ite h.liftStaging h))))

theorem execRxSwap_canon {n : Fin 4} (h : s.Canon) : CanonNext (execRxSwap n s) := by
  unfold execRxSwap
  split
  · exact .next h
  · exact .ite (.next h) (.next (.swapRx (.ite h.wr h)))

theorem execPredictedRxSwap_canon {n : Fin 4} (h : s.Canon) : CanonNext (execPredictedRxSwap n s) := by
  unfold execPredictedRxSwap
  split
  · exact .next h
  · exact .ite (.next h) (.next h.wr.swapRx)

theorem State.Canon.swapGroupRx {g : Nat} (h : s.Canon) : (s.swapGroupRx g).Canon := h.swapWhere.wr

theorem execGroupRxSwap_canon {g : Fin 4} (h : s.Canon) : CanonNext (execGroupRxSwap g s) := by
  unfold execGroupRxSwap
  split
  · exact .next h
  · exact .ite (.next h) (.next h.swapGroupRx.afterGroupSwap.frame)

theorem execOffshiftReload_canon {d : Die} (h : s.Canon) : CanonNext (execOffshiftReload d s) :=
  .ite (.next h) (.next h.reload.wr.gates.sliceShow)

theorem State.Canon.settleDies {go : List Die} (h : s.Canon) : (s.settleDies go).Canon :=
  .returnDies (.foldl (fun _ _ hu => hu.wr) h)

theorem execShiftCommitDone_canon (h : s.Canon) : CanonNext (execShiftCommitDone s) := by
  unfold execShiftCommitDone
  split
  · exact .next h
  · exact .ite (.next h) (.next h.frame.wrP.wrP.finishOp.settleDies.nextCommits)

theorem execAnnounceStart_canon {n : Fin 4} (h : s.Canon) : CanonNext (execAnnounceStart n s) := by
  unfold execAnnounceStart
  dsimp only
  split
  · exact .next h
  · exact .ite (.next h) (.ite (.next h.announce) (.next h.commitFail.nextCommits))

theorem execAnnounceCancelEnd_canon {n : Fin 4} (h : s.Canon) : CanonNext (execAnnounceCancelEnd n s) :=
  .ite (.next h.wrs) (.next h)

theorem execTableLoadDone_canon {t : Die} (h : s.Canon) : CanonNext (execTableLoadDone t s) := by
  unfold execTableLoadDone
  split
  · exact .next h
  · exact
      have h₁ := h.frame.finishOp
      .next (.ite h₁.answerPrepare h₁)

theorem execSurfClkLost_canon (h : s.Canon) : CanonNext (execSurfClkLost s) := .next h.wrP.wrP

theorem execTallySnapRead_canon (h : s.Canon) : CanonNext (execTallySnapRead s) := .next h.wr48.wrP.frame

theorem execFarSfRead_canon {m c : Fin 2} (h : s.Canon) : CanonNext (execFarSfRead m c s) := by
  unfold execFarSfRead
  dsimp only
  split
  · exact .next h.wr48.wr48.wr.frame
  · exact .next h.frame
  · exact .next h.deadRead
  · exact .next h.unreachableRead

/-! ### One step -/

/-- Each command by its own lemma. -/
theorem exec_canon (h : s.Canon) : ∀ c : Instr, CanonNext (exec c s)
  | .blockOffAccess .. => execBlockOffAccess_canon h
  | .dieUnreachableAccess .. => execDieUnreachableAccess_canon h
  | .registerWrite .. => execRegisterWrite_canon h
  | .winzCrcError .. => execWinzCrcError_canon h
  | .linkDown .. => execLinkDown_canon h
  | .linkRetrainDone .. => execLinkRetrainDone_canon h
  | .staleReply .. => execStaleReply_canon h
  | .winzCntClr .. => execWinzCntClr_canon h
  | .txLineFrame .. => execTxLineFrame_canon h
  | .farSfArrival .. => execFarSfArrival_canon h
  | .sfOverheadReceived .. => execSfOverheadReceived_canon h
  | .shiftCommit .. => execShiftCommit_canon h
  | .shiftPrepare .. => execShiftPrepare_canon h
  | .shiftAccept .. => execShiftAccept_canon h
  | .commitDeadline => execCommitDeadline_canon h
  | .goAhead .. => execGoAhead_canon h
  | .shiftCancel .. => execShiftCancel_canon h
  | .txSwap .. => execTxSwap_canon h
  | .rxSwap .. => execRxSwap_canon h
  | .predictedRxSwap .. => execPredictedRxSwap_canon h
  | .groupRxSwap .. => execGroupRxSwap_canon h
  | .offshiftReload .. => execOffshiftReload_canon h
  | .shiftCommitDone => execShiftCommitDone_canon h
  | .surfClkLost => execSurfClkLost_canon h
  | .tallySet .. => execTallySet_canon h
  | .calWindowEnd .. => execCalWindowEnd_canon h
  | .adcOverrange .. => execAdcOverrange_canon h
  | .foregroundCalDone .. => execForegroundCalDone_canon h
  | .tiaGainDown .. => execTiaGainDown_canon h
  | .tiaHoldoffEnd .. => execTiaHoldoffEnd_canon h
  | .tiaGainUp .. => execTiaGainUp_canon h
  | .spiTransactionStart .. => execSpiTransactionStart_canon h
  | .spiTransactionDone .. => execSpiTransactionDone_canon h
  | .powerTrim .. => execPowerTrim_canon h
  | .sitePresenceChange .. => execSitePresenceChange_canon h
  | .oeFault .. => execOeFault_canon h
  | .txdisRelease .. => execTxdisRelease_canon h
  | .biasChipBoundary .. => execBiasChipBoundary_canon h
  | .signalDetected .. => execSignalDetected_canon h
  | .cdScanDone .. => execCdScanDone_canon h
  | .freqAcqDone .. => execFreqAcqDone_canon h
  | .eqConverged .. => execEqConverged_canon h
  | .trainLockDone .. => execTrainLockDone_canon h
  | .phaseLockDone .. => execPhaseLockDone_canon h
  | .acqFail .. => execAcqFail_canon h
  | .losSet .. => execLosSet_canon h
  | .losClear .. => execLosClear_canon h
  | .acqRestart .. => execAcqRestart_canon h
  | .rxLockLost .. => execRxLockLost_canon h
  | .cdEstUpdate .. => execCdEstUpdate_canon h
  | .slipCandidate .. => execSlipCandidate_canon h
  | .pilotCheck .. => execPilotCheck_canon h
  | .slipRecord .. => execSlipRecord_canon h
  | .announceStart .. => execAnnounceStart_canon h
  | .announceCancelEnd .. => execAnnounceCancelEnd_canon h
  | .fecPhaseWindow .. => execFecPhaseWindow_canon h
  | .positionComplete .. => execPositionComplete_canon h
  | .positionDispatch .. => execPositionDispatch_canon h
  | .iterationEnd .. => execIterationEnd_canon h
  | .positionRelease .. => execPositionRelease_canon h
  | .otTokenReload .. => execOtTokenReload_canon h
  | .katTest .. => execKatTest_canon h
  | .msgTxWrite .. => execMsgTxWrite_canon h
  | .msgRxRead .. => execMsgRxRead_canon h
  | .shapeSweepWindow .. => execShapeSweepWindow_canon h
  | .frameHunt .. => execFrameHunt_canon h
  | .mymosSync .. => execMymosSync_canon h
  | .mymosLof .. => execMymosLof_canon h
  | .shapeUnlock .. => execShapeUnlock_canon h
  | .memberIn .. => execMemberIn_canon h
  | .groupRelease .. => execGroupRelease_canon h
  | .releasePositionMsg .. => execReleasePositionMsg_canon h
  | .refClear .. => execRefClear_canon h
  | .refRestart .. => execRefRestart_canon h
  | .otnFrameReceived .. => execOtnFrameReceived_canon h
  | .otnFrameTransmit .. => execOtnFrameTransmit_canon h
  | .ethBlockReceived .. => execEthBlockReceived_canon h
  | .apsTx .. => execApsTx_canon h
  | .lcrHandshake .. => execLcrHandshake_canon h
  | .cdrLockChange .. => execCdrLockChange_canon h
  | .laneTrained .. => execLaneTrained_canon h
  | .laneTrainFail .. => execLaneTrainFail_canon h
  | .laneRetrain .. => execLaneRetrain_canon h
  | .prbsLock .. => execPrbsLock_canon h
  | .prbsLockLost .. => execPrbsLockLost_canon h
  | .injSingle .. => execInjSingle_canon h
  | .injBurst .. => execInjBurst_canon h
  | .injDone .. => execInjDone_canon h
  | .prbsErrRead .. => execPrbsErrRead_canon h
  | .blockLock .. => execBlockLock_canon h
  | .blockLockLost .. => execBlockLockLost_canon h
  | .alignBlock .. => execAlignBlock_canon h
  | .statusBlock .. => execStatusBlock_canon h
  | .timeBlock _ id _ st => execTimeBlock_canon (x := id) (x₂ := st) h
  | .coordBlock _ _ _ _ leg _ _ => execCoordBlock_canon (x := leg) h
  | .badCtrl .. => execBadCtrl_canon h
  | .xcDataBlock .. => execXcDataBlock_canon h
  | .xcTimeSend .. => execXcTimeSend_canon h
  | .xcStatusSend .. => execXcStatusSend_canon h
  | .xcCoordSend .. => execXcCoordSend_canon h
  | .xcPartnerLost .. => execXcPartnerLost_canon h
  | .kekLoad .. => execKekLoad_canon h
  | .keyLoad .. => execKeyLoad_canon h
  | .keyUnwrapDone .. => execKeyUnwrapDone_canon h
  | .keyZero .. => execKeyZero_canon h
  | .keyDestroy .. => execKeyDestroy_canon h
  | .pageBind .. => execPageBind_canon h
  | .pageUnbind .. => execPageUnbind_canon h
  | .streamBind .. => execStreamBind_canon h
  | .streamStart .. => execStreamStart_canon h
  | .streamStop .. => execStreamStop_canon h
  | .laEncrypt .. => execLaEncrypt_canon h
  | .laDecrypt .. => execLaDecrypt_canon h
  | .lookasideDone .. => execLookasideDone_canon h
  | .encryptFrame .. => execEncryptFrame_canon h
  | .decryptFrame .. => execDecryptFrame_canon h
  | .rxKeySwap .. => execRxKeySwap_canon h
  | .txFramesRead .. => execTxFramesRead_canon h
  | .seqRead .. => execSeqRead_canon h
  | .candidateActive .. => execCandidateActive_canon h
  | .candidateInactive .. => execCandidateInactive_canon h
  | .qlReceived .. => execQlReceived_canon h
  | .qlTimeout .. => execQlTimeout_canon h
  | .freqMeasureUpdate .. => execFreqMeasureUpdate_canon h
  | .wtrExpire .. => execWtrExpire_canon h
  | .wtrClear .. => execWtrClear_canon h
  | .holdoffExpire => execHoldoffExpire_canon h
  | .timSwitch => execTimSwitch_canon h
  | .xoLost => execXoLost_canon h
  | .dpllLocked => execDpllLocked_canon h
  | .dpllPhaseError => execDpllPhaseError_canon h
  | .historySecond .. => execHistorySecond_canon h
  | .timPstep .. => execTimPstep_canon h
  | .phaseStepDone => execPhaseStepDone_canon h
  | .ppsInEdge .. => execPpsInEdge_canon h
  | .ppsInMissing .. => execPpsInMissing_canon h
  | .internalSecond => execInternalSecond_canon h
  | .ppsRealign .. => execPpsRealign_canon h
  | .clkRealign .. => execClkRealign_canon h
  | .clkSelWrite .. => execClkSelWrite_canon h
  | .ppsTallyRead => execPpsTallyRead_canon h
  | .doorbell .. => execDoorbell_canon h
  | .descriptorFetch .. => execDescriptorFetch_canon h
  | .nop .. => execNop_canon h
  | .ringCreate .. => execRingCreate_canon h
  | .ringDestroy .. => execRingDestroy_canon h
  | .ringDestroyDone .. => execRingDestroyDone_canon h
  | .ringBind .. => execRingBind_canon h
  | .vfConfig .. => execVfConfig_canon h
  | .tableLoad .. => execTableLoad_canon h
  | .memRead .. => execMemRead_canon h
  | .memWrite .. => execMemWrite_canon h
  | .marchRun .. => execMarchRun_canon h
  | .marchDone .. => execMarchDone_canon h
  | .oeSpi .. => execOeSpi_canon h
  | .pwrReq .. => execPwrReq_canon h
  | .reset .. => execReset_canon h
  | .fwUpdate .. => execFwUpdate_canon h
  | .mailbox .. => execMailbox_canon h
  | .mailboxAnswer .. => execMailboxAnswer_canon h
  | .mailboxTimeout .. => execMailboxTimeout_canon h
  | .capture .. => execCapture_canon h
  | .assaySnap .. => execAssaySnap_canon h
  | .surveyAcq .. => execSurveyAcq_canon h
  | .auxSample .. => execAuxSample_canon h
  | .completionWrite => execCompletionWrite_canon h
  | .eventWrite .. => execEventWrite_canon h
  | .interruptTimer .. => execInterruptTimer_canon h
  | .hostReset => execHostReset_canon h
  | .vfFlr .. => execVfFlr_canon h
  | .vfDisable => execVfDisable_canon h
  | .adminEn .. => execAdminEn_canon h
  | .pwrRequest .. => execPwrRequest_canon h
  | .pwrAnswer .. => execPwrAnswer_canon h
  | .domainGrant .. => execDomainGrant_canon h
  | .pwrTimeout .. => execPwrTimeout_canon h
  | .pwrDeadline => execPwrDeadline_canon h
  | .pwrEnter => execPwrEnter_canon h
  | .pwrRelease .. => execPwrRelease_canon h
  | .wakeSource .. => execWakeSource_canon h
  | .domainWakeDone => execDomainWakeDone_canon h
  | .packagePowerOff => execPackagePowerOff_canon h
  | .budgetInterval .. => execBudgetInterval_canon h
  | .grantApply => execGrantApply_canon h
  | .thermalCheck .. => execThermalCheck_canon h
  | .thermalTrip .. => execThermalTrip_canon h
  | .lampClear => execLampClear_canon h
  | .binTempReport .. => execBinTempReport_canon h
  | .ceDetected .. => execCeDetected_canon h
  | .ueDetected .. => execUeDetected_canon h
  | .partialMemoryWrite .. => execPartialMemoryWrite_canon h
  | .canaryStart .. => execCanaryStart_canon h
  | .canaryDone .. => execCanaryDone_canon h
  | .ceFree .. => execCeFree_canon h
  | .memCntClear .. => execMemCntClear_canon h
  | .leLockstep .. => execLeLockstep_canon h
  | .auxConversionEnd .. => execAuxConversionEnd_canon h
  | .auxInjectRequest .. => execAuxInjectRequest_canon h
  | .regStart .. => execRegStart_canon h
  | .auxRegPeriod .. => execAuxRegPeriod_canon h
  | .refSettled .. => execRefSettled_canon h
  | .auxCal .. => execAuxCal_canon h
  | .auxCalDone .. => execAuxCalDone_canon h
  | .auxQPop .. => execAuxQPop_canon h
  | .auxSimulSample .. => execAuxSimulSample_canon h
  | .telemetryWrite .. => execTelemetryWrite_canon h
  | .lineMonitorUpdate .. => execLineMonitorUpdate_canon h
  | .sopSample .. => execSopSample_canon h
  | .sopRateMeasure .. => execSopRateMeasure_canon h
  | .pmSecond .. => execPmSecond_canon h
  | .pmRecord .. => execPmRecord_canon h
  | .assayBatch .. => execAssayBatch_canon h
  | .assayBatchDone => execAssayBatchDone_canon h
  | .assaySnapshot .. => execAssaySnapshot_canon h
  | .tagSeedLoad .. => execTagSeedLoad_canon h
  | .surveyAccumulate .. => execSurveyAccumulate_canon h
  | .surveyDone .. => execSurveyDone_canon h
  | .surveyTimeout .. => execSurveyTimeout_canon h
  | .captureTrigger .. => execCaptureTrigger_canon h
  | .captureSet .. => execCaptureSet_canon h
  | .captureDone .. => execCaptureDone_canon h
  | .porstRise .. => execPorstRise_canon h
  | .fwReady .. => execFwReady_canon h
  | .porstFall => execPorstFall_canon h
  | .i2cRecoveryLoad .. => execI2cRecoveryLoad_canon h
  | .svnCommit => execSvnCommit_canon h
  | .railFault .. => execRailFault_canon h
  | .surfacePowerLoss => execSurfacePowerLoss_canon h
  | .domainResetDone .. => execDomainResetDone_canon h
  | .resetDone .. => execResetDone_canon h
  | .wake => execWake_canon h
  | .wakeRailsGood => execWakeRailsGood_canon h
  | .railTimeout => execRailTimeout_canon h
  | .railDischarged => execRailDischarged_canon h
  | .fwSwapped .. => execFwSwapped_canon h
  | .regAccClr => execRegAccClr_canon h
  | .slipClr .. => execSlipClr_canon h
  | .decCntClr .. => execDecCntClr_canon h
  | .frmCntClr .. => execFrmCntClr_canon h
  | .oduCntClr .. => execOduCntClr_canon h
  | .tallySnapRead => execTallySnapRead_canon h
  | .farSfRead .. => execFarSfRead_canon h
  | .unfinishedHwmRead .. => execUnfinishedHwmRead_canon h
  | .tempPeakRead .. => execTempPeakRead_canon h
  | .sopRatePeakRead .. => execSopRatePeakRead_canon h
  | .queueHwmRead .. => execQueueHwmRead_canon h
  | .ovrSfLatch .. => execOvrSfLatch_canon h
  | .oeFaultEnd .. => execOeFaultEnd_canon h
  | .railRestored .. => execRailRestored_canon h
  | .resetHoldEnd => execResetHoldEnd_canon h
  | .alignLockChange .. => execAlignLockChange_canon h
  | .pcieLinkUp => execPcieLinkUp_canon h
  | .laneTrainRequest .. => execLaneTrainRequest_canon h
  | .tableLoadDone .. => execTableLoadDone_canon h
  | .fwStaged .. => execFwStaged_canon h
  | .ppsOutPulse .. => execPpsOutPulse_canon h

theorem State.Canon.tick (h : s.Canon) : s.tick.Canon := .ite h.frame h.bump

theorem step_canon (h : s.Canon) : CanonNext (step s) := by
  unfold step
  split
  · exact .next h.tick
  · exact exec_canon h.frame _

end

/-- Settles O3: each operation that makes a state keeps its stores canonical, hence each command and each tick. -/
theorem everyStepKeepsItsStoresCanonical : Obligations.EveryStepKeepsItsStoresCanonical :=
  fun _ _ h e => (step_canon ⟨h⟩ _ e).wf

end Sys2Proof.Machine

/-! ## A dead register access -/

namespace Sys2Proof.Machine

open State

/-- `t` is `s` with one dead access counted, up to the greatest count. -/
def State.DeadCounted (s t : State) : Prop :=
  t.rd .accDeadAccesses .m0 0 = min (s.rd .accDeadAccesses .m0 0 + 1) 0xFFFF ∧ SameBut [(.accDeadAccesses, .m0, 0)] s t

theorem State.deadCounted_inc (s : State) : s.DeadCounted (s.inc .accDeadAccesses .m0) :=
  ⟨by rw [rd_inc, if_pos ⟨rfl, rfl, rfl⟩]; rfl, (SameBut.refl _ s).inc _ _ _ _ (by simp)⟩

theorem State.deadAccess_eq (s : State) (b off : Nat) (write : Bool) :
    s.deadAccess b off write =
      (s.raise Reason.blockOff b (off + if write then 2 ^ 31 else 0)).inc .accDeadAccesses .m0 := raise_inc ..

theorem State.unreachableAccess_eq (s : State) (d : Die) :
    s.unreachableAccess d = (s.raise Reason.dieUnreachable (blkId d)).inc .accDeadAccesses .m0 := raise_inc ..

theorem exec_blockOffAccess {addr : BitVec 26} {s : State} {b : Nat} (write : Bool)
    (h : s.access (addr.toNat / 4 * 4) = .blockOff b) :
    exec (.blockOffAccess addr write) s = .next (if write then s.deadAccess b (addr.toNat / 4 * 4 % 0x400000) true
      else s.deadRead b (addr.toNat / 4 * 4 % 0x400000)) := by
  show execBlockOffAccess addr write s = _
  simp only [execBlockOffAccess, h]

theorem exec_dieUnreachableAccess {addr : BitVec 26} {s : State} {d : Die} (write : Bool)
    (h : s.access (addr.toNat / 4 * 4) = .unreachable d) :
    exec (.dieUnreachableAccess addr write) s =
      .next (if write then s.unreachableAccess d else s.unreachableRead d) := by
  show execDieUnreachableAccess addr write s = _
  simp only [execDieUnreachableAccess, h]

theorem State.deadCounted_deadAccess (s : State) (b off : Nat) (write : Bool) :
    (s.raise Reason.blockOff b (off + if write then 2 ^ 31 else 0)).DeadCounted (s.deadAccess b off write) := by
  rw [deadAccess_eq]
  exact deadCounted_inc _

theorem State.deadCounted_unreachableAccess (s : State) (d : Die) :
    (s.raise Reason.dieUnreachable (blkId d)).DeadCounted (s.unreachableAccess d) := by
  rw [unreachableAccess_eq]
  exact deadCounted_inc _

/-- The word that a read answers makes no difference to the count. -/
theorem State.DeadCounted.answered {s t : State} (h : s.DeadCounted t) (w : Nat) :
    State.DeadCounted { s with readData := w } { t with readData := w } := by
  obtain ⟨hc, hs, hf⟩ := h
  exact ⟨hc, by rw [hs], hf⟩

/-- Settles O6: the event is raised in the state as it was, and the count is the one register that moves. -/
theorem deadAccessAnsweredCountedAnnounced : Obligations.DeadAccessAnsweredCountedAnnounced := by
  intro addr s
  refine ⟨fun b h => ⟨?_, ?_⟩, fun d h => ⟨?_, ?_⟩⟩
  · obtain ⟨hc, hs⟩ := (s.deadCounted_deadAccess b (addr.toNat / 4 * 4 % 0x400000) false).answered deadWord
    exact ⟨_, exec_blockOffAccess false h, rfl, hc.trans (by simp), hs⟩
  · obtain ⟨hc, hs⟩ := s.deadCounted_deadAccess b (addr.toNat / 4 * 4 % 0x400000) true
    exact ⟨_, exec_blockOffAccess true h, hc.trans (by simp), hs⟩
  · obtain ⟨hc, hs⟩ := (s.deadCounted_unreachableAccess d).answered deadWord
    exact ⟨_, exec_dieUnreachableAccess false h, rfl, hc.trans (by simp), hs⟩
  · obtain ⟨hc, hs⟩ := s.deadCounted_unreachableAccess d
    exact ⟨_, exec_dieUnreachableAccess true h, hc.trans (by simp), hs⟩

end Sys2Proof.Machine

/-! ## Host writes to registers -/

namespace Sys2Proof.Machine

open State

/-! ### The word that an access names -/

theorem windowOf_offset {a off : Nat} {w : Window} (h : windowOf a = some (w, off)) : off = a % 0x400000 := by
  unfold windowOf at h
  dsimp only at h
  split at h <;> cases h <;> rfl

theorem State.dieAccess_word {s : State} {d : Die} {off : Nat} {w : Window} {fs : List (Fld × Nat × Nat)}
    (h : s.dieAccess d off = .word w fs) : w = .die d ∧ fs = wordAt (.die d) off := by
  unfold State.dieAccess at h
  dsimp only at h
  repeat' split at h
  all_goals cases h
  all_goals exact ⟨rfl, rfl⟩

theorem State.access_word {s : State} {a : Nat} {w : Window} {fs : List (Fld × Nat × Nat)}
    (h : s.access a = .word w fs) : fs = wordAt w (a % 0x400000) := by
  unfold State.access at h
  dsimp only at h
  split at h
  · cases h
  next hw =>
    rw [← windowOf_offset hw]
    repeat' split at h
    all_goals cases h
    all_goals rfl
  next hw =>
    obtain ⟨rfl, rfl⟩ := dieAccess_word h
    rw [← windowOf_offset hw]

/-! ### Events that are pending -/

/-- An event with this reason is pending. -/
def State.Announces (s : State) (r : Nat) : Prop := ∃ v ∈ s.events, v.reason = r

theorem State.announces_raise (s : State) (r b a0 a1 : Nat) (far : Option Nat) :
    (s.raise r b a0 a1 far).Announces r := by
  unfold State.Announces State.raise
  rw [raiseAs_def]
  unfold eventsWith
  dsimp only
  split
  next h =>
    obtain ⟨e, he, hsame⟩ := List.any_eq_true.mp h
    refine ⟨_, List.mem_map.mpr ⟨e, he, rfl⟩, ?_⟩
    rw [if_pos hsame]
    simp only [Bool.and_eq_true, beq_iff_eq] at hsame
    obtain ⟨⟨⟨hreason, -⟩, -⟩, -⟩ := hsame
    exact hreason
  · exact ⟨_, List.mem_append_right _ (List.mem_singleton_self _), rfl⟩

/-- A further event drops none: one like it that is pending stays in the list. -/
theorem State.Announces.raise {s : State} {q : Nat} (h : s.Announces q) (r b a0 a1 : Nat) (far : Option Nat) :
    (s.raise r b a0 a1 far).Announces q := by
  obtain ⟨e, he, hq⟩ := h
  unfold State.Announces State.raise
  rw [raiseAs_def]
  unfold eventsWith
  dsimp only
  split
  · refine ⟨_, List.mem_map.mpr ⟨e, he, rfl⟩, ?_⟩
    split
    · exact hq
    · exact hq
  · exact ⟨e, List.mem_append_left _ he, hq⟩

/-- `t` is `s` but for the listed registers and for the pending events. -/
def SameButEvents (l : List Reg) (s t : State) : Prop := SameBut l { s with events := t.events } t

theorem SameButEvents.trans {l : List Reg} {s t u : State} (h : SameButEvents l s t) (k : SameButEvents l t u) :
    SameButEvents l s u := by
  obtain ⟨hs, hf⟩ := h
  obtain ⟨ks, kf⟩ := k
  refine ⟨?_, fun f d i hm => (kf f d i hm).trans (hf f d i hm)⟩
  rw [ks, hs]

theorem SameButEvents.mono {l m : List Reg} {s t : State} (h : SameButEvents l s t) (hm : ∀ r ∈ l, r ∈ m) :
    SameButEvents m s t := SameBut.mono h hm

theorem SameButEvents.raise (l : List Reg) (s : State) (r b a0 a1 : Nat) (far : Option Nat) :
    SameButEvents l s (s.raise r b a0 a1 far) := by
  unfold SameButEvents State.raise
  rw [raiseAs_def]
  exact SameBut.refl ..

/-! ### One field of a written word -/

/-- What a field holds after its part of a written word. -/
def State.fieldAfter (s : State) (d : Die) (val : Nat) (e : Fld × Nat × Nat) : Nat :=
  let old := s.rd e.1 d e.2.1
  match e.1.row.acc with
  | .rw => if ownEffect e.1 then old else fieldIn e val
  | .w1c => (old - Nat.land old (fieldIn e val)) % 2 ^ e.1.row.width
  | .lk => if s.locked e.1 then old else fieldIn e val
  | .wo => if e.1 = .tallySetSfLo then fieldIn e val else old
  | .ro | .sh => old

theorem fieldIn_mod (e : Fld × Nat × Nat) (val : Nat) : fieldIn e val % 2 ^ e.1.row.width = fieldIn e val :=
  Nat.mod_mod ..

/-- A field's part of a write: its own register takes its new value, a locked one may raise an event. -/
theorem State.storeField_cases (s : State) (d : Die) (off val : Nat) (e : Fld × Nat × Nat) :
    s.storeField d off val e = s ∧ s.fieldAfter d val e = s.rd e.1 d e.2.1 ∨
      (∃ v, s.storeField d off val e = s.wr e.1 d e.2.1 v ∧ s.fieldAfter d val e = v % 2 ^ e.1.row.width) ∨
      e.1.row.acc = .lk ∧ s.fieldAfter d val e = s.rd e.1 d e.2.1 ∧
        s.storeField d off val e = s.raise Reason.lockedWrite (e.1.block d e.2.1) off := by
  unfold State.storeField State.fieldAfter
  dsimp only
  cases hacc : e.1.row.acc with
  | rw =>
    cases ownEffect e.1 with
    | true => exact .inl ⟨rfl, rfl⟩
    | false => exact .inr (.inl ⟨_, rfl, (fieldIn_mod e val).symm⟩)
  | w1c => exact .inr (.inl ⟨_, rfl, rfl⟩)
  | lk =>
    cases s.locked e.1 with
    | false => exact .inr (.inl ⟨_, rfl, (fieldIn_mod e val).symm⟩)
    | true =>
      by_cases hv : fieldIn e val = s.rd e.1 d e.2.1
      · exact .inl ⟨if_pos hv, rfl⟩
      · exact .inr (.inr ⟨rfl, rfl, if_neg hv⟩)
  | wo =>
    by_cases hf : e.1 = .tallySetSfLo
    · exact .inr (.inl ⟨_, if_pos hf, by rw [if_pos hf, fieldIn_mod]⟩)
    · exact .inl ⟨if_neg hf, if_neg hf⟩
  | ro => exact .inl ⟨rfl, rfl⟩
  | sh => exact .inl ⟨rfl, rfl⟩

section

variable {s : State} {d : Die} {off val : Nat} {e : Fld × Nat × Nat} {fs : List (Fld × Nat × Nat)}

theorem State.rd_storeField_same : (s.storeField d off val e).rd e.1 d e.2.1 = s.fieldAfter d val e := by
  obtain ⟨h, ha⟩ | ⟨v, h, ha⟩ | ⟨-, ha, h⟩ := s.storeField_cases d off val e
  · rw [h, ha]
  · rw [h, ha, rd_wr_same]
  · rw [h, ha, rd_raise]

theorem State.storeField_frame : SameButEvents [(e.1, d, e.2.1)] s (s.storeField d off val e) := by
  obtain ⟨h, -⟩ | ⟨v, h, -⟩ | ⟨-, -, h⟩ := s.storeField_cases d off val e
  · rw [h]
    exact SameBut.refl ..
  · rw [h]
    exact (SameBut.refl _ s).wr _ _ _ _ (List.mem_singleton_self _)
  · rw [h]
    exact SameButEvents.raise ..

theorem State.rd_storeField_ne {f : Fld} {i : Nat} (h : ¬ (e.1 = f ∧ e.2.1 = i)) :
    (s.storeField d off val e).rd f d i = s.rd f d i := by
  refine storeField_frame.rd fun hm => h ?_
  have he := List.mem_singleton.mp hm
  simp only [Prod.mk.injEq] at he
  exact ⟨he.1.symm, he.2.2.symm⟩

theorem State.storeField_of_staged (h : e.1.row.acc = .sh ∨ e.1.row.acc = .ro) : s.storeField d off val e = s := by
  rcases h with h | h <;> simp only [State.storeField, h]

/-- The lock mask is read-only, so a write moves no lock. -/
theorem State.locked_storeField (f : Fld) : (s.storeField d off val e).locked f = s.locked f := by
  have hr : (s.storeField d off val e).rd .lkLocked = s.rd .lkLocked := by
    by_cases h : (e.1, d, e.2.1) = (Fld.lkLocked, Die.m0, 0)
    · obtain ⟨f, i, b⟩ := e
      simp only [Prod.mk.injEq] at h
      obtain ⟨rfl, rfl, rfl⟩ := h
      rw [storeField_of_staged (.inr (show Fld.lkLocked.row.acc = .ro by decide))]
    · exact storeField_frame.rd fun hm => h (List.mem_singleton.mp hm).symm
  rw [State.locked, hr, State.locked]

theorem State.events_storeField (h : e.1.row.acc ≠ .lk) : (s.storeField d off val e).events = s.events := by
  obtain ⟨hs, -⟩ | ⟨v, hs, -⟩ | ⟨hl, -⟩ := s.storeField_cases d off val e
  · rw [hs]
  · rw [hs, wr_events]
  · exact absurd hl h

theorem State.Announces.storeField {r : Nat} (h : s.Announces r) : (s.storeField d off val e).Announces r := by
  obtain ⟨hs, -⟩ | ⟨v, hs, -⟩ | ⟨-, -, hs⟩ := s.storeField_cases d off val e
  · rwa [hs]
  · rw [hs]
    exact h
  · rw [hs]
    exact h.raise ..

theorem State.storeField_announces (ha : e.1.row.acc = .lk) (hl : s.locked e.1 = true)
    (hv : fieldIn e val ≠ s.rd e.1 d e.2.1) : (s.storeField d off val e).Announces Reason.lockedWrite := by
  have h : s.storeField d off val e = s.raise Reason.lockedWrite (e.1.block d e.2.1) off := by
    simp [State.storeField, ha, hl, hv]
  rw [h]
  exact announces_raise ..

/-! ### The fields of a written word -/

/-- The state after the stored fields of a word. -/
def State.storeFields (s : State) (d : Die) (off val : Nat) (fs : List (Fld × Nat × Nat)) : State :=
  fs.foldl (fun s e => s.storeField d off val e) s

theorem State.storeFields_cons :
    s.storeFields d off val (e :: fs) = (s.storeField d off val e).storeFields d off val fs := rfl

theorem State.storeFields_frame :
    SameButEvents (fs.map fun e => (e.1, d, e.2.1)) s (s.storeFields d off val fs) := by
  induction fs generalizing s with
  | nil => exact SameBut.refl ..
  | cons e fs ih =>
    exact (storeField_frame.mono (by simp)).trans (ih.mono fun r hr => List.mem_cons_of_mem _ hr)

/-- Each field of a word takes the value that its own old one and the lock give it: no other field's part reaches it. -/
theorem State.rd_storeFields (hn : (fs.map fun e => (e.1, e.2.1)).Nodup) (he : e ∈ fs) :
    (s.storeFields d off val fs).rd e.1 d e.2.1 = s.fieldAfter d val e := by
  induction fs generalizing s with
  | nil => exact absurd he List.not_mem_nil
  | cons x fs ih =>
    obtain ⟨hx, hn⟩ := List.nodup_cons.mp hn
    rw [storeFields_cons]
    rcases List.mem_cons.mp he with rfl | he
    · rw [storeFields_frame.rd, ← rd_storeField_same (off := off)]
      · rfl
      · intro hm
        obtain ⟨y, hy, hyx⟩ := List.mem_map.mp hm
        simp only [Prod.mk.injEq] at hyx
        exact hx (List.mem_map.mpr ⟨y, hy, Prod.ext hyx.1 hyx.2.2⟩)
    · have hne : ¬ (x.1 = e.1 ∧ x.2.1 = e.2.1) := fun h => hx (List.mem_map.mpr ⟨e, he, Prod.ext h.1.symm h.2.symm⟩)
      rw [ih hn he, State.fieldAfter, State.fieldAfter, rd_storeField_ne hne, locked_storeField]

theorem State.events_storeFields (h : ∀ e ∈ fs, e.1.row.acc ≠ .lk) : (s.storeFields d off val fs).events = s.events := by
  induction fs generalizing s with
  | nil => rfl
  | cons e fs ih =>
    rw [storeFields_cons, ih fun x hx => h x (List.mem_cons_of_mem _ hx), events_storeField (h e List.mem_cons_self)]

theorem State.Announces.storeFields {r : Nat} (h : s.Announces r) : (s.storeFields d off val fs).Announces r := by
  induction fs generalizing s with
  | nil => exact h
  | cons e fs ih => exact ih h.storeField

theorem State.storeFields_announces (hn : (fs.map fun e => (e.1, e.2.1)).Nodup) (he : e ∈ fs) (ha : e.1.row.acc = .lk)
    (hl : s.locked e.1 = true) (hv : fieldIn e val ≠ s.rd e.1 d e.2.1) :
    (s.storeFields d off val fs).Announces Reason.lockedWrite := by
  induction fs generalizing s with
  | nil => exact absurd he List.not_mem_nil
  | cons x fs ih =>
    obtain ⟨hx, hn⟩ := List.nodup_cons.mp hn
    rw [storeFields_cons]
    rcases List.mem_cons.mp he with rfl | he
    · exact (storeField_announces ha hl hv).storeFields
    · have hne : ¬ (x.1 = e.1 ∧ x.2.1 = e.2.1) := fun h => hx (List.mem_map.mpr ⟨e, he, Prod.ext h.1.symm h.2.symm⟩)
      exact ih hn he (by rwa [locked_storeField]) (by rwa [rd_storeField_ne hne])

theorem State.storeFields_of_staged (h : ∀ e ∈ fs, e.1.row.acc = .sh ∨ e.1.row.acc = .ro) :
    s.storeFields d off val fs = s := by
  induction fs with
  | nil => rfl
  | cons e fs ih =>
    rw [storeFields_cons, storeField_of_staged (h e List.mem_cons_self)]
    exact ih fun x hx => h x (List.mem_cons_of_mem _ hx)

/-! ### Words whose write brings nothing else about -/

/-- The fields whose write is followed by an effect of their own (`State.written`). -/
def writtenFields : List Fld := [.dacOeTxdisForce, .loopMode, .biasCode, .loopPushpull, .oduApsPersist, .oduTimAct, .laneChkEn,
  .pairSelForce, .hostAdminEn, .cselLane, .auxRefEn, .tagSeed]

/-- The fields for which a word may be refused (`State.wordRefused`). -/
def refusingFields : List Fld := [.lrxEntH, .biasCode, .laneGenEn, .laneChkEn]

theorem State.written_eq_self {old : State} (h : e.1 ∉ writtenFields) : s.written old d val e = s := by
  unfold State.written
  dsimp only
  split
  case h_13 => rfl
  all_goals
    next hf =>
      rw [hf] at h
      exact absurd (by decide) h

theorem State.trigger_eq_self (h : e.1.row.acc ≠ .wo) : s.trigger d val e = s := by
  unfold State.trigger
  extract_lets i v m c o l whenOne
  split
  case h_25 => rfl
  all_goals
    next hf =>
      rw [hf] at h
      exact absurd rfl h

theorem State.wordRefused_eq_none (h : ∀ e ∈ fs, e.1 ∉ refusingFields) : s.wordRefused d val fs = none := by
  refine List.findSome?_eq_none_iff.mpr fun e he => ?_
  have hr := h e he
  dsimp only
  split
  case h_5 => rfl
  all_goals
    next hf =>
      rw [hf] at hr
      exact absurd (by decide) hr

theorem foldl_eq_self {α β : Type} {f : α → β → α} {a : α} {l : List β} (h : ∀ b ∈ l, f a b = a) : l.foldl f a = a := by
  induction l with
  | nil => rfl
  | cons b l ih => rw [List.foldl_cons, h b List.mem_cons_self, ih fun x hx => h x (List.mem_cons_of_mem _ hx)]

/-- A word without a field that refuses it, brings something about or is a trigger: its fields are stored, then staged. -/
theorem State.writeFields_quiet {w : Window} (ht : timingWord fs = false) (hr : s.wordRefused w.store val fs = none)
    (hw : ∀ e ∈ fs, e.1 ∉ writtenFields) (hg : ∀ e ∈ fs, e.1.row.acc ≠ .wo) :
    s.writeFields w off val fs =
      if fs.any fun e => e.1.row.acc = .sh then (s.storeFields w.store off val fs).shWrite w off val
      else s.storeFields w.store off val fs := by
  unfold State.writeFields
  simp only [ht, hr, Bool.false_eq_true, and_false, if_false]
  rw [foldl_eq_self fun e he => trigger_eq_self (hg e he), foldl_eq_self fun e he => written_eq_self (hw e he)]
  rfl

theorem State.writeFields_stored {w : Window} (ht : timingWord fs = false) (hr : s.wordRefused w.store val fs = none)
    (hw : ∀ e ∈ fs, e.1 ∉ writtenFields) (hg : ∀ e ∈ fs, e.1.row.acc ≠ .wo) (hs : ∀ e ∈ fs, e.1.row.acc ≠ .sh) :
    s.writeFields w off val fs = s.storeFields w.store off val fs := by
  rw [writeFields_quiet ht hr hw hg, if_neg]
  simpa using hs

theorem acc_of_mem_writtenFields : ∀ f ∈ writtenFields, f.row.acc = .rw := by decide

theorem acc_of_mem_refusingFields : ∀ f ∈ refusingFields, f.row.acc = .rw ∨ f.row.acc = .sh := by decide

/-- The RW fields with an effect that the obligation on host writes sets apart. -/
def effectFields : List Fld := [.dacOeTxdisForce, .loopMode, .loopPushpull, .oduApsPersist, .oduTimAct, .laneChkEn, .laneGenEn,
  .pairSelForce, .auxRefEn, .tagSeed, .biasCode]

theorem ownEffect_or_mem_effectFields : ∀ f ∈ writtenFields, ownEffect f = true ∨ f ∈ effectFields := by decide

theorem sh_or_mem_effectFields : ∀ f ∈ refusingFields, f.row.acc = .sh ∨ f ∈ effectFields := by decide

theorem not_mem_writtenFields_of_quiet {f : Fld} (ho : ownEffect f = false) (h : f ∉ effectFields) : f ∉ writtenFields :=
  fun hm => (ownEffect_or_mem_effectFields f hm).elim (fun h' => Bool.false_ne_true (ho.symm.trans h')) h

theorem not_mem_refusingFields_of_quiet {f : Fld} (ha : f.row.acc = .rw) (h : f ∉ effectFields) : f ∉ refusingFields :=
  fun hm => (sh_or_mem_effectFields f hm).elim (fun h' => by rw [ha] at h'; cases h') h

theorem timingWord_eq_false (h : ∀ e ∈ fs, e.1.row.blk ∉ [Blk.tim, .pps, .clk, .cand, .csel]) : timingWord fs = false := by
  simpa [timingWord] using h

theorem not_mem_writtenFields {f : Fld} (h : f.row.acc ≠ .rw) : f ∉ writtenFields :=
  fun hm => h (acc_of_mem_writtenFields f hm)

/-! ### Staged words -/

/-- A field's part of a staged word. -/
def State.stageField (s : State) (d : Die) (val : Nat) (e : Fld × Nat × Nat) : State :=
  if stagedField e.1 then s.wrOff e.1 d e.2.1 (val / 2 ^ e.2.2) else s

/-- The fields of a word staged, as far as they are staged fields. -/
def State.stageFields (s : State) (d : Die) (val : Nat) (fs : List (Fld × Nat × Nat)) : State :=
  fs.foldl (fun s e => s.stageField d val e) s

theorem State.stageFields_cons : s.stageFields d val (e :: fs) = (s.stageField d val e).stageFields d val fs := rfl

theorem State.stageField_offs : ∃ o, s.stageField d val e = { s with offs := o } := by
  unfold State.stageField
  split
  · exact ⟨_, rfl⟩
  · exact ⟨s.offs, rfl⟩

theorem State.stageFields_offs : ∃ o, s.stageFields d val fs = { s with offs := o } := by
  induction fs generalizing s with
  | nil => exact ⟨s.offs, rfl⟩
  | cons e fs ih =>
    obtain ⟨o, ho⟩ := stageField_offs (s := s) (d := d) (val := val) (e := e)
    obtain ⟨o', ho'⟩ := ih (s := s.stageField d val e)
    exact ⟨o', by rw [stageFields_cons, ho', ho]⟩

theorem State.rdOff_stageField_ne {f : Fld} {i : Nat} (h : (f, i) ≠ (e.1, e.2.1)) :
    (s.stageField d val e).rdOff f d i = s.rdOff f d i := by
  unfold State.stageField
  split
  · rw [rdOff_wrOff, if_neg fun hk => h (Prod.ext hk.1.symm hk.2.2.symm)]
  · rfl

theorem State.rdOff_stageField_same (hs : stagedField e.1 = true) :
    (s.stageField d val e).rdOff e.1 d e.2.1 = fieldIn e val := by
  rw [State.stageField, if_pos hs, rdOff_wrOff, if_pos ⟨rfl, rfl, rfl⟩, fieldIn]

theorem State.rdOff_stageFields_ne {f : Fld} {i : Nat} (h : (f, i) ∉ fs.map fun e => (e.1, e.2.1)) :
    (s.stageFields d val fs).rdOff f d i = s.rdOff f d i := by
  induction fs generalizing s with
  | nil => rfl
  | cons e fs ih =>
    obtain ⟨he, hfs⟩ := not_or.mp (List.mem_cons.not.mp h)
    rw [stageFields_cons, ih hfs, rdOff_stageField_ne he]

theorem State.rdOff_stageFields (hn : (fs.map fun e => (e.1, e.2.1)).Nodup) (he : e ∈ fs) (hs : stagedField e.1 = true) :
    (s.stageFields d val fs).rdOff e.1 d e.2.1 = fieldIn e val := by
  induction fs generalizing s with
  | nil => exact absurd he List.not_mem_nil
  | cons x fs ih =>
    obtain ⟨hx, hn⟩ := List.nodup_cons.mp hn
    rw [stageFields_cons]
    rcases List.mem_cons.mp he with rfl | he
    · rw [rdOff_stageFields_ne hx, rdOff_stageField_same hs]
    · exact ih hn he

theorem wordAt_symRateOff : wordAt .pkg symRateOff = [] := by decide +kernel

/-- The offset that stands for the symbol rate holds no register, so a written register word stages its own fields. -/
theorem State.stageWord_of_mem {w : Window} (he : e ∈ wordAt w off) :
    s.stageWord w off val = s.stageFields w.store val (wordAt w off) := by
  refine if_neg fun h => ?_
  obtain ⟨rfl, rfl⟩ := h
  rw [wordAt_symRateOff] at he
  exact List.not_mem_nil he

theorem State.shWrite_unfrozen {w : Window} (h : s.on .viewFrozen w.store = false) :
    s.shWrite w off val = s.stageWord w off val := by
  simp [State.shWrite, h]

/-! ### REGISTER_WRITE by its target -/

/-- The registers that hold a word's fields. -/
abbrev wordRegs (d : Die) (fs : List (Fld × Nat × Nat)) : List Reg := fs.map fun e => (e.1, d, e.2.1)

theorem exec_registerWrite_partial {a : BitVec 26} {data : List Byte} (h : a.toNat % 4 ≠ 0 ∨ data.length < 4) :
    exec (.registerWrite (.bar0 a) data) s = .next (s.inc .accPartialWrites .m0) :=
  congrArg Host.Outcome.next (if_pos h)

theorem exec_registerWrite_word {a : BitVec 26} (b0 b1 b2 b3 : Byte) (h : a.toNat % 4 = 0) :
    exec (.registerWrite (.bar0 a) [b0, b1, b2, b3]) s = .next (s.regWord a.toNat (leNat [b0, b1, b2, b3])) := by
  refine congrArg Host.Outcome.next (if_neg ?_)
  simp [h]

theorem State.regWord_word {a : Nat} {w : Window} (h : s.access a = .word w fs) :
    s.regWord a val = s.writeFields w (a % 0x400000) val fs := by
  simp only [State.regWord, h]

/-- A word of RW fields without effects: each takes its bits. -/
theorem State.writeFields_rw {w : Window} (hn : (fs.map fun e => (e.1, e.2.1)).Nodup)
    (hq : ∀ e ∈ fs, e.1.row.acc = .rw ∧ ownEffect e.1 = false ∧ e.1.row.blk ∉ [Blk.tim, .pps, .clk, .cand, .csel] ∧
      e.1 ∉ effectFields) :
    (∀ e ∈ fs, (s.writeFields w off val fs).rd e.1 w.store e.2.1 = fieldIn e val) ∧
      SameBut (wordRegs w.store fs) s (s.writeFields w off val fs) := by
  have ht : timingWord fs = false := timingWord_eq_false fun e he => have ⟨_, _, hblk, _⟩ := hq e he; hblk
  have hw : ∀ e ∈ fs, e.1 ∉ writtenFields := fun e he =>
    have ⟨_, hown, _, hf⟩ := hq e he; not_mem_writtenFields_of_quiet hown hf
  have hr : ∀ e ∈ fs, e.1 ∉ refusingFields := fun e he =>
    have ⟨hacc, _, _, hf⟩ := hq e he; not_mem_refusingFields_of_quiet hacc hf
  have hne (c : Acc) (hc : Acc.rw ≠ c) : ∀ e ∈ fs, e.1.row.acc ≠ c := fun e he h => hc ((hq e he).1 ▸ h)
  rw [writeFields_stored ht (wordRefused_eq_none hr) hw (hne .wo (by decide)) (hne .sh (by decide))]
  refine ⟨fun e he => ?_, ?_⟩
  · obtain ⟨hacc, hown, -⟩ := hq e he
    rw [rd_storeFields hn he]
    simp [State.fieldAfter, hacc, hown]
  · have hf : SameButEvents (wordRegs w.store fs) s (s.storeFields w.store off val fs) := storeFields_frame
    unfold SameButEvents at hf
    rwa [events_storeFields (hne .lk (by decide))] at hf

/-- A word of SH fields of an unfrozen die: each takes its bits off-shift. -/
theorem State.writeFields_sh {w : Window} (hn : (fs.map fun e => (e.1, e.2.1)).Nodup) (hf : fs = wordAt w off)
    (ha : ∀ e ∈ fs, e.1.row.acc = .sh ∨ e.1.row.acc = .ro) (ht : timingWord fs = false)
    (hz : s.on .viewFrozen w.store = false) (hr : s.wordRefused w.store val fs = none) :
    (∃ o, s.writeFields w off val fs = { s with offs := o }) ∧
      ∀ e ∈ fs, e.1.row.acc = .sh → (s.writeFields w off val fs).rdOff e.1 w.store e.2.1 = fieldIn e val := by
  have hne (c : Acc) (hs : Acc.sh ≠ c) (hr : Acc.ro ≠ c) : ∀ e ∈ fs, e.1.row.acc ≠ c := fun e he h =>
    (ha e he).elim (fun h' => hs (h' ▸ h)) (fun h' => hr (h' ▸ h))
  rw [writeFields_quiet ht hr (fun e he => not_mem_writtenFields (hne .rw (by decide) (by decide) e he))
    (hne .wo (by decide) (by decide)), storeFields_of_staged ha]
  split
  next hany =>
    obtain ⟨x, hx, -⟩ := List.any_eq_true.mp hany
    rw [shWrite_unfrozen hz, stageWord_of_mem (hf ▸ hx), ← hf]
    exact ⟨stageFields_offs, fun e he hs => rdOff_stageFields hn he (by simp [stagedField, hs])⟩
  next hany =>
    refine ⟨⟨s.offs, rfl⟩, fun e he hs => absurd (List.any_eq_true.mpr ⟨e, he, ?_⟩) hany⟩
    exact decide_eq_true hs

/-- A word of RO, W1C and LK fields. -/
theorem State.writeFields_locked {w : Window} (hn : (fs.map fun e => (e.1, e.2.1)).Nodup)
    (ha : ∀ e ∈ fs, e.1.row.acc = .ro ∨ e.1.row.acc = .w1c ∨ e.1.row.acc = .lk) (ht : timingWord fs = false) :
    SameButEvents (wordRegs w.store fs) s (s.writeFields w off val fs) ∧
      (∀ e ∈ fs, (s.writeFields w off val fs).rd e.1 w.store e.2.1 = s.fieldAfter w.store val e) ∧
      ∀ e ∈ fs, e.1.row.acc = .lk → s.locked e.1 = true → fieldIn e val ≠ s.rd e.1 w.store e.2.1 →
        (s.writeFields w off val fs).Announces Reason.lockedWrite := by
  have hne (c : Acc) (hr : Acc.ro ≠ c) (hw : Acc.w1c ≠ c) (hl : Acc.lk ≠ c) : ∀ e ∈ fs, e.1.row.acc ≠ c := fun e he h =>
    (ha e he).elim (fun h' => hr (h' ▸ h)) fun h' => h'.elim (fun h' => hw (h' ▸ h)) (fun h' => hl (h' ▸ h))
  have hrw := hne .rw (by decide) (by decide) (by decide)
  have hsh := hne .sh (by decide) (by decide) (by decide)
  have hrefuse : ∀ e ∈ fs, e.1 ∉ refusingFields := fun e he hm =>
    (acc_of_mem_refusingFields e.1 hm).elim (hrw e he) (hsh e he)
  rw [writeFields_stored ht (wordRefused_eq_none hrefuse) (fun e he => not_mem_writtenFields (hrw e he))
    (hne .wo (by decide) (by decide) (by decide)) hsh]
  exact ⟨storeFields_frame, fun e he => rd_storeFields hn he, fun e he => storeFields_announces hn he⟩

/-- The MSI-X mask bit of a vector set. -/
theorem State.maskVector_set (fn vec : Nat) :
    (fn, vec) ∈ (s.maskVector fn vec true).msixMasked ∧ (s.maskVector fn vec true).msixSent = s.msixSent := by
  simp [State.maskVector]

/-- The MSI-X mask bit of a vector cleared: the message that waits is sent. -/
theorem State.maskVector_clear {fn vec : Nat} (h : s.msixWaiting.contains (fn, vec) = true) :
    (fn, vec) ∉ (s.maskVector fn vec false).msixMasked ∧
      (s.maskVector fn vec false).msixSent = s.msixSent ++ [(fn, vec)] := by
  have hm : (fn, vec) ∈ s.msixWaiting := by simpa using h
  simp [State.maskVector, State.msix, hm]

end

/-- Settles O58: a quiet word is stored field by field, then staged, and no field's part reaches another's. -/
theorem hostWritesByAccessCode : Obligations.HostWritesByAccessCode := by
  refine ⟨fun a data s h => exec_registerWrite_partial h, fun a b0 b1 b2 b3 s h4 => ?_, fun data s h0 h64 => ?_,
    fun data s hz => ?_, fun fn vec data s hv => ⟨fun hb => ?_, fun hb hw => ?_⟩⟩
  · have hrun := exec_registerWrite_word (s := s) b0 b1 b2 b3 h4
    refine ⟨fun h => ?_, fun b h => ?_, fun d h => ?_, fun w fs h htim hn => ?_⟩
    · rw [hrun, State.regWord, h]
    · rw [hrun, State.regWord, h]
    · rw [hrun, State.regWord, h]
    · rw [regWord_word h] at hrun
      refine ⟨fun hq => ⟨_, hrun, ?_⟩, fun ha ht hz hr => ⟨_, hrun, ?_⟩, fun ha ht => ⟨_, hrun, ?_⟩⟩
      · exact writeFields_rw hn hq
      · obtain ⟨⟨o, ho⟩, hrd⟩ := writeFields_sh hn (access_word h) ha ht hz hr
        exact ⟨by rw [ho], hrd⟩
      · obtain ⟨hf, hrd, hev⟩ := writeFields_locked hn ha ht
        refine ⟨hf, fun e he => ⟨fun hro => ?_, fun hc hlt => ?_, fun hl hu => ?_, fun hl hk => ⟨?_, hev e he hl hk⟩⟩⟩
        · rw [hrd e he]
          simp only [State.fieldAfter, hro]
        · rw [hrd e he]
          simp only [State.fieldAfter, hc]
          exact Nat.mod_eq_of_lt (lt_of_le_of_lt (Nat.sub_le _ _) hlt)
        · rw [hrd e he]
          simp [State.fieldAfter, hl, hu]
        · rw [hrd e he]
          simp [State.fieldAfter, hl, hk]
  · refine ⟨s.wrP .numVfs (leNat data), congrArg Host.Outcome.next (if_pos ⟨h0, h64⟩), ?_,
      (SameBut.refl _ s).wr _ _ _ _ (List.mem_singleton_self _)⟩
    exact (rd_wr_same ..).trans (Nat.mod_eq_of_lt (lt_of_le_of_lt h64 (by decide)))
  · refine ⟨s.wrOff .symRate .m0 0 (leNat data), ?_, ?_, rfl⟩
    · exact congrArg Host.Outcome.next ((shWrite_unfrozen hz).trans (if_pos ⟨rfl, rfl⟩))
    · rw [rdOff_wrOff, if_pos ⟨rfl, rfl, rfl⟩]
      rfl
  · refine ⟨s.maskVector fn vec true, ?_, maskVector_set ..⟩
    exact congrArg Host.Outcome.next ((if_pos hv).trans (by rw [hb]))
  · refine ⟨s.maskVector fn vec false, ?_, maskVector_clear hw⟩
    exact congrArg Host.Outcome.next ((if_pos hv).trans (by rw [hb]))

end Sys2Proof.Machine

/-! ## What an operation keeps

Most commands end by bringing up to date what follows from the state: gates, shown levels, failed slices, members of groups. `Settled`
says that such an update has run: the fields outside `derivedFields` read as before and the parts that `State.blank` leaves are the
same. Each operation that only does this has one lemma, under its own name, in the order of the model's files. -/

namespace Sys2Proof.Machine

set_option Elab.async false

open State

/-- The state without its registers and pending events. -/
def State.bare (s : State) : State := { s with regs := [], events := [] }

/-- From `s` to `t` the fields that pass `K` read as before on every die and index, the part `g` of the rest of the state is the
same, and a package that holds no key gets none. -/
structure Keeps {α : Type} (K : Fld → Prop) (g : State → α) (s t : State) : Prop where
  rd : ∀ f, K f → ∀ d i, t.rd f d i = s.rd f d i
  part : g t.bare = g s.bare
  noKeys : s.keys = [] → t.keys = []

section

variable {α β : Type} {K L : Fld → Prop} {g : State → α} {s₀ s t u : State}

/-! ### Chains of operations -/

theorem Keeps.refl : Keeps K g s s := ⟨fun _ _ _ _ => rfl, rfl, id⟩

theorem Keeps.trans (h : Keeps K g s t) (k : Keeps K g t u) : Keeps K g s u :=
  ⟨fun f hf d i => (k.rd f hf d i).trans (h.rd f hf d i), k.part.trans h.part, fun e => k.noKeys (h.noKeys e)⟩

theorem Keeps.weaken {k : State → β} (h : Keeps K g s t) (hK : ∀ f, L f → K f)
    (hg : g t.bare = g s.bare → k t.bare = k s.bare) : Keeps L k s t :=
  ⟨fun f hf => h.rd f (hK f hf), hg h.part, h.noKeys⟩

theorem Keeps.on (h : Keeps K g s t) {f : Fld} (hf : K f) (d : Die) (i : Nat) : t.on f d i = s.on f d i := by
  rw [State.on, h.rd f hf, State.on]

/-- A change outside the registers, the keys and the part kept. -/
theorem Keeps.frame (h : Keeps K g s₀ s) (hr : t.regs = s.regs := by rfl) (hg : g t.bare = g s.bare := by rfl)
    (hk : t.keys = s.keys := by rfl) : Keeps K g s₀ t :=
  h.trans ⟨fun f _ d i => by rw [State.rd, hr, State.rd], hg, fun e => hk.trans e⟩

theorem Keeps.wr {f : Fld} {d : Die} {i v : Nat} (h : Keeps K g s₀ s) (hf : ¬ K f := by decide) :
    Keeps K g s₀ (s.wr f d i v) :=
  h.trans ⟨fun _ he d' j => rd_wr_ne s d d' i j v fun hfe => hf (hfe.1 ▸ he), rfl, id⟩

theorem Keeps.wrs {d : Die} {i : Nat} {l : List (Fld × Nat)} (h : Keeps K g s₀ s)
    (hl : ∀ f ∈ l.map Prod.fst, ¬ K f := by simp only [List.map_cons, List.map_nil]; decide) :
    Keeps K g s₀ (s.wrs d i l) := by
  induction l generalizing s with
  | nil => exact h
  | cons p l ih => exact ih (h.wr (hl p.1 (by simp))) fun f hf => hl f (List.mem_cons_of_mem _ hf)

theorem Keeps.zeros {d : Die} {i : Nat} {l : List Fld} (h : Keeps K g s₀ s) (hl : ∀ f ∈ l, ¬ K f := by decide) :
    Keeps K g s₀ (s.zeros d i l) :=
  h.wrs fun f hf => hl f (by simpa using hf)

theorem Keeps.inc {f : Fld} {d : Die} {i k : Nat} (h : Keeps K g s₀ s) (hf : ¬ K f := by decide) :
    Keeps K g s₀ (s.inc f d i k) := h.wr hf

theorem Keeps.bump {f : Fld} {d : Die} {i k : Nat} (h : Keeps K g s₀ s) (hf : ¬ K f := by decide) :
    Keeps K g s₀ (s.bump f d i k) := h.wr hf

theorem Keeps.wrP {f : Fld} {v : Nat} (h : Keeps K g s₀ s) (hf : ¬ K f := by decide) : Keeps K g s₀ (s.wrP f v) := h.wr hf

theorem Keeps.raiseAs {r b : Nat} {fn : Option Nat} {dest a0 a1 : Nat} {far : Option Nat} (h : Keeps K g s₀ s) :
    Keeps K g s₀ (s.raiseAs r b fn dest a0 a1 far) := by
  rw [raiseAs_eq]
  exact h.frame rfl rfl rfl

theorem Keeps.raise {r b a0 a1 : Nat} {far : Option Nat} (h : Keeps K g s₀ s) : Keeps K g s₀ (s.raise r b a0 a1 far) :=
  h.raiseAs

theorem Keeps.raiseField {f : Fld} {d : Die} {i : Nat} {far : Option Nat} (h : Keeps K g s₀ s) :
    Keeps K g s₀ (s.raiseField f d i far) := h.raise

theorem Keeps.count {d : Die} {i k : Nat} (h : Keeps K g s₀ s)
    (hg : ∀ u a, g { u with assay := a } = g u := by intros; rfl) : Keeps K g s₀ (s.count d i k) :=
  h.trans ⟨fun _ _ _ _ => rfl, hg s.bare _, id⟩

theorem Keeps.ite {c : Prop} {i : Decidable c} (hs : Keeps K g s₀ s) (ht : Keeps K g s₀ t) :
    Keeps K g s₀ (if c then s else t) := by
  split
  · exact hs
  · exact ht

theorem Keeps.fst_ite {c : Prop} {i : Decidable c} {a b : State × β} (ha : Keeps K g s₀ a.1) (hb : Keeps K g s₀ b.1) :
    Keeps K g s₀ (if c then a else b).1 := by
  split
  · exact ha
  · exact hb

theorem Keeps.foldl {f : State → β → State} {l : List β} (hf : ∀ u a, Keeps K g s₀ u → Keeps K g s₀ (f u a))
    (h : Keeps K g s₀ s) : Keeps K g s₀ (l.foldl f s) := by
  induction l generalizing s with
  | nil => exact h
  | cons a l ih => exact ih (hf s a h)

theorem Keeps.raiseFns {r b : Nat} {fns : List Nat} {a0 a1 : Nat} {far : Option Nat} (h : Keeps K g s₀ s) :
    Keeps K g s₀ (s.raiseFns r b fns a0 a1 far) := .foldl (fun _ _ hu => hu.raiseAs) h.raise

end

/-! ### What follows from the state -/

/-- The fields that show or hold what follows from the rest of the state. -/
def derivedFields : List Fld :=
  [.dacUp, .dacSent, .dacPart, .spiLow, .txdisDrive, .siteTxdisState, .siteTxdisCause, .calActive, .fgCal, .adcSpareRetired,
    .adcCalHalted, .adcCalUnit, .calSkip, .calDiscarded, .calPaused, .dacPause,
    .pageSlotLoaded, .pageSlotKeyIdx, .viewFrozen, .viewHeldWrites, .reloadDue, .viewStale, .prepareSent, .prepareHeld, .cancelSent,
    .shiftAnswer,
    .laneTrainState, .laneCoef, .laneCoefSts, .xcQuads, .portFlexoBase, .portSquelch, .pairSeq, .pairAgreed, .pairSelLeg,
    .pairSwitches, .apsTxVal, .apsTxOn, .apsRun, .oduSsf, .oduRxRepActive, .oduClientSig, .sliceFail, .xcLinkUp, .xcSofSeen,
    .xcPartnerLost, .xcLinkDowns, .xcStatusOk, .laneBlockLock, .laneDeskewed,
    .nlcXiCurrent, .nlcStepsActive, .nlcActive, .cdcShare, .acqState, .acqStamp, .sigRun, .errLowRun, .errHighRun, .trainRun,
    .trainMiss, .cleanRun, .outlierSeen, .candOn, .candK, .candStart, .acqWarm, .warmUntil,
    .decChainRunning, .decPhaseKnown, .decChainRestarts, .decPhase, .decPhaseConflict, .joinLeft, .chainJoin, .chainWait, .chainPos,
    .poolEnginesInService, .poolDomainsRun,
    .frmShapeLocked, .frmState, .frmShapePhase, .sweepCand, .sweepRun, .huntPos, .huntSince, .farValid, .sliceMfas,
    .lgInService, .lgSkewDefect, .lgWas, .lgRun, .lgResume, .lgMemberExits, .lgIdleSince, .lgSigmaValid, .lgSkew, .lgSigma,
    .lgLastFar, .lgRestart, .lgMuteUntil, .lgRefValid, .lgRefCarrier,
    .keyStagedAt, .pageKeyStaged, .pageKeyTarget, .pageKeyCarrier, .pageKeyMissed, .lrxAnnStaged, .annStagedKey, .annInvalidKey,
    .lrxRetuneMissed, .lrxRetunesMissed, .lrxRetunesDone, .annRun, .cancelRun, .keyAnnRun, .keyCancelRun, .rtLastState,
    .keyLastState, .annKey, .keyAnnKey, .lrxAnnH, .lrxAnnClass, .lrxAnnCode, .lrxAnnM, .lrxAnnTargetLo, .lrxAnnTargetHi,
    .lrxAnnCancelSeen, .lrxEntH, .lrxClass, .lrxCode, .lrxM, .lrxAutoH,
    .memMarchBusy, .binArrayReady, .binRingCtxHome, .fwRunning, .fwSvnRunning, .fwSvnLive, .fwStaged, .fwSwapping,
    .frmDescMismatch, .frmMsgOverflow, .frmTxLevel, .frmMsgAvail, .frmMsgRxData,
    .cryKeyLimitLog2, .repMemId, .repValid, .repSource, .repApplied, .repBank, .repRow, .memRepairPendFull, .memRepairExhausted,
    .auxRefEn, .auxRefSettled]

/-- The state without the parts that follow from the rest: what `Settled` says is the same. -/
def State.blank (s : State) : State :=
  { s with offs := [], freeRegs := [], freeCtr := 0, held := [], commit := none, nlc := [], pilots := [],
           rxLine := [], poolPast := [], keys := [], annTargets := [], groupRef := [], relMsgs := [], assay := [], pmSecs := [],
           rowMap := [], spareRows := [] }

abbrev Underived (f : Fld) : Prop := f ∉ derivedFields

/-- `t` is `s` with what follows from the state brought up to date. -/
abbrev Settled : State → State → Prop := Keeps Underived State.blank

section

variable {K : Fld → Prop} {s₀ s t : State}

/-! What `State.blank` leaves. -/

theorem Keeps.tally (h : Keeps K State.blank s t) : t.tally = s.tally := id (congrArg State.tally h.part :)
theorem Keeps.tallyOn (h : Keeps K State.blank s t) : t.tallyOn = s.tallyOn := id (congrArg State.tallyOn h.part :)
theorem Keeps.rings (h : Keeps K State.blank s t) : t.rings = s.rings := id (congrArg State.rings h.part :)
theorem Keeps.inflight (h : Keeps K State.blank s t) : t.inflight = s.inflight := id (congrArg State.inflight h.part :)
theorem Keeps.msgRx (h : Keeps K State.blank s t) : t.msgRx = s.msgRx := id (congrArg State.msgRx h.part :)
theorem Keeps.memory (h : Keeps K State.blank s t) : t.memory = s.memory := id (congrArg State.memory h.part :)
theorem Keeps.resets (h : Keeps K State.blank s t) : t.resets = s.resets := id (congrArg State.resets h.part :)
theorem Keeps.heldResets (h : Keeps K State.blank s t) : t.heldResets = s.heldResets := id (congrArg State.heldResets h.part :)
theorem Keeps.bootImage (h : Keeps K State.blank s t) : t.bootImage = s.bootImage := id (congrArg State.bootImage h.part :)

/-- A change of what follows from the state and is no register. -/
theorem Keeps.record
    {offs freeRegs events freeCtr held commit nlc pilots rxLine poolPast annTargets groupRef relMsgs assay pmSecs rowMap spareRows}
    (h : Keeps K State.blank s₀ s) :
    Keeps K State.blank s₀
      { s with
        offs := offs, freeRegs := freeRegs, events := events, freeCtr := freeCtr, held := held, commit := commit, nlc := nlc,
        pilots := pilots, rxLine := rxLine, poolPast := poolPast, annTargets := annTargets, groupRef := groupRef,
        relMsgs := relMsgs, assay := assay, pmSecs := pmSecs, rowMap := rowMap, spareRows := spareRows } :=
  h.frame

theorem Keeps.wrOff {f : Fld} {d : Die} {i v : Nat} (h : Keeps K State.blank s₀ s) : Keeps K State.blank s₀ (s.wrOff f d i v) :=
  h.record
theorem Keeps.wrFree {f : Fld} {d : Die} {i v : Nat} (h : Keeps K State.blank s₀ s) : Keeps K State.blank s₀ (s.wrFree f d i v) :=
  h.record
theorem Keeps.credit {d : Die} {port : Nat} (h : Keeps K State.blank s₀ s) : Keeps K State.blank s₀ (s.credit d port) :=
  h.wrFree.wrFree

theorem Keeps.fresh (h : Keeps K State.blank s₀ s) : Keeps K State.blank s₀ s.fresh.2 := h.record

end

section

variable {s₀ s t : State}

/-! Converters and attach sites. -/

theorem Keeps.dacFollow {d : Die} (h : Settled s₀ s) : Settled s₀ (s.dacFollow d) := .ite h (.ite h.wr h.wrs)

theorem Keeps.txdisUpdate {d : Die} (h : Settled s₀ s) : Settled s₀ (s.txdisUpdate d) :=
  have h₁ := h.dacFollow
  .ite h₁.wrs.wrs h₁.wrs.wr

theorem Keeps.fgBegin {d : Die} (h : Settled s₀ s) : Settled s₀ (s.fgBegin d) :=
  .ite h (.foldl (fun _ _ hu => .ite hu.wr hu.wr.wrs) h.wr)

theorem Keeps.fgEnd {d : Die} (h : Settled s₀ s) : Settled s₀ (s.fgEnd d) :=
  .wrs (.foldl (fun _ _ hu => .ite hu.count hu.count.wrs) h)

/-- A key slot filled from one that holds a key, or emptied. -/
theorem Keeps.setKey {d : Die} {p k : Nat} {key : Option Nat} {idx : Nat} (h : Settled s₀ s)
    (hk : s.keys = [] → key = none) : Settled s₀ (s.setKey d p k key idx) := by
  unfold State.setKey
  refine Keeps.wrs (h.trans ⟨fun _ _ _ _ => rfl, rfl, fun e => ?_⟩)
  rw [hk e, e]
  rfl

theorem Keeps.copySlot {d : Die} {p k a : Nat} (h : Settled s₀ s) : Settled s₀ (s.copySlot d p k a) :=
  h.setKey fun e => by rw [State.key, e]; rfl

theorem Keeps.stageWord {w : Window} {off val : Nat} (h : Settled s₀ s) : Settled s₀ (s.stageWord w off val) :=
  .ite h.wrOff (.foldl (fun _ _ hu => .ite hu.wrOff hu) h)

theorem Keeps.applyHeld {d : Die} (h : Settled s₀ s) : Settled s₀ (s.applyHeld d) :=
  .wr (.wr (.foldl (fun _ _ hu => hu.stageWord) h.record))

theorem Keeps.laneGate {d : Die} {l : Nat} (h : Settled s₀ s) : Settled s₀ (s.laneGate d l) :=
  .ite (.ite h.wr h) (.ite h.wr (.foldl (fun _ _ hu => hu.wrs) h.wr))

theorem Keeps.portsShow {d : Die} (h : Settled s₀ s) : Settled s₀ (s.portsShow d) :=
  .foldl (fun _ _ hu => hu.laneGate) (.foldl (fun _ _ hu => hu.wrs) h.wr)

theorem Keeps.coordChange {d : Die} {p : Nat} (h : Settled s₀ s) : Settled s₀ (s.coordChange d p) := h.bump.wr

theorem Keeps.pairSwitch {d : Die} {p leg : Nat} (h : Settled s₀ s) : Settled s₀ (s.pairSwitch d p leg) :=
  .ite h <|
  have h₁ := h.fresh.wr.inc.wrFree.coordChange
  .ite h₁.wrs h₁

theorem Keeps.pairSelect {d : Die} {p : Nat} (h : Settled s₀ s) : Settled s₀ (s.pairSelect d p) := by
  unfold State.pairSelect
  dsimp only
  split
  · exact h.pairSwitch
  · exact h.pairSwitch
  · exact .ite h.pairSwitch h

theorem Keeps.selectCtx {d : Die} {o : Nat} (h : Settled s₀ s) : Settled s₀ (s.selectCtx d o) :=
  .foldl (fun _ _ hu => hu.pairSelect) h

theorem Keeps.pmWatch (h : Settled s₀ s) : Settled s₀ s.pmWatch := h.record

theorem Keeps.ctxShow {d : Die} {o : Nat} (h : Settled s₀ s) : Settled s₀ (s.ctxShow d o) :=
  .ite h (.selectCtx (.wrs (.ite (.foldl (fun _ _ hu => hu.wr) h) h)))

theorem Keeps.ctxUpdate {f : Nat} {d : Die} {o : Nat} (h : Settled s₀ s) : Settled s₀ (s.ctxUpdate f d o) := by
  induction f generalizing s d o with
  | zero => exact h.ctxShow
  | succ f ih => exact .foldl (fun _ _ hu => ih hu) h.ctxShow

theorem Keeps.sliceShow {ns : List Nat} (h : Settled s₀ s) : Settled s₀ (s.sliceShow ns) :=
  .pmWatch (.foldl (fun _ _ hu => hu.ctxUpdate) (.foldl (fun _ _ hu => .foldl (fun _ _ hv => hv.wr) hu) h))

theorem Keeps.groupShow {n : Nat} (h : Settled s₀ s) : Settled s₀ (s.groupShow n) := h.sliceShow

theorem Keeps.linkEval {d : Die} (h : Settled s₀ s) : Settled s₀ (s.linkEval d) :=
  .ite h <|
  have h₁ := h.wr.raise
  .ite (.foldl (fun _ _ hu => hu.wr) h₁.wr) h₁.inc.wr

theorem Keeps.nlcUpdate {n : Nat} (h : Settled s₀ s) : Settled s₀ (s.nlcUpdate n) := .record (.wrs (.ite h h.wr))

theorem Keeps.acqTo {n st : Nat} (h : Settled s₀ s) : Settled s₀ (s.acqTo n st) :=
  have h₁ := Keeps.ite h.count h
  .zeros (.wrs (.ite h₁ h₁.count))

theorem Keeps.chainStop {n : Nat} (h : Settled s₀ s) : Settled s₀ (s.chainStop n) := h.wrs.record

theorem Keeps.frameOff {n : Nat} (h : Settled s₀ s) : Settled s₀ (s.frameOff n) := .ite h.wr h.wr.wr

theorem Keeps.dropCands {n : Nat} (h : Settled s₀ s) : Settled s₀ (s.dropCands n) := .record (.foldl (fun _ _ hu => hu.wrs) h)

theorem Keeps.trackEnd {n : Nat} (h : Settled s₀ s) : Settled s₀ (s.trackEnd n) := h.nlcUpdate.dropCands.chainStop.frameOff

theorem Keeps.noWarm {n : Nat} (h : Settled s₀ s) : Settled s₀ (s.noWarm n) := h.wrs

theorem Keeps.acqOff {n : Nat} (h : Settled s₀ s) : Settled s₀ (s.acqOff n) := .ite h h.acqTo.noWarm.trackEnd

theorem Keeps.acqGate {n : Nat} (h : Settled s₀ s) : Settled s₀ (s.acqGate n) := .ite (.ite h.acqTo.noWarm h) h.acqOff

theorem Keeps.chainStart {n : Nat} {join : Bool} (h : Settled s₀ s) : Settled s₀ (s.chainStart n join) :=
  have h₁ := h.inc.wrs
  have h₂ := Keeps.ite h₁.wrs.record h₁
  .ite h₂.wrs h₂

theorem Keeps.poolShow {d : Die} (h : Settled s₀ s) : Settled s₀ (s.poolShow d) := h.wrs

theorem Keeps.setMask {f : Fld} {g n : Nat} {v : Bool} (h : Settled s₀ s) (hf : ¬ Underived f := by decide) :
    Settled s₀ (s.setMask f g n v) := h.wr hf

theorem Keeps.setRef {g sf a : Nat} (h : Settled s₀ s) : Settled s₀ (s.setRef g sf a) := .ite h.record.record h.record

theorem Keeps.chooseRef {g : Nat} {n : Option Nat} (h : Settled s₀ s) : Settled s₀ (s.chooseRef g n) := by
  unfold State.chooseRef
  dsimp only
  split
  · exact .wr (.foldl (fun _ _ hu => hu.wr) h.record)
  · exact .wrs (.foldl (fun _ _ hu => hu.wr) h.record)

theorem Keeps.raiseMember {reason g n : Nat} {far : Option Nat} (h : Settled s₀ s) : Settled s₀ (s.raiseMember reason g n far) :=
  h.raise

theorem Keeps.memberOut {g n far : Nat} {skew : Bool} (h : Settled s₀ s) : Settled s₀ (s.memberOut g n far skew) :=
  have h₁ := h.setMask.wrs
  have h₂ := Keeps.raiseMember (.inc (.ite h₁.setMask h₁))
  .groupShow (.ite h₂.wr h₂)

theorem Keeps.memberEnter {g n : Nat} (h : Settled s₀ s) : Settled s₀ (s.memberEnter g n) := h.setMask.wr.groupShow

theorem Keeps.memberLost {n : Nat} (h : Settled s₀ s) : Settled s₀ (s.memberLost n) := by
  unfold State.memberLost
  split
  · exact h
  · exact .wr (.wrs (.ite h.memberOut h))

theorem Keeps.judgeMember {g n far : Nat} {sigma : Int} (h : Settled s₀ s) : Settled s₀ (s.judgeMember g n far sigma) :=
  .ite (.ite h.wrs h.wrs.memberOut) (.ite h.wrs.wrs (.ite h.wrs.wr.memberEnter (.ite h.wrs.wr.wr h.wrs.wr)))

theorem Keeps.memberArrival {n far arr : Nat} (h : Settled s₀ s) : Settled s₀ (s.memberArrival n far arr) := by
  unfold State.memberArrival
  split
  · exact h
  next g _ =>
    extract_lets r s₁ s₂ live ref s₃
    have h₁ : Settled s₀ s₁ := .ite h.wr.chooseRef.wr h
    have h₂ : Settled s₀ s₂ := .ite h₁.chooseRef h₁
    have h₃ : Settled s₀ s₃ := .ite h₂ (.ite h₂.setRef (.ite h₂.setRef h₂))
    refine .ite h₃ ?_
    split
    · exact h₃
    · exact h₃.judgeMember

theorem Keeps.jumpPast {n far : Nat} (h : Settled s₀ s) : Settled s₀ (s.jumpPast n far) := h.record

theorem Keeps.predictFrom {n : Nat} (h : Settled s₀ s) : Settled s₀ (s.predictFrom n) := h.record

theorem Keeps.farClear {n : Nat} (h : Settled s₀ s) : Settled s₀ (s.farClear n) := .ite h.predictFrom.wr.memberLost h

theorem Keeps.stageKeys {n target far : Nat} (h : Settled s₀ s) : Settled s₀ (s.stageKeys n target far) :=
  .foldl (fun _ _ hu => .ite hu (.ite hu.wrs.raiseFns hu.wr.raiseFns)) h.wr

theorem Keeps.dropKeys {n : Nat} (h : Settled s₀ s) : Settled s₀ (s.dropKeys n) := .foldl (fun _ _ hu => hu.wrs) h.wr

theorem Keeps.applyStaging {n : Nat} (h : Settled s₀ s) : Settled s₀ (s.applyStaging n) :=
  .ite h (.foldl (fun _ _ hu => hu.wrOff) h)

theorem Keeps.liftStaging {n : Nat} (h : Settled s₀ s) : Settled s₀ (s.liftStaging n) :=
  .foldl (fun _ _ hu => hu.record) h

theorem Keeps.dropRetune {n : Nat} (h : Settled s₀ s) : Settled s₀ (s.dropRetune n) := .ite h h.liftStaging.wrs

theorem Keeps.raiseFrame {reason n : Nat} {far : Option Nat} (h : Settled s₀ s) : Settled s₀ (s.raiseFrame reason n far) :=
  h.raise

theorem Keeps.stageRetune {n key far : Nat} (h : Settled s₀ s) : Settled s₀ (s.stageRetune n key far) :=
  .ite h (.ite h.wrs.raiseFrame h.wrs.applyStaging.raiseFrame)

theorem Keeps.sight {n : Nat} {oh : BitVec 256} {far : Nat} {follows : Bool} (h : Settled s₀ s) :
    Settled s₀ (s.sight n oh far follows) := by
  unfold State.sight
  extract_lets d c rt ky key target run ar cr kr kc s₁ s₂ s₃ s₄ s₅ s₆
  have h₁ : Settled s₀ s₁ := h.wrs
  have h₂ : Settled s₀ s₂ := .ite h₁ h₁.wrs
  have h₃ : Settled s₀ s₃ := .ite h₂.record h₂
  have h₄ : Settled s₀ s₄ := .ite h₃.stageRetune h₃
  have h₅ : Settled s₀ s₅ := .ite h₄.dropRetune.wr h₄
  have h₆ : Settled s₀ s₆ := .ite h₅.stageKeys h₅
  exact .ite h₆.dropKeys h₆

theorem Keeps.mfasFrom {n mfas : Nat} (h : Settled s₀ s) : Settled s₀ (s.mfasFrom n mfas) :=
  .ite h (.foldl (fun _ _ hu => hu.wr) h)

theorem Keeps.retune {n key far : Nat} (h : Settled s₀ s) : Settled s₀ (s.retune n key far) := by
  unfold State.retune
  extract_lets d c was s₁ s₂ now s₃
  have h₂ : Settled s₀ s₂ :=
    .wrs (.wrs h.liftStaging (by simp only [annFields, List.map_cons, List.map_nil]; decide))
  have h₃ : Settled s₀ s₃ := .ite h₂ h₂.chainStart
  exact h₃.inc.raiseFrame.groupShow

theorem Keeps.targetsReached {n far : Nat} (h : Settled s₀ s) : Settled s₀ (s.targetsReached n far) :=
  have h₁ := Keeps.foldl (fun _ _ hu => .ite hu.retune (.raiseFrame (.inc (.wr (.ite hu.dropRetune hu))))) h.record
  .ite h₁ (.ite h₁.wr h₁.dropKeys)

theorem Keeps.frameDown {n : Nat} (h : Settled s₀ s) : Settled s₀ (s.frameDown n) := .ite h h.farClear.chainStop.wrs.groupShow

theorem Keeps.gates {t : Die} (h : Settled s₀ s) : Settled s₀ (s.gates t) :=
  have h₁ := Keeps.ite h.wr.wrs h.wr
  .ite h₁.txdisUpdate.acqGate.nlcUpdate <|
  .ite
    (have h₂ := Keeps.linkEval (.foldl (fun _ _ hu => .ite hu hu.wrs) h₁.portsShow.pmWatch.poolShow)
     .ite (.foldl (fun _ _ hu => hu.frameDown) h₂) h₂)
    h₁

theorem Keeps.reloadKeys {d : Die} (h : Settled s₀ s) : Settled s₀ (s.reloadKeys d) :=
  .foldl (fun _ _ hu => have h₁ := hu.copySlot; .ite h₁ h₁.copySlot) h

theorem Keeps.reload {d : Die} (h : Settled s₀ s) : Settled s₀ (s.reload d) :=
  have h₁ := h.record
  .wr (.applyHeld (.ite (.foldl (fun _ _ hu => hu.applyStaging) h₁.reloadKeys) h₁))

theorem Keeps.markStale {d : Die} (h : Settled s₀ s) : Settled s₀ (s.markStale d) :=
  have h₁ := h.reload.wrs
  .sliceShow (.gates (.ite h₁ h₁.raise))

theorem Keeps.returnDies {ds : List Die} (h : Settled s₀ s) : Settled s₀ (s.returnDies ds) :=
  .foldl (fun _ _ hu => .ite hu.markStale hu) h

theorem Keeps.clustersRun {t : Die} {doms : List Nat} (h : Settled s₀ s) : Settled s₀ (s.clustersRun t doms) :=
  .foldl (fun _ _ hu => by split; exacts [hu.wr, hu]) h

theorem Keeps.loadSections {t : Die} (h : Settled s₀ s) : Settled s₀ (s.loadSections t) := by
  unfold State.loadSections
  dsimp only
  split
  · exact .ite (.wr (.foldl (fun _ _ hu => by split; exacts [hu.wrs, hu]) h)) <|
    .foldl (fun _ _ hu => by split; exacts [hu.wrs, hu]) h
  · exact .foldl (fun _ _ hu => by split; exacts [hu.wrs, hu]) h

theorem Keeps.takeSpare {x bank k : Nat} (h : Settled s₀ s) : Settled s₀ (s.takeSpare x bank k) := h.record

theorem Keeps.mapRow {x bank row : Nat} (h : Settled s₀ s) (e : s.mapRow x bank row = some t) : Settled s₀ t := by
  obtain ⟨k, -, rfl⟩ := Option.map_eq_some_iff.mp e
  exact h.takeSpare.record

theorem Keeps.repRecord {t : Die} {mem bank row : Nat} {canary applied : Bool} (h : Settled s₀ s) :
    Settled s₀ (s.repRecord t mem bank row canary applied) := by
  unfold State.repRecord
  dsimp only
  split
  · exact h.wrs
  · split
    · exact h.wrs
    · exact h.wr.raise

theorem Keeps.repairRow {t : Die} {f : MarchFail} (h : Settled s₀ s) : Settled s₀ (s.repairRow t f).1 := by
  unfold State.repairRow
  split
  next e => exact (h.mapRow e).repRecord
  · exact h.wr.raise

theorem Keeps.marchRows {t : Die} {repair : Bool} {l : List MarchFail} (h : Settled s₀ s) :
    Settled s₀ (s.marchRows t repair l).1 := by
  induction l generalizing s with
  | nil => exact h
  | cons f l ih => exact .fst_ite (ih h.raise.repairRow) (ih h.raise)

theorem Keeps.badSpares {t : Die} {l : List MarchFail} (h : Settled s₀ s) : Settled s₀ (s.badSpares t l) :=
  .foldl (fun _ _ hu => by split; exacts [.ite hu.takeSpare hu, hu]) h

theorem Keeps.marchLeaves {t : Die} {repair : Bool} {l : List MarchFail} (h : Settled s₀ s) :
    Settled s₀ (s.marchLeaves t repair l).1 :=
  .marchRows (.ite h.badSpares h)

theorem Keeps.repairMap {t : Die} (h : Settled s₀ s) : Settled s₀ (s.repairMap t) := by
  refine .foldl (fun u e hu => .ite hu ?_) (.foldl (fun u r hu => .ite hu ?_) h.record)
  · refine .ite hu.wr ?_
    split
    next e => exact (hu.mapRow e).wr
    · exact hu.wr
  · cases e : u.mapRow (memIx t r.1) r.2.1 r.2.2 with
    | none => exact hu
    | some v => exact hu.mapRow e

end

end Sys2Proof.Machine

/-! ## Counters cleared by a write -/

namespace Sys2Proof.Machine

open State

/-- From `s` to `t` the listed counters of one die and index are set to 0 and nothing else changes. -/
def State.Cleared (s t : State) (d : Die) (i : Nat) (l : List Fld) : Prop :=
  (∀ f ∈ l, t.rd f d i = 0) ∧ SameBut (regsAt d i l) s t

theorem State.cleared_zeros (s : State) (d : Die) (i : Nat) (l : List Fld) : s.Cleared (s.zeros d i l) d i l :=
  ⟨fun f hf => by rw [rd_zeros, if_pos ⟨hf, rfl, rfl⟩],
    (SameBut.refl _ s).zeros d i l fun f hf => mem_regsAt.mpr ⟨hf, rfl, rfl⟩⟩

/-- A write to `clear_all` whose register answers clears its group. -/
theorem State.cleared_writeReg {s : State} {d : Die} {f : Fld} {i : Nat} {w : Window} {fs : List (Fld × Nat × Nat)}
    (h : s.dieAccess d (f.offsetAt i) = .word w fs) (l : List Fld) :
    s.Cleared (s.writeReg d f i fun s => s.zeros d i l) d i l := by
  rw [writeReg_word h]
  exact cleared_zeros ..

/-- Settles O7: each command is a write to its group's `clear_all`, but for REG_ACC_CLR, whose registers always answer. -/
theorem clearAllClearsItsGroupOnly : Obligations.ClearAllClearsItsGroupOnly := by
  refine ⟨fun _ _ _ _ _ h => ⟨_, rfl, cleared_writeReg h _⟩, fun _ _ => ⟨?_, ?_, ?_⟩,
    fun _ _ _ _ _ h => ⟨_, rfl, cleared_writeReg h _⟩, fun s => ?_⟩
  · exact fun _ _ _ h => ⟨_, rfl, cleared_writeReg h _⟩
  · exact fun _ _ _ h => ⟨_, rfl, cleared_writeReg h _⟩
  · exact fun _ _ _ h => ⟨_, rfl, cleared_writeReg h _⟩
  · obtain ⟨hz, hf⟩ := s.cleared_zeros .m0 0 [.accPartialWrites, .accDeadAccesses]
    exact ⟨_, rfl, hz _ (by simp), hz _ (by simp), hf⟩

end Sys2Proof.Machine

/-! ## Descriptors that end -/

namespace Sys2Proof.Machine

open State

section

variable {α : Type} {K : Fld → Prop} {g : State → α} {s₀ s t : State}

/-- An operation that ends leaves flight, whether or not it was in flight. -/
theorem State.finish_inflight (s : State) (op : Nat) (x : Desc) (st : Status) (result : Nat) :
    (s.finish op x st result).inflight = s.inflight.filter fun o => !o.isFor x := by
  cases h : s.inflight.any (·.isFor x) with
  | false =>
    rw [finish_idle op st result h, List.filter_eq_self.mpr]
    simpa using h
  | true => exact (finish_completes op st result h).1

/-- Ending an operation changes what is in flight, outstanding and completed, and counts of operations. -/
theorem Keeps.finish {op : Nat} {x : Desc} {st : Status} {result : Nat} (h : Keeps K g s₀ s)
    (hK : ∀ f ∈ [Fld.hostOpsInFlight, .vfOpsInFlight, .shiftLastStatus], ¬ K f := by decide)
    (hg : ∀ u i r c, g { u with inflight := i, requests := r, compl := c } = g u := by intros; rfl) :
    Keeps K g s₀ (s.finish op x st result) := by
  cases hx : s.inflight.any (·.isFor x) with
  | false => rwa [finish_idle op st result hx]
  | true =>
    obtain ⟨hs, hf⟩ := finish_sameBut op st result hx
    refine h.trans ⟨fun f hKf d i => (hf f d i fun hm => ?_).trans rfl, ?_, fun e => ?_⟩
    · have hmem : f ∈ [Fld.hostOpsInFlight, .vfOpsInFlight, .shiftLastStatus] := by
        simp only [List.mem_cons, Prod.mk.injEq, List.not_mem_nil, or_false] at hm ⊢
        exact hm.imp And.left (.imp And.left And.left)
      exact hK f hmem hKf
    · rw [hs]
      exact hg s.bare _ _ _
    · rw [hs]
      exact e

theorem Keeps.finishOp {o : Op} {st : Status} {result : Nat} (h : Keeps K g s₀ s)
    (hK : ∀ f ∈ [Fld.hostOpsInFlight, .vfOpsInFlight, .shiftLastStatus], ¬ K f := by decide)
    (hg : ∀ u i r c, g { u with inflight := i, requests := r, compl := c } = g u := by intros; rfl) :
    Keeps K g s₀ (s.finishOp o st result) := h.finish hK hg

/-! Requests of a lost target (R34, R36). -/

theorem Keeps.abortTo {p : Die → Nat → Bool} {port : Option (Die × Nat)} (h : Keeps K g s₀ s)
    (hK : ∀ f ∈ [Fld.hostOpsInFlight, .vfOpsInFlight, .shiftLastStatus], ¬ K f := by decide)
    (hp : ¬ K .winzAbortedRequests := by decide)
    (hg : ∀ u i r c, g { u with inflight := i, requests := r, compl := c } = g u := by intros; rfl) :
    Keeps K g s₀ (s.abortTo p port) := by
  refine .foldl (fun _ _ hu => hu.finishOp hK hg) ?_
  split
  · exact h.inc hp
  · exact h

theorem State.mem_inflight_finished {l : List Op} {st : Status} {o : Op}
    (h : o ∈ (l.foldl (fun s o => s.finishOp o st) s).inflight) : o ∈ s.inflight ∧ ∀ x ∈ l, o.isFor x.desc = false := by
  induction l generalizing s with
  | nil => exact ⟨h, by simp⟩
  | cons x l ih =>
    obtain ⟨hm, hl⟩ := ih h
    obtain ⟨hs, hx⟩ := List.mem_filter.mp (finish_inflight s x.opcode x.desc st 0 ▸ hm)
    refine ⟨hs, fun y hy => ?_⟩
    rcases List.mem_cons.mp hy with rfl | hy
    · simpa using hx
    · exact hl y hy

theorem Op.isFor_desc (o : Op) : o.isFor o.desc = true := by simp [Op.isFor]

/-- No operation to a lost target stays in flight. -/
theorem State.mem_inflight_abortTo {p : Die → Nat → Bool} {port : Option (Die × Nat)} {o : Op}
    (h : o ∈ (s.abortTo p port).inflight) : o ∈ s.inflight ∧ (o.targetDie.any fun t => p t o.targetDom) = false := by
  obtain ⟨hm, hl⟩ := mem_inflight_finished h
  have hs : o ∈ s.inflight := by
    split at hm
    · exact hm
    · exact hm
  refine ⟨hs, ?_⟩
  cases hp : o.targetDie.any fun t => p t o.targetDom with
  | false => rfl
  | true => exact absurd (hl o (List.mem_filter.mpr ⟨hs, hp⟩)) (by simp [Op.isFor_desc])

theorem Keeps.dropFromCommit {ds : List Die} (h : Keeps K g s₀ s)
    (hg : ∀ u c, g { u with commit := c } = g u := by intros; rfl) : Keeps K g s₀ (s.dropFromCommit ds) :=
  h.frame rfl (hg s.bare _) rfl

end

end Sys2Proof.Machine

/-! ## Winze links: errors, stale replies, loss and return -/

namespace Sys2Proof.Machine

open State

/-! ### CRC errors of a lane (R32, R33) -/

theorem State.canaryStart_eq (s : State) (d : Die) (kind i : Nat) (stays : Bool) :
    s.canaryStart d kind i stays = { s with canary := (s.canaryStart d kind i stays).canary } := by
  unfold canaryStart
  split
  · rfl
  · rfl

@[simp] theorem State.canaryStart_rd (s : State) (d e : Die) (kind i j : Nat) (stays : Bool) (f : Fld) :
    (s.canaryStart d kind i stays).rd f e j = s.rd f e j := by
  rw [canaryStart_eq]
  rfl

@[simp] theorem State.canaryStart_events (s : State) (d : Die) (kind i : Nat) (stays : Bool) :
    (s.canaryStart d kind i stays).events = s.events := by
  rw [canaryStart_eq]

/-- The canary tests depend on the tests that run alone. -/
theorem State.canary_canaryStart {s t : State} (h : t.canary = s.canary) (d : Die) (kind i : Nat) (stays : Bool) :
    (t.canaryStart d kind i stays).canary = (s.canaryStart d kind i stays).canary := by
  unfold canaryStart
  rw [h]
  split
  · exact h
  · rfl

/-- The errors of a lane within the present SF, with one more. -/
def State.laneRun (s : State) (d : Die) (i : Nat) : Nat :=
  if s.rd .winzLaneSf d i = s.sf then s.rd .winzLaneErrs d i + 1 else 1

/-- An error counted at its port and at its lane. -/
def State.laneError (s : State) (d : Die) (p i : Nat) : State :=
  (s.inc .winzCrcErrors d p).wrs d i [(.winzLaneSf, s.sf), (.winzLaneErrs, min (s.laneRun d i) 255)]

/-- The lane is under a canary test. -/
abbrev State.laneTested (s : State) (d : Die) (i : Nat) : Bool :=
  s.canary.any fun c => c.die == d && c.kind == 5 && c.idx == i

section

variable {s : State} {d : Die} {p lane : Nat}

theorem State.laneError_sameBut (s : State) (d : Die) (p i : Nat) :
    SameBut [(.winzCrcErrors, d, p), (.winzLaneSf, d, i), (.winzLaneErrs, d, i)] s (s.laneError d p i) :=
  ((SameBut.refl _ s).inc _ _ _ _ (by simp)).wrs _ _ _ (by simp)

theorem State.rd_laneError_crcErrors (s : State) (d : Die) (p i : Nat) :
    (s.laneError d p i).rd .winzCrcErrors d p = min (s.rd .winzCrcErrors d p + 1) (2 ^ 32 - 1) := by
  simp [laneError, rd_wr, rd_inc, show Fld.winzCrcErrors.row.width = 32 by decide]

theorem State.laneRun_eq_eight {i : Nat} :
    s.laneRun d i = 8 ↔ s.rd .winzLaneSf d i = s.sf ∧ s.rd .winzLaneErrs d i = 7 := by
  unfold State.laneRun
  split
  · omega
  · omega

/-- What an error on a link that is up leaves: the eighth one of a lane takes a spare, or finds none (R32, R33). -/
def State.laneAnswer (s : State) (d : Die) (p i : Nat) : State :=
  let u := s.laneError d p i
  if s.laneRun d i ≠ 8 || s.laneTested d i then u
  else if 8 ≤ s.rd .winzSparesUsed d p then
    ((u.wr .winzSpareExhausted d p 1).raise Reason.spareExhausted (blkId d d.anchor) 5).canaryStart d 5 i true
  else ((u.bump .winzSparesUsed d p).wr .winzDegraded d p 1).canaryStart d 5 i

theorem exec_winzCrcError_up {p : Fin 4} {lane : Fin 256} (h : s.on .winzLinkUp d p = true) :
    exec (.winzCrcError d p lane) s = .next (s.laneAnswer d p (p.val * 256 + lane)) := by
  show execWinzCrcError d p lane s = _
  have hr (f : Fld) (j : Nat) (hf : Fld.winzCrcErrors ≠ f) : (s.inc .winzCrcErrors d p).rd f d j = s.rd f d j := by
    rw [rd_inc, if_neg fun e => hf e.1]
  have hs : (s.laneError d p (p.val * 256 + lane)).rd .winzSparesUsed d p = s.rd .winzSparesUsed d p :=
    (s.laneError_sameBut ..).rd (by simp)
  unfold execWinzCrcError State.laneAnswer
  simp only [h, Bool.not_true, Bool.false_eq_true, if_false, hr .winzLaneSf _ (by decide), hr .winzLaneErrs _ (by decide)]
  rw [← hs]
  rfl

section

variable {i : Nat}

/-- Any other error, or one on a lane under test, only counts. -/
theorem State.laneAnswer_stays (h : ¬ (s.laneRun d i = 8 ∧ s.laneTested d i = false)) :
    s.laneAnswer d p i = s.laneError d p i := by
  refine if_pos ?_
  simp only [Bool.or_eq_true, decide_eq_true_eq]
  by_cases hr : s.laneRun d i = 8
  · exact .inr (Bool.of_not_eq_false fun ht => h ⟨hr, ht⟩)
  · exact .inl hr

theorem State.laneAnswer_moves (hr : s.laneRun d i = 8) (ht : s.laneTested d i = false) :
    s.laneAnswer d p i = if 8 ≤ s.rd .winzSparesUsed d p then
        (((s.laneError d p i).wr .winzSpareExhausted d p 1).raise Reason.spareExhausted (blkId d d.anchor) 5).canaryStart d 5 i true
      else (((s.laneError d p i).bump .winzSparesUsed d p).wr .winzDegraded d p 1).canaryStart d 5 i := by
  refine if_neg ?_
  simp [hr, ht]

theorem State.laneAnswer_exhausted (hr : s.laneRun d i = 8) (ht : s.laneTested d i = false)
    (hs : 8 ≤ s.rd .winzSparesUsed d p) :
    (s.laneAnswer d p i).on .winzSpareExhausted d p = true ∧
      (s.laneAnswer d p i).events = (s.raise Reason.spareExhausted (blkId d d.anchor) 5).events ∧
        (s.laneAnswer d p i).canary = (s.canaryStart d 5 i true).canary := by
  have hf := (s.laneError_sameBut d p i).1
  rw [laneAnswer_moves hr ht, if_pos hs]
  refine ⟨?_, ?_, canary_canaryStart ?_ ..⟩
  · simp [State.on, show Fld.winzSpareExhausted.row.width = 1 by decide]
  · rw [canaryStart_events, raise_wr, wr_events, hf, State.raise, raiseAs_def, State.raise, raiseAs_def]
  · rw [raise_wr, wr_canary, hf, raise_eq]

theorem State.laneAnswer_spare (hr : s.laneRun d i = 8) (ht : s.laneTested d i = false) (hs : s.rd .winzSparesUsed d p < 8) :
    (s.laneAnswer d p i).rd .winzSparesUsed d p = s.rd .winzSparesUsed d p + 1 ∧
      (s.laneAnswer d p i).on .winzDegraded d p = true ∧ (s.laneAnswer d p i).events = s.events ∧
        (s.laneAnswer d p i).canary = (s.canaryStart d 5 i).canary := by
  have hf := s.laneError_sameBut d p i
  have hu : (s.laneError d p i).rd .winzSparesUsed d p = s.rd .winzSparesUsed d p := hf.rd (by simp)
  rw [laneAnswer_moves hr ht, if_neg (Nat.not_le.mpr hs)]
  refine ⟨?_, ?_, ?_, canary_canaryStart ?_ ..⟩
  · rw [canaryStart_rd, rd_wr, if_neg (by simp), rd_bump, if_pos ⟨rfl, rfl, rfl⟩, hu]
    exact Nat.mod_eq_of_lt (lt_of_lt_of_le (Nat.succ_lt_succ hs) (by decide))
  · simp [State.on, show Fld.winzDegraded.row.width = 1 by decide]
  · rw [canaryStart_events, wr_events, State.bump, wr_events, hf.1]
  · rw [wr_canary, State.bump, wr_canary, hf.1]

theorem State.rd_laneAnswer_crcErrors :
    (s.laneAnswer d p i).rd .winzCrcErrors d p = min (s.rd .winzCrcErrors d p + 1) (2 ^ 32 - 1) := by
  rw [← rd_laneError_crcErrors s d p i]
  unfold State.laneAnswer
  dsimp only
  split
  · rfl
  · split
    · rw [canaryStart_rd, rd_raise, rd_wr, if_neg (by simp)]
    · rw [canaryStart_rd, rd_wr, if_neg (by simp), rd_bump, if_neg (by simp)]

end

end

/-! ### Stale replies (R38) -/

/-- `t` is `s` with one stale reply counted at a port. -/
def State.StaleCounted (s t : State) (d : Die) (p : Nat) : Prop :=
  t.rd .winzStaleReplies d p = min (s.rd .winzStaleReplies d p + 1) (2 ^ 32 - 1) ∧ SameBut [(.winzStaleReplies, d, p)] s t

section

variable {s : State} {d : Die} {p : Fin 4} {inc : Fin 16} {ring slot : Nat}

theorem exec_staleReply_stale (hp : (farPort d p).isSome = true) (hd : s.has d = true)
    (hr : s.replyStale ring slot inc = true) :
    ∃ t, exec (.staleReply d p inc ring slot) s = .next t ∧ s.StaleCounted t d p := by
  refine ⟨s.inc .winzStaleReplies d p, if_pos (by rw [hp, hd, hr]; rfl), ?_, (SameBut.refl _ s).inc _ _ _ _ (by simp)⟩
  simp [rd_inc, show Fld.winzStaleReplies.row.width = 32 by decide]

theorem exec_staleReply_current (hr : s.replyStale ring slot inc = false) :
    exec (.staleReply d p inc ring slot) s = .next s := if_neg (by simp [hr])

theorem State.replyStale_none (h : (s.requests.find? fun r => r.ring == ring && r.slot == slot) = none) (inc : Nat) :
    s.replyStale ring slot inc = true := by
  unfold State.replyStale
  rw [h]

theorem State.replyStale_some {r : Request} (h : (s.requests.find? fun r => r.ring == ring && r.slot == slot) = some r)
    (inc : Nat) : s.replyStale ring slot inc = (inc != r.inc || s.rd .incarnation r.die r.dom != inc) := by
  unfold State.replyStale
  rw [h]

end

/-! ### A link that goes down (R34) -/

/-- What a lost link leaves: which links are up otherwise, the tally, host memory and the dies' memories. -/
abbrev Unlinks : State → State → Prop := Keeps (· = .winzLinkUp) fun s => (s.tally, s.hostMem, s.memory)

theorem exec_linkDown_up {d e : Die} {p : Fin 4} {q : Nat} {s : State} (hp : farPort d p = some (e, q))
    (h : s.on .winzLinkUp d p = true) :
    let u := (((s.wr .winzLinkUp d p 0).wr .winzLinkUp e q 0).raiseField .winzLinkUp d p).raiseField .winzLinkUp e q
    exec (.linkDown d p) s = .next ((u.abortTo (fun t _ => (beyond d p).contains t) (some (nearPort d p))).dropFromCommit
      ((beyond d p).filter fun t => !(u.commit.any fun c => c.go.contains t))) := by
  show execLinkDown d p s = _
  unfold execLinkDown State.linkDrop
  simp [hp, h]

/-- LINK_DOWN on a link that is up. -/
theorem linkDown_unlinks (d : Die) (p : Fin 4) (s : State) (e : Die) (q : Nat) (hp : farPort d p = some (e, q))
    (h : s.on .winzLinkUp d p = true) :
    ∃ t, exec (.linkDown d p) s = .next t ∧ t.rd .winzLinkUp d p = 0 ∧ t.rd .winzLinkUp e q = 0 ∧
      (∀ o ∈ t.inflight, ∀ x, o.targetDie = some x → x ∉ beyond d p) ∧
      t.tally = s.tally ∧ t.hostMem = s.hostMem ∧ t.memory = s.memory := by
  have hexec := exec_linkDown_up hp h
  extract_lets u at hexec
  have hu : Unlinks ((s.wr .winzLinkUp d p 0).wr .winzLinkUp e q 0) u := Keeps.refl.raiseField.raiseField
  have ht : Unlinks _ (State.dropFromCommit _ _) := (hu.abortTo (p := fun t _ => (beyond d p).contains t)
    (port := some (nearPort d p))).dropFromCommit (ds := (beyond d p).filter fun t => !(u.commit.any fun c => c.go.contains t))
  obtain ⟨htally, hhost, hmem⟩ := Prod.ext_iff.mp ht.part |>.imp_right Prod.ext_iff.mp
  refine ⟨_, hexec, ?_, ?_, fun o ho x hx hb => ?_, htally, hhost, hmem⟩
  · rw [ht.rd _ rfl, rd_wr]
    simp
  · rw [ht.rd _ rfl]
    simp
  · obtain ⟨-, hgone⟩ := mem_inflight_abortTo ho
    simp [hx, hb] at hgone

/-! ### A link that returns (R34, R40) -/

/-- What a trained link moves beside what follows from it: its ends, and the incarnations that they announce. -/
abbrev Unlinked (f : Fld) : Prop := f ∉ Fld.winzLinkUp :: .winzPeerIncarnation :: derivedFields

/-- `t` is `s` with links trained, and with what follows from the state brought up to date. -/
abbrev Relinked : State → State → Prop := Keeps Unlinked State.blank

theorem Keeps.relinked {s t u : State} (h : Relinked s t) (k : Settled t u) : Relinked s u :=
  h.trans (k.weaken (fun _ hf hm => hf (List.mem_cons_of_mem _ (List.mem_cons_of_mem _ hm))) id)

theorem Keeps.linkRaise {d : Die} {port : Nat} {s₀ s : State} (h : Relinked s₀ s) : Relinked s₀ (s.linkRaise d port) := by
  unfold State.linkRaise
  split
  next e q _ =>
    extract_lets s₁ s₂
    have h₁ : Relinked s₀ s₁ := h.wrs
    have h₂ : Relinked s₀ s₂ := h₁.wrs
    exact h₂.credit.credit
  · exact h

theorem Keeps.linksUp {t : Die} {s₀ s : State} (h : Relinked s₀ s) : Relinked s₀ (s.linksUp t) :=
  .foldl (fun _ _ hu => .ite (hu.linkRaise.relinked Keeps.refl.returnDies) hu) h

theorem State.linkRaise_on {d e : Die} {p q : Nat} (hp : farPort d p = some (e, q)) (s : State) :
    (s.linkRaise d p).on .winzLinkUp d p = true ∧ (s.linkRaise d p).on .winzLinkUp e q = true := by
  unfold State.linkRaise
  rw [hp]
  simp [State.on, State.credit, rd_wr, show Fld.winzLinkUp.row.width = 1 by decide]

theorem exec_linkRetrainDone {d : Die} {p : Fin 4} {s : State} (h : s.trainable d p = true) :
    exec (.linkRetrainDone d p) s = .next ((s.linkRaise d p).returnDies (beyond d p)) := if_pos h

theorem State.trainable_of {d e : Die} {p q : Nat} {s : State} (hp : farPort d p = some (e, q))
    (h : s.on .winzLinkUp d p = false)
    (hd : ∀ x ∈ [d, e], s.has x = true ∧ s.dieInReset x = false ∧ s.domDead x x.anchor = false ∧ s.on .plannedDown x = false ∧
      s.on .tripped x = false) : s.trainable d p = true := by
  unfold State.trainable
  simp only [hp, h, Bool.not_false, Bool.true_and, List.all_eq_true]
  intro x hx
  obtain ⟨h1, h2, h3, h4, h5⟩ := hd x hx
  simp [h1, h2, h3, h4, h5]

/-- Settles O9: each command answers by the lemma of its own section above. -/
theorem winzeErrorsLinkLossAndReturn : Obligations.WinzeErrorsLinkLossAndReturn := by
  refine ⟨⟨fun d p lane s h => ⟨_, exec_winzCrcError_up h, rd_laneAnswer_crcErrors, fun hm => ?_, fun hm hs => ?_, fun hm hs => ?_⟩,
    fun d p inc ring slot s hp hd => ⟨fun h => ?_, fun r h => ⟨fun hne => ?_, fun hi ht => ?_⟩⟩⟩,
    linkDown_unlinks, fun d p s e q hp h hd => ?_⟩
  · rw [laneAnswer_stays fun ⟨hr, ht⟩ => hm ⟨(laneRun_eq_eight.mp hr).1, (laneRun_eq_eight.mp hr).2, ht⟩]
    exact laneError_sameBut ..
  · obtain ⟨hsf, herrs, ht⟩ := hm
    exact laneAnswer_spare (laneRun_eq_eight.mpr ⟨hsf, herrs⟩) ht hs
  · obtain ⟨hsf, herrs, ht⟩ := hm
    exact laneAnswer_exhausted (laneRun_eq_eight.mpr ⟨hsf, herrs⟩) ht hs
  · exact exec_staleReply_stale hp hd (replyStale_none h _)
  · refine exec_staleReply_stale hp hd ?_
    rw [replyStale_some h]
    simpa using hne
  · refine exec_staleReply_current ?_
    rw [replyStale_some h]
    simp [hi, ht]
  · obtain ⟨hup, hfar⟩ := s.linkRaise_on hp
    have hr : Relinked s (s.linkRaise d p) := Keeps.refl.linkRaise
    have hs : Settled (s.linkRaise d p) ((s.linkRaise d p).returnDies (beyond d p)) := Keeps.refl.returnDies
    refine ⟨_, exec_linkRetrainDone (trainable_of hp h hd), ?_, ?_, ?_, ?_⟩
    · exact (hs.on (f := .winzLinkUp) (by decide) ..).trans hup
    · exact (hs.on (f := .winzLinkUp) (by decide) ..).trans hfar
    · rw [hs.inflight, hr.inflight]
    · rw [hs.tally, hr.tally]

end Sys2Proof.Machine

/-! ## Line frames sent, SF overheads received, far boundaries -/

namespace Sys2Proof.Machine

open State

/-! ### A line frame leaves a carrier (R19, R20, R288) -/

/-- A stream bit takes content and steps the scrambler. -/
theorem streamBit_eq (e : TxSf) (x : Nat) (t : TxLine) :
    ∃ scr content, (streamBit e x t).2 = { t with scr := scr, content := content } := by
  unfold streamBit
  extract_lets p m i g
  by_cases hp : p.2 < 12
  · rw [if_pos hp]
    exact ⟨t.scr, t.content, rfl⟩
  · rw [if_neg hp]
    generalize contentBefore e.rate e.rq e.sf (i + 1) = a
    generalize contentBefore e.rate e.rq e.sf i = b
    by_cases hm : a = b
    · rw [if_pos hm]
      exact ⟨g.1, t.content, rfl⟩
    · rw [if_neg hm]
      exact ⟨g.1, _, rfl⟩

theorem streamTake_eq (e : TxSf) (k x : Nat) (t : TxLine) :
    ∃ scr content, (streamTake e k x t).2 = { t with scr := scr, content := content } := by
  induction k generalizing x t with
  | zero => exact ⟨t.scr, t.content, rfl⟩
  | succ k ih =>
    obtain ⟨scr, content, h⟩ := streamBit_eq e x t
    obtain ⟨scr', content', ih⟩ := ih (x + 1) (streamBit e x t).2
    refine ⟨scr', content', ?_⟩
    rw [streamTake]
    dsimp only
    rw [ih, h]

theorem TxLine.code_eq (t : TxLine) (e : TxSf) (last : Bool) :
    ∃ k x next ampX ampY prev queue outer seg, t.code e last =
      { (streamTake e k x t).2 with
        next := next, ampX := ampX, ampY := ampY, prev := prev, queue := queue, outer := outer, seg := seg } :=
  ⟨_, _, _, _, _, _, _, _, _, rfl⟩

/-- Coding moves the chain on within the line frame it is at. -/
theorem TxLine.code_place (t : TxLine) (e : TxSf) (last : Bool) : (t.code e last).sf = t.sf ∧ (t.code e last).lf = t.lf := by
  obtain ⟨k, x, next, ampX, ampY, prev, queue, outer, seg, h⟩ := t.code_eq e last
  obtain ⟨scr, content, hq⟩ := streamTake_eq e k x t
  rw [h, hq]
  exact ⟨rfl, rfl⟩

theorem TxLine.codeUpTo_place (t : TxLine) (e : TxSf) (stop : Nat) (ends : Bool) (fuel : Nat) :
    (t.codeUpTo e stop ends fuel).sf = t.sf ∧ (t.codeUpTo e stop ends fuel).lf = t.lf := by
  induction fuel generalizing t with
  | zero => exact ⟨rfl, rfl⟩
  | succ fuel ih =>
    unfold codeUpTo
    split
    · obtain ⟨ihs, ihl⟩ := ih (t.code e (ends && t.next == 251))
      obtain ⟨hs, hl⟩ := t.code_place e (ends && t.next == 251)
      exact ⟨ihs.trans hs, ihl.trans hl⟩
    · exact ⟨rfl, rfl⟩

theorem State.lineSent_lfOut (s : State) (n : Nat) (r : LineRate) (t : TxLine) (filled : Bool) (dims : List (Nat × Nat)) :
    ∃ g, Cells.find n (s.lineSent n r t filled dims).lfOut = some g ∧ g.sf = t.sf ∧ g.lf = t.lf ∧ g.filled = filled :=
  ⟨_, by rw [lineSent, Cells.find_put, if_pos rfl], rfl, rfl, rfl⟩

theorem State.rd_lineSent (s : State) (n : Nat) (r : LineRate) (t : TxLine) (filled : Bool) (dims : List (Nat × Nat)) (f : Fld)
    (d : Die) (i : Nat) : (s.lineSent n r t filled dims).rd f d i = s.rd f d i := rfl

theorem State.lineSent_tally (s : State) (n : Nat) (r : LineRate) (t : TxLine) (filled : Bool) (dims : List (Nat × Nat)) :
    (s.lineSent n r t filled dims).tally = s.tally := rfl

theorem State.lineSent_msgTx (s : State) (n : Nat) (r : LineRate) (t : TxLine) (filled : Bool) (dims : List (Nat × Nat)) :
    (s.lineSent n r t filled dims).msgTx = s.msgTx := rfl

theorem Keeps.lineSent {α : Type} {K : Fld → Prop} {g : State → α} {s₀ s : State} {n : Nat} {r : LineRate} {t : TxLine}
    {filled : Bool} {dims : List (Nat × Nat)} (h : Keeps K g s₀ s)
    (hg : ∀ u a b, g { u with txLine := a, lfOut := b } = g u := by intros; rfl) :
    Keeps K g s₀ (s.lineSent n r t filled dims) :=
  h.trans ⟨fun _ _ _ _ => rfl, hg s.bare _ _, id⟩

theorem State.lineBegin_eq (s : State) (n : Nat) (r : LineRate) :
    (s.lineBegin n r).1 = { s with freeCtr := (s.lineBegin n r).1.freeCtr } := by
  unfold lineBegin
  extract_lets t x y block u
  split
  · rfl
  · split
    · rfl
    · rfl

/-! A filled line frame (R20). -/

theorem State.lineFilled_lfOut (s : State) (n : Nat) (r : LineRate) (t : TxLine) :
    ∃ g, Cells.find n (s.lineFilled n r t).lfOut = some g ∧ g.sf = t.sf ∧ g.lf = t.lf ∧ g.filled = true :=
  lineSent_lfOut ..

theorem State.foldl_count (s : State) (d : Die) (k : Nat → Nat) (l : List Nat) :
    ∃ a, l.foldl (fun s i => s.count d (k i)) s = { s with assay := a } := by
  induction l generalizing s with
  | nil => exact ⟨s.assay, rfl⟩
  | cons i l ih => exact ih (s.count d (k i))

theorem State.lineFilled_counts (s : State) (n : Nat) (r : LineRate) (t : TxLine) :
    (s.lineFilled n r t).rd .winzTxUnderrun (faceOf n) = min (s.rd .winzTxUnderrun (faceOf n) + 1) (2 ^ 32 - 1) ∧
      (s.lineFilled n r t).tally = s.tally ∧ (s.lineFilled n r t).msgTx = s.msgTx := by
  unfold lineFilled
  extract_lets f g s₁ s₂ s₃
  obtain ⟨a, h⟩ : ∃ a, s₃ = { s₂ with assay := a } := foldl_count ..
  rw [rd_lineSent, lineSent_tally, lineSent_msgTx, h]
  refine ⟨?_, rfl, rfl⟩
  rw [rd_set_assay, rd_set_ohOut, rd_inc, if_pos ⟨rfl, rfl, rfl⟩, rd_wr_ne _ _ _ _ _ _ (by simp),
    show Fld.winzTxUnderrun.row.width = 32 by decide]

/-! A coded line frame (R209, R288, R293). -/

/-- What a coded line frame leaves. -/
abbrev Coded : State → State → Prop := Keeps (· = .winzTxUnderrun) State.tally

theorem Keeps.annEnds {n : Nat} {s₀ s : State} (h : Coded s₀ s) : Coded s₀ (s.annEnds n) := .ite h.wrs h

theorem Keeps.overheadBegins {n : Nat} {r : LineRate} {t : TxLine} {s₀ s : State} (h : Coded s₀ s) :
    Coded s₀ (s.overheadBegins n r t) := by
  unfold State.overheadBegins
  extract_lets s₁ p o s₂ s₃
  have h₂ : Coded s₀ s₂ := h.annEnds.frame
  have h₃ : Coded s₀ s₃ := .ite h₂.count h₂
  exact h₃.wr.wrs

theorem Keeps.lineCoded {n : Nat} {r : LineRate} {t : TxLine} {s₀ s : State} (h : Coded s₀ s) :
    Coded s₀ (s.lineCoded n r t) := by
  unfold State.lineCoded
  extract_lets s₁ e x w k
  have h₁ : Coded s₀ s₁ := .ite h.overheadBegins h
  exact h₁.lineSent

theorem State.lineCoded_lfOut (s : State) (n : Nat) (r : LineRate) (t : TxLine) :
    ∃ g, Cells.find n (s.lineCoded n r t).lfOut = some g ∧ g.sf = t.sf ∧ g.lf = t.lf ∧ g.filled = false := by
  unfold lineCoded
  extract_lets s₁ e x w k
  obtain ⟨hs, hl⟩ : x.sf = t.sf ∧ x.lf = t.lf := t.codeUpTo_place ..
  clear_value x
  obtain ⟨g, hg, hgs, hgl, hf⟩ := s₁.lineSent_lfOut n r
    { x with frameAt := w.1, omfi := w.2.1, mfas := w.2.2, queue := x.queue.drop k, whole := true } false (x.queue.take k)
  exact ⟨g, hg, hgs.trans hs, hgl.trans hl, hf⟩

theorem State.annEnds_msgTx (s : State) (n : Nat) : (s.annEnds n).msgTx = s.msgTx := by
  unfold annEnds
  extract_lets d c
  split
  · rfl
  · rfl

/-- The SF overhead that goes out with LF 0 takes the oldest message byte. -/
theorem State.overheadBegins_sends (s : State) (n : Nat) (r : LineRate) (t : TxLine) :
    (s.overheadBegins n r t).msgTx = (popFor n s.msgTx).2 ∧
      Cells.find n (s.overheadBegins n r t).ohOut =
        some ((s.annEnds n).overheadOf n (popFor n s.msgTx).1 ((s.annEnds n).otucPtr r t).1 ((s.annEnds n).otucPtr r t).2) := by
  unfold overheadBegins
  rw [← s.annEnds_msgTx n]
  extract_lets a p o s₁ s₂
  have hs : s₂.msgTx = s₁.msgTx ∧ s₂.ohOut = s₁.ohOut := by
    dsimp only [s₂]
    split
    · exact ⟨rfl, rfl⟩
    · exact ⟨rfl, rfl⟩
  obtain ⟨hm, ho⟩ := hs
  exact ⟨hm, (congrArg (Cells.find n) ho).trans (by rw [Cells.find_put, if_pos rfl])⟩

theorem State.lineCoded_begins {s : State} {t : TxLine} (h : t.lf = 0) (n : Nat) (r : LineRate) :
    (s.lineCoded n r t).msgTx = (s.overheadBegins n r t).msgTx ∧ (s.lineCoded n r t).ohOut = (s.overheadBegins n r t).ohOut := by
  unfold lineCoded
  rw [if_pos h]
  exact ⟨rfl, rfl⟩

/-- What leaves a carrier at a line frame: coded where the queue holds it, else filled. -/
theorem State.lineOut_spec (u : State) (n : Nat) (r : LineRate) (y : TxLine) (holds : Bool) {t : State}
    (ht : t = if holds then u.lineCoded n r y else u.lineFilled n r y) :
    (∃ g, Cells.find n t.lfOut = some g ∧ g.sf = y.sf ∧ g.lf = y.lf ∧ g.filled = !holds) ∧ t.tally = u.tally ∧
      (holds = false → t.rd .winzTxUnderrun (faceOf n) = min (u.rd .winzTxUnderrun (faceOf n) + 1) (2 ^ 32 - 1) ∧
        t.msgTx = u.msgTx) ∧
      (holds = true → t.rd .winzTxUnderrun (faceOf n) = u.rd .winzTxUnderrun (faceOf n)) ∧
      (holds = true → y.lf = 0 → t.msgTx = (popFor n u.msgTx).2 ∧
        Cells.find n t.ohOut =
          some ((u.annEnds n).overheadOf n (popFor n u.msgTx).1 ((u.annEnds n).otucPtr r y).1 ((u.annEnds n).otucPtr r y).2)) := by
  subst ht
  cases holds with
  | false =>
    obtain ⟨hc, ht, hm⟩ := u.lineFilled_counts n r y
    exact ⟨u.lineFilled_lfOut n r y, ht, fun _ => ⟨hc, hm⟩, nofun, nofun⟩
  | true =>
    have h : Coded u (u.lineCoded n r y) := Keeps.refl.lineCoded
    refine ⟨u.lineCoded_lfOut n r y, h.part, nofun, fun _ => h.rd _ rfl _ _, fun _ hl => ?_⟩
    obtain ⟨hm, ho⟩ := u.overheadBegins_sends n r y
    obtain ⟨hm', ho'⟩ := lineCoded_begins (s := u) hl n r
    exact ⟨hm'.trans hm, (congrArg (Cells.find n) ho').trans ho⟩

theorem txLineFrame_spec (n : Fin 4) (frames : List (List (List Byte))) (s : State) :
    let f := faceOf n
    let lf := s.sfOff / lfLen
    let r := s.txRate .live n
    let x := s.txLineOf n
    let b := if lf = 0 then s.lineBegin n r else (s, x)
    let y : TxLine := { b.2.feed r.m frames with sf := s.sf, lf := lf }
    let holds := b.1.lineHolds n r y (decide (lf = 0) || (x.whole && x.sf == s.sf && x.lf + 1 == lf))
    s.lineOn n = true → s.on .dacPause f = false →
      ∃ t, exec (.txLineFrame n frames) s = .next t ∧
        (∃ g, Cells.find n.val t.lfOut = some g ∧ g.sf = s.sf ∧ g.lf = lf ∧ g.filled = !holds) ∧ t.tally = s.tally ∧
        (holds = false → t.rd .winzTxUnderrun f = min (s.rd .winzTxUnderrun f + 1) (2 ^ 32 - 1) ∧ t.msgTx = s.msgTx) ∧
        (holds = true → t.rd .winzTxUnderrun f = s.rd .winzTxUnderrun f) ∧
        (holds = true → lf = 0 →
          let a := b.1.annEnds n
          let o := a.otucPtr r y
          t.msgTx = (popFor n s.msgTx).2 ∧ Cells.find n.val t.ohOut = some (a.overheadOf n (popFor n s.msgTx).1 o.1 o.2)) := by
  intro f lf r x b y holds hon hp
  obtain ⟨k, hb⟩ : ∃ k, b.1 = { s with freeCtr := k } := by
    by_cases h : lf = 0
    · exact ⟨_, by rw [show b = _ from if_pos h]; exact lineBegin_eq ..⟩
    · exact ⟨s.freeCtr, by rw [show b = _ from if_neg h]⟩
  obtain ⟨hg, ht, hf, hc, ho⟩ := b.1.lineOut_spec n r y holds rfl
  refine ⟨_, (if_neg (by simp [hon])).trans (if_neg (by simp [show s.on .dacPause (faceOf n) = false from hp])), hg,
    ht.trans (by rw [hb]), fun h => ?_, fun h => (hc h).trans (by rw [hb, rd_set_freeCtr]), fun h hl => ?_⟩
  · obtain ⟨hu, hm⟩ := hf h
    exact ⟨hu.trans (by rw [hb, rd_set_freeCtr]), hm.trans (by rw [hb])⟩
  · have hm : b.1.msgTx = s.msgTx := by rw [hb]
    have := ho h hl
    rwa [hm] at this

/-! ### SF overheads received (R52, R53, R291 to R299) -/

theorem SameBut.counted {l : List Reg} {s t : State} (h : SameBut l s t) : Counted l s t := by
  obtain ⟨ht, hf⟩ := h
  exact ⟨by rw [ht], hf⟩

theorem Counted.count {l : List Reg} {s t : State} (h : Counted l s t) (d : Die) (i k : Nat) : Counted l s (t.count d i k) := by
  obtain ⟨ht, hf⟩ := h
  exact ⟨id (congrArg (fun u : State => { u with assay := (t.count d i k).assay }) ht :), hf⟩

theorem Counted.sameBut {l : List Reg} {s t u : State} (h : Counted l s t) (k : SameBut l t u) : Counted l s u := by
  obtain ⟨ht, hf⟩ := h
  obtain ⟨ku, kf⟩ := k
  exact ⟨by rw [ku, ht], fun f d i hm => (kf f d i hm).trans (hf f d i hm)⟩

/-- A failed overhead as it is counted, with the pointer reckoned on. -/
def State.overheadCounted (s : State) (n : Nat) : State :=
  ((s.ptrOn n).inc .frmOhCrcErrors (millOf n) (n % 2)).count (millOf n) (frameAssay n + 1)

/-- What a failed overhead leaves: the runs of announcements have ended. -/
def State.overheadFailed (s : State) (n : Nat) : State :=
  let u := s.overheadCounted n
  u.wrs (millOf n) (n % 2)
    [(.ohBad, min 15 (u.rd .ohBad (millOf n) (n % 2) + 1)), (.ohSince, u.rd .ohSince (millOf n) (n % 2) + 1),
      (.annRun, 0), (.cancelRun, 0), (.keyAnnRun, 0), (.keyCancelRun, 0)]

theorem State.overheadFailed_counted (s : State) (n : Nat) :
    Counted (regsAt (millOf n) (n % 2) [.frmOhCrcErrors, .ohBad, .ohSince, .annRun, .cancelRun, .keyAnnRun, .keyCancelRun, .rxOtucPtr,
      .rxOtucMfas]) s (s.overheadFailed n) := by
  refine .sameBut (t := s.overheadCounted n) (.count (.counted ?_) ..) (SameBut.wrs (.refl ..) _ _ _ (by simp [mem_regsAt]))
  exact .inc (.wrs (.refl ..) _ _ _ (by simp [mem_regsAt])) _ _ _ _ (by simp [mem_regsAt])

theorem State.overheadFailed_crcErrors (s : State) (n : Nat) :
    (s.overheadFailed n).rd .frmOhCrcErrors (millOf n) (n % 2) =
      min (s.rd .frmOhCrcErrors (millOf n) (n % 2) + 1) (2 ^ 32 - 1) := by
  have h : Keeps (· = .frmOhCrcErrors) State.tally s (s.ptrOn n) := Keeps.refl.wrs
  have k : Keeps (· = .frmOhCrcErrors) State.tally ((s.ptrOn n).inc .frmOhCrcErrors (millOf n) (n % 2)) (s.overheadFailed n) :=
    Keeps.wrs (s := s.overheadCounted n) Keeps.refl.count
  rw [k.rd _ rfl, rd_inc, if_pos ⟨rfl, rfl, rfl⟩, h.rd _ rfl, show Fld.frmOhCrcErrors.row.width = 32 by decide]

/-! A false sync (R299). -/

/-- The registers that say how a false sync ends. -/
abbrev SyncFields (f : Fld) : Prop := f = .acqState ∨ f = .frmFalseSync

theorem State.overheadFailed_keeps (s : State) (n : Nat) : Keeps SyncFields State.tally s (s.overheadFailed n) :=
  have h : Keeps SyncFields State.tally s (s.ptrOn n) := Keeps.refl.wrs
  Keeps.wrs (s := s.overheadCounted n) h.inc.count

theorem State.huntFrom_frmState (s : State) (n pos : Nat) :
    (s.huntFrom n pos true).rd .frmState (millOf n) (n % 2) = if s.acq n = 7 then 1 else 0 := by
  unfold huntFrom
  extract_lets d c s₁ s₂
  have h : Keeps SyncFields State.tally s s₁ := .ite Keeps.refl.count .refl
  have ha : s₁.acq n = s.acq n := h.rd .acqState (.inl rfl) (faceOf n) 0
  rw [if_pos rfl, rd_wr_ne _ _ _ _ _ _ (by simp)]
  dsimp only [s₂]
  rw [wrs_cons, wrs_cons, wrs_nil, rd_wr_ne _ _ _ _ _ _ (by simp), rd_wr_same, ha]
  split
  · rfl
  · rfl

theorem Keeps.huntFrom {n pos : Nat} {fresh : Bool} {s₀ s : State} (h : Keeps SyncFields State.tally s₀ s) :
    Keeps SyncFields State.tally s₀ (s.huntFrom n pos fresh) := by
  unfold State.huntFrom
  extract_lets d c s₁ s₂
  have h₁ : Keeps SyncFields State.tally s₀ s₁ := .ite h.count h
  have h₂ : Keeps SyncFields State.tally s₀ s₂ := h₁.wrs
  exact .ite h₂.wr h₂

/-- A false sync as it is counted. -/
def State.syncMissed (s : State) (n : Nat) : State :=
  ((s.inc .frmFalseSync (millOf n) (n % 2)).count (millOf n) (frameAssay n + 3)).wrs (millOf n) (n % 2)
    [(.ohFirst, 0), (.farAnnSeen, 0)]

theorem State.falseSync_eq (s : State) (n : Nat) :
    s.falseSync n = (s.syncMissed n).huntFrom n (s.rd .frmSyncOffset (millOf n) (n % 2) + 1) true := rfl

theorem State.syncMissed_keeps (s : State) (n : Nat) :
    Keeps SyncFields State.tally (s.inc .frmFalseSync (millOf n) (n % 2)) (s.syncMissed n) := Keeps.refl.count.wrs

/-- How a state ends in a false sync: the hunt goes on where the carrier is in TRACK, and the count of false syncs steps. -/
theorem State.falseSync_ends {s u : State} (h : Keeps SyncFields State.tally s u) (n : Nat) :
    (u.falseSync n).rd .frmState (millOf n) (n % 2) = (if s.acq n = 7 then 1 else 0) ∧
      (u.falseSync n).rd .frmFalseSync (millOf n) (n % 2) = min (s.rd .frmFalseSync (millOf n) (n % 2) + 1) 0xFFFF := by
  have k := u.syncMissed_keeps n
  rw [falseSync_eq]
  constructor
  · have ha : (u.syncMissed n).acq n = s.acq n :=
      ((k.rd .acqState (.inl rfl) _ _).trans (rd_wr_ne _ _ _ _ _ _ (by simp))).trans (h.rd .acqState (.inl rfl) _ _)
    rw [huntFrom_frmState, ha]
  · rw [k.huntFrom.rd .frmFalseSync (.inr rfl), rd_inc, if_pos ⟨rfl, rfl, rfl⟩, h.rd .frmFalseSync (.inr rfl),
      show Fld.frmFalseSync.row.width = 16 by decide]
    rfl

/-! A good overhead (R52, R291, R294). -/

theorem Keeps.farSet {n far : Nat} {inPhase : Bool} {s₀ s : State} (h : Settled s₀ s) : Settled s₀ (s.farSet n far inPhase) :=
  have h₁ := Keeps.ite h.wrs.wr h.wrs
  .wrs (.ite h₁.wr.raise h₁)

/-- What a good overhead announces, as it is shown. -/
def State.overheadShown (s : State) (n : Nat) (oh : BitVec 256) : State :=
  s.wrs (millOf n) (n % 2) [(.ohBad, 0), (.ohSince, 0), (.farAnnSeen, 1), (.farLastAnn, ohField oh 0 47),
    (.frmGroupIdSeen, ohField oh 48 55), (.frmMemberIdxSeen, ohField oh 56 57), (.frmMemberCntSeen, ohField oh 58 59),
    (.ohIdsOk, b2n (s.idsMatch n oh)), (.rxOtucPtr, ohField oh 178 199), (.rxOtucMfas, ohField oh 200 207)]

/-- A good overhead is shown; a message byte arrives; all else follows from the state. -/
theorem State.goodOverhead_settles (s : State) (n : Nat) (oh : BitVec 256) :
    ∃ u, Settled (s.overheadShown n oh) u ∧
      Settled (if ohField oh 89 89 = 1 then u.msgArrives n (BitVec.ofNat 8 (ohField oh 208 215)) else u) (s.goodOverhead n oh) := by
  unfold goodOverhead
  extract_lets d c far seen since next inPhase s₁ s₂ s₃ r s₄ s₅
  have h₂ : Settled s₁ s₂ := .ite Keeps.refl.jumpPast.farClear (.ite Keeps.refl.farSet .refl)
  have h₃ : Settled s₁ s₃ := h₂.mfasFrom
  have h₄ : Settled s₁ s₄ := .ite h₃ h₃.wr.raiseFrame
  exact ⟨s₄, h₄, Keeps.refl.sight⟩

theorem State.msgArrives_keeps (s : State) (n : Nat) (b : Byte) : Keeps Underived State.tally s (s.msgArrives n b) := by
  unfold msgArrives
  extract_lets s₁
  have h₁ : Keeps Underived State.tally s s₁ := Keeps.refl.count
  exact .ite (.wrs (h₁.trans ⟨fun _ _ _ _ => rfl, rfl, id⟩)) h₁.wr

theorem State.msgArrives_msgRx {s : State} {n : Nat} (h : (s.msgRx.filter (·.1 == n)).length < 64) (b : Byte) :
    (s.msgArrives n b).msgRx = s.msgRx ++ [(n, b)] := by
  unfold msgArrives
  extract_lets s₁
  have h₁ : (s₁.msgRx.filter (·.1 == n)).length < 64 := h
  rw [if_pos h₁]
  rfl

theorem ohField_lt (oh : BitVec 256) (lo hi : Nat) : ohField oh lo hi < 2 ^ (hi + 1 - lo) := Nat.mod_lt _ (Nat.two_pow_pos _)

theorem State.overheadShown_rd (s : State) (n : Nat) (oh : BitVec 256) :
    (s.overheadShown n oh).rd .farLastAnn (millOf n) (n % 2) = ohField oh 0 47 ∧
      (s.overheadShown n oh).rd .frmGroupIdSeen (millOf n) (n % 2) = ohField oh 48 55 ∧
      (s.overheadShown n oh).rd .frmMemberIdxSeen (millOf n) (n % 2) = ohField oh 56 57 ∧
      (s.overheadShown n oh).rd .frmMemberCntSeen (millOf n) (n % 2) = ohField oh 58 59 ∧
      (s.overheadShown n oh).rd .rxOtucPtr (millOf n) (n % 2) = ohField oh 178 199 ∧
      (s.overheadShown n oh).rd .ohBad (millOf n) (n % 2) = 0 := by
  have hw : Fld.farLastAnn.row.width = 48 ∧ Fld.frmGroupIdSeen.row.width = 8 ∧ Fld.frmMemberIdxSeen.row.width = 2 ∧
    Fld.frmMemberCntSeen.row.width = 2 ∧ Fld.rxOtucPtr.row.width = 22 := by decide
  obtain ⟨h₁, h₂, h₃, h₄, h₅⟩ := hw
  simpa [overheadShown, rd_wr, h₁, h₂, h₃, h₄, h₅] using
    And.intro (ohField_lt oh 0 47) ⟨ohField_lt oh 48 55, ohField_lt oh 56 57, ohField_lt oh 58 59, ohField_lt oh 178 199⟩

/-- The registers and the FIFO after a good overhead, from the state `s` in which it is used. -/
theorem State.goodOverhead_spec (s : State) (n : Nat) (oh : BitVec 256) {t : State} (ht : t = s.goodOverhead n oh) :
    t.rd .farLastAnn (millOf n) (n % 2) = ohField oh 0 47 ∧ t.rd .frmGroupIdSeen (millOf n) (n % 2) = ohField oh 48 55 ∧
      t.rd .frmMemberIdxSeen (millOf n) (n % 2) = ohField oh 56 57 ∧ t.rd .frmMemberCntSeen (millOf n) (n % 2) = ohField oh 58 59 ∧
      t.rd .rxOtucPtr (millOf n) (n % 2) = ohField oh 178 199 ∧ t.rd .ohBad (millOf n) (n % 2) = 0 ∧
      t.rd .frmOhCrcErrors (millOf n) (n % 2) = s.rd .frmOhCrcErrors (millOf n) (n % 2) ∧ t.tally = s.tally ∧
      (ohField oh 89 89 = 0 → t.msgRx = s.msgRx) ∧
      (ohField oh 89 89 = 1 → (s.msgRx.filter (·.1 == n)).length < 64 →
        t.msgRx = s.msgRx ++ [(n, BitVec.ofNat 8 (ohField oh 208 215))]) := by
  subst ht
  obtain ⟨u, hu, hv⟩ := s.goodOverhead_settles n oh
  have hm : u.msgRx = s.msgRx := hu.msgRx
  have hk : Keeps Underived State.tally (s.overheadShown n oh) (s.goodOverhead n oh) :=
    .trans (hu.weaken (fun _ => id) (congrArg State.tally)) <|
    .trans (.ite (u.msgArrives_keeps n _) .refl) (hv.weaken (fun _ => id) (congrArg State.tally))
  obtain ⟨h₁, h₂, h₃, h₄, h₅, h₆⟩ := s.overheadShown_rd n oh
  have h₇ : Keeps (· = .frmOhCrcErrors) State.tally s (s.overheadShown n oh) := Keeps.refl.wrs
  refine ⟨(hk.rd _ (by decide) _ _).trans h₁, (hk.rd _ (by decide) _ _).trans h₂, (hk.rd _ (by decide) _ _).trans h₃,
    (hk.rd _ (by decide) _ _).trans h₄, (hk.rd _ (by decide) _ _).trans h₅, (hk.rd _ (by decide) _ _).trans h₆,
    (hk.rd _ (by decide) _ _).trans (h₇.rd _ rfl _ _), hk.part.trans h₇.part, fun h => ?_, fun h hl => ?_⟩
  · rw [hv.msgRx, if_neg (by simp [h]), hm]
  · rw [hv.msgRx, if_pos h, msgArrives_msgRx (by rwa [hm]), hm]

/-! What the overhead does, by its crc and its phase. -/

section

variable {n : Fin 4} {oh : BitVec 256} {s : State}

theorem exec_sfOverheadReceived_failed (hs : s.rd .frmState (millOf n) (n.val % 2) = 3) (hc : overheadCrc oh ≠ ohField oh 240 255) :
    exec (.sfOverheadReceived n oh) s = .next (if s.on .ohFirst (millOf n) (n.val % 2) then (s.overheadFailed n).falseSync n
      else s.overheadFailed n) :=
  (if_neg (not_not_intro hs)).trans (if_pos hc)

theorem exec_sfOverheadReceived_good (hs : s.rd .frmState (millOf n) (n.val % 2) = 3) (hc : overheadCrc oh = ohField oh 240 255) :
    exec (.sfOverheadReceived n oh) s =
      if s.on .ohFirst (millOf n) (n.val % 2) &&
          !(ohField oh 0 47 % 64 == s.rd .frmShapePhase (millOf n) (n.val % 2) || s.anyPhase n) then .next (s.falseSync n)
      else .next ((s.wr .ohFirst (millOf n) (n.val % 2) 0).goodOverhead n oh) :=
  (if_neg (not_not_intro hs)).trans (if_neg (not_not_intro hc))

end

/-! ### Far SF boundaries (R53, R295) -/

theorem exec_farSfArrival_valid {n : Fin 4} {s : State} (hr : s.on .decChainRunning (millOf n) (n.val % 2) = true)
    (hv : s.on .farValid (millOf n) (n.val % 2) = true) :
    let d := millOf n
    let c := n.val % 2
    let k := s.rd .farLastAnn d c + s.rd .ohSince d c + 1
    let u := s.wrs d c [(.farLiveSf, k), (.farLiveArr, s.tally), (.farHasArr, 1), (.frmShapePhase, k % 64), (.decPhase, k % s.rxPeriod n)]
    exec (.farSfArrival n) s = .next ((u.targetsReached n k).memberArrival n k (u.targetsReached n k).tally) := by
  have hk : s.boundaryOf n = some (s.rd .farLastAnn (millOf n) (n.val % 2) + s.rd .ohSince (millOf n) (n.val % 2) + 1) := if_pos hv
  change execFarSfArrival n s = _
  unfold execFarSfArrival
  simp only [hr, hv, hk, Bool.not_true, Bool.false_eq_true, if_false, if_true]

theorem exec_farSfArrival_unknown {n : Fin 4} {s : State} (hr : s.on .decChainRunning (millOf n) (n.val % 2) = true)
    (hv : s.on .farValid (millOf n) (n.val % 2) = false) (ha : s.on .farHasArr (millOf n) (n.val % 2) = false) :
    let d := millOf n
    let c := n.val % 2
    exec (.farSfArrival n) s = .next (s.wrs d c [(.frmShapePhase, s.rd .frmShapePhase d c + 1),
      (.sweepRun, min 7 (s.rd .sweepRun d c + 1)),
      (.decPhase, if s.on .decPhaseKnown d c then (s.rd .decPhase d c + 1) % s.rxPeriod n else 0)]) := by
  have hk : s.boundaryOf n = none := by simp [boundaryOf, hv, ha]
  change execFarSfArrival n s = _
  unfold execFarSfArrival
  simp only [hr, hv, hk, Bool.not_true, Bool.false_eq_true, if_false]

/-- Settles O19: a line frame by what the queue holds, an overhead by its crc and its phase, a boundary by what is known of it. -/
theorem lineFramesOverheadsAndFarBoundaries : Obligations.LineFramesOverheadsAndFarBoundaries := by
  refine ⟨fun n frames s => ?_, fun n oh s => ?_, fun n s => ?_⟩
  · intro f lf r x b y holds
    exact ⟨fun h => if_pos (by simp [h]), fun h hp => (if_neg (by simp [h])).trans (if_pos hp), txLineFrame_spec n frames s⟩
  · intro d c inPhase first ends hs
    refine ⟨fun hc hf => ⟨s.overheadFailed n, ?_, s.overheadFailed_crcErrors n, s.overheadFailed_counted n⟩, fun hc hf => ?_,
      fun hc hf hp => ?_, fun hc hp => ?_⟩
    · rw [exec_sfOverheadReceived_failed hs hc, if_neg hf]
    · have he := exec_sfOverheadReceived_failed hs hc
      rw [if_pos hf] at he
      exact ⟨_, he, falseSync_ends (s.overheadFailed_keeps n) n⟩
    · have he := exec_sfOverheadReceived_good hs hc
      rw [if_pos (Bool.and_eq_true_iff.mpr ⟨hf, congrArg (! ·) hp⟩)] at he
      exact ⟨_, he, falseSync_ends .refl n⟩
    · have he := exec_sfOverheadReceived_good hs hc
      rw [if_neg fun h => ?_] at he
      · have hw : (s.wr .ohFirst (millOf n) (n.val % 2) 0).rd .frmOhCrcErrors (millOf n) (n.val % 2) =
          s.rd .frmOhCrcErrors (millOf n) (n.val % 2) := rd_wr_ne _ _ _ _ _ _ (by simp)
        rw [← hw]
        exact ⟨_, he, goodOverhead_spec _ n oh rfl⟩
      · obtain ⟨h₁, h₂⟩ := Bool.and_eq_true_iff.mp h
        rcases hp with hp | hp
        · exact hp h₁
        · exact absurd (h₂.symm.trans (congrArg (! ·) hp)) (by decide)
  · intro d c
    refine ⟨fun h => if_pos (by simpa using h), fun hr hv hl => ⟨_, exec_farSfArrival_valid hr hv, ?_⟩,
      fun hr hv ha => ⟨_, exec_farSfArrival_unknown hr hv ha, ?_, ?_⟩⟩
    · have hk {u : State} {k a : Nat} : Settled u ((u.targetsReached n k).memberArrival n k a) :=
        Keeps.refl.targetsReached.memberArrival
      refine ⟨(hk.rd .farLiveSf (by decide) _ _).trans ?_, (hk.rd .farLiveArr (by decide) _ _).trans ?_,
        (hk.on (f := .farHasArr) (by decide) _ _).trans ?_, hk.tally⟩
      · simp [d, c, rd_wr, show Fld.farLiveSf.row.width = 48 by decide]
      · simpa [d, c, rd_wr, show Fld.farLiveArr.row.width = 68 by decide] using hl
      · simp [d, c, State.on, rd_wr, show Fld.farHasArr.row.width = 1 by decide]
    · simp [d, c, rd_wr, show Fld.frmShapePhase.row.width = 6 by decide]
    · exact .wrs (.refl ..) _ _ _ (by simp [mem_regsAt, d, c])

end Sys2Proof.Machine

/-! ## Resets of domains, dies and the package -/

namespace Sys2Proof.Machine

set_option Elab.async false

open State

/-! ### What a loss of registers leaves (R513, R637, R641) -/

theorem keyFld_key (f : Fld) (d : Die) (i : Nat) : keyFld (f.key d i) = f.ctorIdx := by
  have hf := f.ctorIdx_lt
  have hd := Die.code_lt d
  rw [keyFld, Fld.key]
  omega

/-- An internal field that only the package loses. -/
theorem lossOf_internal {f : Fld} (hw : f.row.blk.info.win = .internal) (ho : f.row.off = 20) (d : Die) (i : Nat) :
    lossOf (f.key d i) = .package := by
  unfold lossOf
  rw [keyFld_key]
  extract_lets e j r g
  have hg : g.win = .internal := hw
  have hr : r.off = 20 := ho
  rw [hg, hr]
  rfl

theorem State.rd_loseWhere {s : State} {p : Nat → Bool} {f : Fld} {d : Die} {i : Nat} (h : p (f.key d i) = false) :
    (s.loseWhere p).rd f d i = s.rd f d i := by
  simp [State.rd, loseWhere, Cells.get, Cells.find_filter (fun k => !p k), h]

/-! ### What the work of the dies leaves of the resets

`Outlasts`: resets and incarnations read as before, the tally stands, and no reset ends or begins. -/

/-- The tally and the resets that run or are held. -/
def State.course (s : State) : Nat × List ResetRun × List Op := (s.tally, s.resets, s.heldResets)

abbrev ResetField (f : Fld) : Prop := f = .inReset ∨ f = .incarnation

abbrev Outlasts : State → State → Prop := Keeps ResetField State.course

theorem lossOf_resetField {f : Fld} (h : ResetField f) (d : Die) (i : Nat) : lossOf (f.key d i) = .package := by
  rcases h with rfl | rfl
  · exact lossOf_internal (by decide) (by decide) d i
  · exact lossOf_internal (by decide) (by decide) d i

section

variable {s₀ s t : State}

theorem Keeps.settled (h : Outlasts s₀ s) (k : Settled s t) : Outlasts s₀ t :=
  h.trans (k.weaken (fun _ hf => by rcases hf with rfl | rfl <;> decide) (congrArg State.course))

theorem Keeps.loseWhere {p : Nat → Bool} (h : Outlasts s₀ s) (hp : ∀ k, lossOf k = .package → p k = false) :
    Outlasts s₀ (s.loseWhere p) :=
  h.trans ⟨fun _ hf d i => rd_loseWhere (hp _ (lossOf_resetField hf d i)), rfl, id⟩

/-! Power requests (R517 to R525). -/

theorem Keeps.lamp {block reason st : Nat} (h : Outlasts s₀ s) : Outlasts s₀ (s.lamp block reason st) := by
  unfold State.lamp
  dsimp only
  split
  · exact h.inc.wr
  · split
    · exact h.wrs.inc
    · exact h.inc

theorem Keeps.refusedBy {t : Die} {dom reason st : Nat} (h : Outlasts s₀ s) : Outlasts s₀ (s.refusedBy t dom reason st) :=
  h.lamp.inc.raise

theorem Keeps.abortedBy {t : Die} {dom reason st : Nat} (h : Outlasts s₀ s) : Outlasts s₀ (s.abortedBy t dom reason st) :=
  h.lamp.inc.raise

theorem Keeps.domBusy {l : List (Die × Nat)} {v : Nat} (h : Outlasts s₀ s) : Outlasts s₀ (s.domBusy l v) :=
  .foldl (fun _ _ hu => hu.wr) h

theorem Keeps.unask {r : PwrReq} (h : Outlasts s₀ s) : Outlasts s₀ (s.unask r) := .ite h (.foldl (fun _ _ hu => hu.wr) h)

theorem Keeps.endRequest {r : PwrReq} {st : Status} (h : Outlasts s₀ s) : Outlasts s₀ (s.endRequest r st) := by
  unfold State.endRequest
  dsimp only
  split
  · exact h.unask
  · exact h.unask.finishOp

theorem Keeps.hostMarks {r : PwrReq} (h : Outlasts s₀ s) : Outlasts s₀ (s.hostMarks r) := .ite h (.foldl (fun _ _ hu => hu.wrs) h)

theorem Keeps.power {pwr : Option PwrRun} {pwrQ : List PwrReq} {waking : Option PwrReq} {releases : List (Die × Nat)}
    (h : Outlasts s₀ s) : Outlasts s₀ { s with pwr := pwr, pwrQ := pwrQ, waking := waking, releases := releases } :=
  h.trans ⟨fun _ _ _ _ => rfl, rfl, id⟩

theorem Keeps.startRequest {r : PwrReq} (h : Outlasts s₀ s) : Outlasts s₀ (s.startRequest r) := by
  unfold State.startRequest
  extract_lets there mine
  refine .ite h.endRequest ?_
  split
  · exact h.abortedBy.endRequest
  · have h₁ : Outlasts s₀ ((s.domBusy mine 1).wrP .pwrHsBusy 1) := h.domBusy.wrP
    exact .ite h.hostMarks.endRequest (.ite h₁.power h₁.power)

theorem Keeps.nextRequests {l : List PwrReq} (h : Outlasts s₀ s) : Outlasts s₀ (s.nextRequests l) := by
  induction l generalizing s with
  | nil => exact h.power
  | cons r l ih => exact .ite h.power (ih h.startRequest)

theorem Keeps.endEntry {r : PwrRun} {st : Status} {counts : Bool} (h : Outlasts s₀ s) : Outlasts s₀ (s.endEntry r st counts) := by
  unfold State.endEntry
  extract_lets l s₁ s₂ s₃
  have h₁ : Outlasts s₀ s₁ := h.power
  have h₂ : Outlasts s₀ s₂ := .foldl (fun _ _ hu => by split; exacts [.ite hu hu.refusedBy, hu, hu, hu]) h₁.wrP
  exact h₂.endRequest.nextRequests

theorem Keeps.powerReset {hit : Die → Nat → Bool} (h : Outlasts s₀ s) : Outlasts s₀ (s.powerReset hit) := by
  unfold State.powerReset
  split
  · exact h
  · split
    · exact h
    · exact h.abortedBy.endEntry

/-! Links and content that go down (R34, R36, R402, R553, R636, R637). -/

theorem Keeps.linkDrop {d : Die} {port : Nat} (h : Outlasts s₀ s) : Outlasts s₀ (s.linkDrop d port) := by
  unfold State.linkDrop
  split
  · exact h.wr.wr
  · exact h

theorem Keeps.linksDown {t : Die} {plan : Bool} (h : Outlasts s₀ s) : Outlasts s₀ (s.linksDown t plan) := by
  unfold State.linksDown
  refine .foldl (fun u p hu => .dropFromCommit (.abortTo ?_)) h
  split
  · exact .ite hu.linkDrop hu.linkDrop.raiseField.raiseField
  · exact hu.linkDrop

theorem Keeps.purge {t : Die} {dom : Nat → Bool} (h : Outlasts s₀ s) : Outlasts s₀ (s.purge t dom) :=
  h.trans ⟨fun _ _ _ _ => rfl, rfl, id⟩

theorem Keeps.returnPositions {t : Die} {k : Nat} (h : Outlasts s₀ s) : Outlasts s₀ (s.returnPositions t k) :=
  h.trans ⟨fun _ _ _ _ => rfl, rfl, id⟩

theorem Keeps.loseMem {t : Die} {mem : Nat} (h : Outlasts s₀ s) : Outlasts s₀ (s.loseMem t mem) :=
  h.trans ⟨fun _ _ _ _ => rfl, rfl, id⟩

theorem Keeps.loseKeys {t : Die} (h : Outlasts s₀ s) : Outlasts s₀ (s.loseKeys t) := by
  unfold State.loseKeys
  extract_lets s₁
  have h₁ : Outlasts s₀ s₁ := h.trans ⟨fun _ _ _ _ => rfl, rfl, fun e => by dsimp only [s₁]; rw [e]; rfl⟩
  refine h₁.trans ⟨fun f hf d i => rd_loseWhere ?_, rfl, id⟩
  rcases hf with rfl | rfl
  · simp [keyFld_key, show ¬ Fld.inReset.ctorIdx = Fld.pageSlotLoaded.ctorIdx by decide,
      show ¬ Fld.inReset.ctorIdx = Fld.pageSlotKeyIdx.ctorIdx by decide]
  · simp [keyFld_key, show ¬ Fld.incarnation.ctorIdx = Fld.pageSlotLoaded.ctorIdx by decide,
      show ¬ Fld.incarnation.ctorIdx = Fld.pageSlotKeyIdx.ctorIdx by decide]

theorem Keeps.loseKek {t : Die} (h : Outlasts s₀ s) : Outlasts s₀ (s.loseKek t) := by
  unfold State.loseKek
  exact .wr (h.trans ⟨fun _ _ _ _ => rfl, rfl, fun e => by rw [e]; rfl⟩)

theorem Keeps.domainLost {t : Die} {dom : Nat} (h : Outlasts s₀ s) : Outlasts s₀ (s.domainLost t dom) := by
  unfold State.domainLost
  extract_lets s₁ s₂ s₃
  have h₁ : Outlasts s₀ s₁ := .ite (h.settled Keeps.refl.acqOff) h
  have h₂ : Outlasts s₀ s₂ := (h₁.loseWhere fun k hk => by simp [hk]).purge
  have h₃ : Outlasts s₀ s₃ := .ite h₂.loseKeys h₂
  exact .ite h₃.returnPositions h₃

theorem Keeps.dieLost {t : Die} (h : Outlasts s₀ s) : Outlasts s₀ (s.dieLost t) := by
  unfold State.dieLost
  extract_lets s₁ s₂ s₃
  have h₁ : Outlasts s₀ s₁ := h.loseWhere fun k hk => by simp [hk]
  have h₃ : Outlasts s₀ s₃ := .foldl (fun _ _ hu => hu.loseMem) h₁.purge.loseKeys.loseKek
  exact h₃.trans ⟨fun _ _ _ _ => rfl, rfl, id⟩

end

/-! ### Incarnations (R35) -/

/-- A new incarnation moves no other target's. -/
theorem State.rd_reincarnate (s : State) (t : Die) (k j : Nat) :
    (s.reincarnate t k).rd .incarnation t j = if k = j then (s.rd .incarnation t k + 1) % 16 else s.rd .incarnation t j := by
  have hb : (s.bump .incarnation t k).rd .incarnation t j =
      if k = j then (s.rd .incarnation t k + 1) % 16 else s.rd .incarnation t j := by
    simp [rd_bump, show Fld.incarnation.row.width = 4 by decide]
  unfold reincarnate
  extract_lets s₁
  split
  · exact hb
  · refine Eq.trans (Keeps.rd (K := ResetField) (g := State.course) (s := s₁) (.foldl (fun u p hu => ?_) .refl) _ (.inr rfl) _ _) hb
    dsimp only
    split
    · exact .ite hu.wr.wr hu.wr
    · exact hu.wr

/-- What new incarnations leave. -/
abbrev Renewed : State → State → Prop := Keeps (· = .inReset) State.course

theorem Keeps.reincarnate {s₀ s : State} {t : Die} {k : Nat} (h : Renewed s₀ s) : Renewed s₀ (s.reincarnate t k) := by
  unfold State.reincarnate
  refine .ite h.bump (.foldl (fun u p hu => ?_) h.bump)
  dsimp only
  split
  · exact .ite hu.wr.wr hu.wr
  · exact hu.wr

theorem State.rd_foldl_reincarnate {t : Die} {j : Nat} {l : List Nat} (h : j ∉ l) (s : State) :
    (l.foldl (fun s k => s.reincarnate t k) s).rd .incarnation t j = s.rd .incarnation t j := by
  induction l generalizing s with
  | nil => rfl
  | cons k l ih =>
    have hk : ¬ k = j := fun e => h (e ▸ List.mem_cons_self)
    rw [List.foldl_cons, ih (fun hm => h (List.mem_cons_of_mem _ hm)), rd_reincarnate, if_neg hk]

/-! ### A reset begins (R36, R636, R637, R639) -/

/-- A die on its way down has not lost its content yet. -/
def State.dieLeaving (s : State) (t : Die) : State :=
  let s := (s.linksDown t false).abortTo (fun d _ => d == t) (portToward t)
  let s := (s.dropFromCommit [t]).powerReset fun d _ => d == t
  ((Die.carriersOf t).filter s.hasCarrier).foldl (fun s n => if t.isMill then s.frameDown n else s.acqOff n) s

theorem State.dieDown_eq (s : State) (t : Die) :
    s.dieDown t = t.domains.foldl (fun s k => s.reincarnate t k) (((s.dieLeaving t).dieLost t).reincarnate t 63) := rfl

theorem State.dieLeaving_outlasts (s : State) (t : Die) : Outlasts s (s.dieLeaving t) := by
  unfold dieLeaving
  extract_lets s₁ s₂
  have h₁ : Outlasts s s₁ := Keeps.refl.linksDown.abortTo
  have h₂ : Outlasts s s₂ := h₁.dropFromCommit.powerReset
  exact .foldl (fun _ _ hu => .ite (hu.settled Keeps.refl.frameDown) (hu.settled Keeps.refl.acqOff)) h₂

theorem State.dieDown_spec (s : State) (t : Die) :
    (s.dieDown t).rd .incarnation t 63 = (s.rd .incarnation t 63 + 1) % 16 ∧ (s.dieDown t).course = s.course := by
  have h : Outlasts s ((s.dieLeaving t).dieLost t) := (s.dieLeaving_outlasts t).dieLost
  have hr : Renewed ((s.dieLeaving t).dieLost t) (s.dieDown t) := by
    rw [dieDown_eq]
    exact .foldl (fun _ _ hu => hu.reincarnate) Keeps.refl.reincarnate
  refine ⟨?_, hr.part.trans h.part⟩
  rw [dieDown_eq, rd_foldl_reincarnate (by cases t <;> decide), rd_reincarnate, if_pos rfl, h.rd _ (.inr rfl)]

/-- What the reset of a domain does once the domain is held in it. -/
theorem State.resetDomain_outlasts (s : State) (t : Die) (k : Nat) :
    Outlasts ((s.wr .inReset t k 1).reincarnate t k) (s.resetDomain t k) := by
  unfold resetDomain
  extract_lets s₁ s₂ s₃ s₄ s₅
  have h₂ : Outlasts s₁ s₂ := Keeps.refl.abortTo.powerReset
  have h₃ : Outlasts s₁ s₃ := h₂.domainLost
  have h₄ : Outlasts s₁ s₄ := by
    dsimp only [s₄]
    split
    · exact h₃.wrs
    · exact h₃
  have h₅ : Outlasts s₁ s₅ := .ite (h₄.settled Keeps.refl.fgBegin) h₄
  exact h₅.settled Keeps.refl.gates

/-- A RESET whose target is awake begins. -/
def State.resetBegins (s : State) (o : Op) : State :=
  let t := o.desc.mill
  let k := resetDom o.desc
  let s : State := { s with resets := s.resets ++ [⟨o, t, k, bit o.desc.arg0.toNat 2⟩] }
  if k = 63 then (((s.dieDown t).wrs t 63 [(.inReset, 1)]).fgBegin t).gates t else s.resetDomain t k

theorem State.startReset_eq (s : State) (o : Op) :
    s.startReset o = (s.wakeTarget o.desc.mill (resetDom o.desc)).resetBegins o := rfl

theorem State.resetBegins_spec {s u : State} {o : Op} (hu : u = s.resetBegins o) :
    u.on .inReset o.desc.mill (resetDom o.desc) = true ∧
      u.rd .incarnation o.desc.mill (resetDom o.desc) = (s.rd .incarnation o.desc.mill (resetDom o.desc) + 1) % 16 ∧
      u.course = (s.tally, s.resets ++ [⟨o, o.desc.mill, resetDom o.desc, bit o.desc.arg0.toNat 2⟩], s.heldResets) := by
  subst hu
  unfold resetBegins
  extract_lets t k u
  split
  next hk =>
    obtain ⟨hi, hc⟩ := u.dieDown_spec t
    have h : Outlasts ((u.dieDown t).wrs t 63 [(.inReset, 1)]) ((((u.dieDown t).wrs t 63 [(.inReset, 1)]).fgBegin t).gates t) :=
      .settled (.settled .refl Keeps.refl.fgBegin) Keeps.refl.gates
    refine ⟨(h.on (.inl rfl) _ _).trans ?_, (h.rd _ (.inr rfl) _ _).trans ?_, h.part.trans hc⟩
    · simp [State.on, t, show resetDom o.desc = 63 from hk, show Fld.inReset.row.width = 1 by decide]
    · rw [show resetDom o.desc = 63 from hk, wrs_cons, wrs_nil, rd_wr_ne _ _ _ _ _ _ (by simp)]
      exact hi
  · have h := u.resetDomain_outlasts t k
    have hr : Renewed (u.wr .inReset t k 1) ((u.wr .inReset t k 1).reincarnate t k) := Keeps.refl.reincarnate
    refine ⟨(h.on (.inl rfl) _ _).trans ((hr.on rfl _ _).trans ?_), (h.rd _ (.inr rfl) _ _).trans ?_, h.part.trans hr.part⟩
    · simp [State.on, t, k, show Fld.inReset.row.width = 1 by decide]
    · rw [rd_reincarnate, if_pos rfl, rd_wr_ne _ _ _ _ _ _ (by simp)]
      rfl

/-! A target is awake before its reset begins (R506). -/

/-- What waking a target leaves. -/
abbrev Woken : State → State → Prop := Keeps (fun _ => False) State.course

section

variable {s₀ s t : State}

theorem Keeps.woken {K : Fld → Prop} (h : Woken s₀ s) (k : Keeps K State.blank s t) : Woken s₀ t :=
  h.trans (k.weaken (fun _ => False.elim) (congrArg State.course))

theorem Keeps.wokenCourse {K : Fld → Prop} (h : Woken s₀ s) (k : Keeps K State.course s t) : Woken s₀ t :=
  h.trans (k.weaken (fun _ => False.elim) id)

theorem Keeps.wakeDomain {t : Die} {dom : Nat} (h : Woken s₀ s) : Woken s₀ (s.wakeDomain t dom) := by
  have lost {u : State} (hu : Woken s₀ u) : Woken s₀ (((u.dieLost t).loadSections t).reincarnate t 63) :=
    have h₁ : Woken s₀ (u.dieLost t) := hu.wokenCourse (K := ResetField) Keeps.refl.dieLost
    have h₂ : Woken s₀ ((u.dieLost t).loadSections t) := h₁.woken (K := Underived) Keeps.refl.loadSections
    h₂.wokenCourse (K := (· = .inReset)) Keeps.refl.reincarnate
  have linked {u : State} (hu : Woken s₀ u) : Woken s₀ (u.linksUp t) := hu.woken (K := Unlinked) Keeps.refl.linksUp
  unfold State.wakeDomain
  extract_lets old s₁ s₂ s₃ s₄ s₅ s₆ s₇ s₈
  have h₁ : Woken s₀ s₁ := h.wrs
  have h₂ : Woken s₀ s₂ := h₁.woken (K := Underived) Keeps.refl.clustersRun
  have h₃ : Woken s₀ s₃ := .foldl (fun _ _ hu => hu.wokenCourse (K := ResetField) Keeps.refl.loseMem) h₂
  have h₄ : Woken s₀ s₄ := .ite (h₃.woken (K := Underived) Keeps.refl.fgEnd) h₃
  have h₅ : Woken s₀ s₅ := .ite (h₄.abortTo.wokenCourse (K := (· = .inReset)) Keeps.refl.reincarnate) h₄
  have h₆ : Woken s₀ s₆ := .ite (lost h₅) h₅
  have h₇ : Woken s₀ s₇ := h₆.wrs
  have h₈ : Woken s₀ s₈ := linked h₇
  exact .ite h₁ (.ite h₂ (.ite h₅ (.ite (linked h₅) (.ite (h₈.woken (K := Underived) Keeps.refl.markStale) h₈))))

theorem Keeps.wakeTarget {t : Die} {k : Nat} (h : Woken s₀ s) : Woken s₀ (s.wakeTarget t k) :=
  .foldl (fun _ _ hu => .ite hu.wakeDomain hu) h

end

theorem anchor_mem_domains (t : Die) : t.anchor ∈ t.domains := by cases t <;> decide

theorem State.wakeTarget_awake {s : State} {t : Die} {k : Nat} (hw : ∀ j ∈ t.domains, s.domSt t j ≤ 1)
    (hk : k = 63 ∨ k ∈ t.domains) : s.wakeTarget t k = s := by
  unfold wakeTarget
  refine foldl_eq_self fun j hj => if_neg ?_
  have hm : j ∈ t.domains := by
    split at hj
    · rcases List.mem_cons.mp hj with rfl | hj
      · exact anchor_mem_domains t
      · exact (List.mem_filter.mp hj).1
    next h =>
      rcases List.mem_cons.mp (List.mem_dedup.mp hj) with rfl | hj
      · exact anchor_mem_domains t
      · rw [List.mem_singleton.mp hj]
        exact hk.resolve_left h
  have := hw j hm
  omega

/-! ### A RESET that is taken (R35, R39, R635) -/

/-- What taking a descriptor leaves. -/
abbrev Taken : State → State → Prop :=
  Keeps (fun f => f ≠ .hostOpsInFlight ∧ f ≠ .vfOpsInFlight) fun u => { u with inflight := [], requests := [] }

section

variable {s t : State} {op : Nat} {x : Desc}

theorem State.enlist_taken (s : State) (op : Nat) (x : Desc) : Taken s (s.enlist op x) := by
  refine ⟨fun f hf d i => rd_enlist s op x f d i hf.1 hf.2, ?_, fun h => ?_⟩
  · unfold enlist
    split
    · rfl
    · rw [(countOps_sameBut _ _).1]
      rfl
  · unfold enlist
    split
    · exact h
    · rw [(countOps_sameBut _ _).1]
      exact h

theorem State.Completes.of_enlist {st : Status} {result : Nat} (h : (s.enlist op x).Completes t op x st result) :
    s.Completes t op x st result := by
  obtain ⟨hi, hc⟩ := h
  refine ⟨hi.trans ?_, hc.trans ?_⟩
  · unfold enlist
    split
    · rfl
    · rw [(countOps_sameBut _ _).1]
      simp [Op.isFor]
  · have hr : (s.enlist op x).resultOf op st result = s.resultOf op st result := by
      rw [resultOf, resultOf, rd_enlist _ _ _ _ _ _ (by decide) (by decide)]
    rw [enlist_compl, enlist_rings, hr]

/-- A taken RESET is judged as it stood. -/
theorem State.enlist_judged (s : State) (op : Nat) (x : Desc) (d : Die) :
    (s.enlist op x).resets = s.resets ∧ (s.enlist op x).heldResets = s.heldResets ∧ (s.enlist op x).tally = s.tally ∧
      (s.enlist op x).dieInReset d = s.dieInReset d ∧ (s.enlist op x).reach d = s.reach d ∧
      (s.enlist op x).resetHeld d = s.resetHeld d := by
  have h := s.enlist_taken op x
  refine ⟨id (congrArg State.resets h.part :), id (congrArg State.heldResets h.part :), id (congrArg State.tally h.part :),
    h.on (by decide) _ _, ?_, ?_⟩
  · simp only [reach, h.on (f := .winzLinkUp) (by decide)]
  · rw [resetHeld, enlist_compl, resetHeld]

theorem resetDom_die_or_mem {d : Desc} (hb : s.resetBad d = false) (hs : bits d.arg0.toNat 1 0 ≠ 2) :
    resetDom d = 63 ∨ resetDom d ∈ d.mill.domains := by
  unfold resetDom
  split
  · exact .inl rfl
  next h =>
    have h4 : bits d.arg0.toNat 1 0 < 4 := Nat.mod_lt _ (by decide)
    unfold resetBad at hb
    simp only [Bool.or_eq_false_iff] at hb
    obtain ⟨⟨⟨⟨⟨⟨⟨-, h3⟩, -⟩, -⟩, -⟩, -⟩, h0⟩, -⟩ := hb
    have hz : bits d.arg0.toNat 1 0 = 0 := by
      have h1 : bits d.arg0.toNat 1 0 ≠ 1 := fun e => h (.inl e)
      have h3 : bits d.arg0.toNat 1 0 ≠ 3 := by simpa using h3
      omega
    rw [hz, beq_self_eq_true, Bool.true_and, Bool.or_eq_false_iff] at h0
    obtain ⟨hm, -⟩ := h0
    exact .inr (by simpa using hm)

/-- How a RESET in order is answered. -/
theorem exec_reset {d : Desc} (hb : s.resetBad d = false) (ha : s.Accepts 0x31 d) :
    exec (.reset d) s = .next (
      let s := s.enlist 0x31 d
      let t := d.mill
      if bits d.arg0.toNat 1 0 = 2 then
        let u := s.stopTally.packageLost.wrs .m0 0 [(.bootStarted, 1), (.chipPkgReset, 1)]
        match s.bootImage with
        | some i => u.bootWith i
        | none => u.bootFails
      else if (s.resets.any fun r => r.die == t) = true then s.finish 0x31 d .retry
      else if !s.dieInReset t && !(s.domDead t t.anchor && s.on .plannedDown t) && !s.reach t then
        (s.raise Reason.dieUnreachable (blkId t)).finish 0x31 d .retry
      else if s.resetHeld t || (s.heldResets.any fun o => o.desc.mill == t) || s.dieInReset t then
        { s with heldResets := s.heldResets ++ [⟨0x31, d⟩] }
      else s.startReset ⟨0x31, d⟩) :=
  congrArg _ (take_accepted ha hb rfl)

theorem exec_reset_runs {d : Desc} (hb : s.resetBad d = false) (ha : s.Accepts 0x31 d) (hs : bits d.arg0.toNat 1 0 ≠ 2)
    (hr : (s.resets.any fun r => r.die == d.mill) = true) :
    exec (.reset d) s = .next ((s.enlist 0x31 d).finish 0x31 d .retry) := by
  obtain ⟨h, -⟩ := s.enlist_judged 0x31 d d.mill
  rw [exec_reset hb ha]
  dsimp only
  rw [if_neg hs, h, if_pos hr]

/-- With no reset running on the die and the die in reach, a RESET starts or is held. -/
theorem exec_reset_reached {d : Desc} (hb : s.resetBad d = false) (ha : s.Accepts 0x31 d) (hs : bits d.arg0.toNat 1 0 ≠ 2)
    (hr : (s.resets.any fun r => r.die == d.mill) = false) (hi : s.dieInReset d.mill = false) (hl : s.reach d.mill = true) :
    exec (.reset d) s = .next (
      let e := s.enlist 0x31 d
      if s.resetHeld d.mill || s.heldResets.any fun o => o.desc.mill == d.mill then
        { e with heldResets := e.heldResets ++ [⟨0x31, d⟩] }
      else e.startReset ⟨0x31, d⟩) := by
  obtain ⟨h₁, h₂, -, h₃, h₄, h₅⟩ := s.enlist_judged 0x31 d d.mill
  rw [exec_reset hb ha]
  dsimp only
  rw [if_neg hs, h₁, hr, if_neg (by simp), h₄, hl, Bool.not_true, Bool.and_false, if_neg (by simp), h₅, h₃, hi, Bool.or_false]
  rw [h₂]

theorem exec_reset_package {d : Desc} (hb : s.resetBad d = false) (ha : s.Accepts 0x31 d) (hs : bits d.arg0.toNat 1 0 = 2) :
    exec (.reset d) s = .next (
      let e := s.enlist 0x31 d
      let u := e.stopTally.packageLost.wrs .m0 0 [(.bootStarted, 1), (.chipPkgReset, 1)]
      match e.bootImage with
      | some i => u.bootWith i
      | none => u.bootFails) := by
  rw [exec_reset hb ha]
  dsimp only
  rw [if_pos hs]

end

/-! ### The package reset (R638) -/

theorem State.rd_packageLost (s : State) (f : Fld) (d : Die) (i : Nat) :
    s.packageLost.rd f d i = if lossOf (f.key d i) = .surface then s.rd f d i else f.resetAt i := by
  rw [State.rd, packageLost, Cells.get, Cells.find_filter (fun k => lossOf k == .surface), resetOfKey_key]
  by_cases h : lossOf (f.key d i) = .surface
  · rw [if_pos (by simpa using h), if_pos h, State.rd, Cells.get, resetOfKey_key]
  · rw [if_neg (by simpa using h), if_neg h]
    rfl

/-- The package as a reset leaves it, before the boot. -/
def State.packageReset (s : State) : State := s.stopTally.packageLost.wrs .m0 0 [(.bootStarted, 1), (.chipPkgReset, 1)]

/-- The fields that say how a package reset went. -/
abbrev BootField (f : Fld) : Prop := f = .hostFwReady ∨ f = .chipPkgReset ∨ f = .bootReady ∨ f = .chipBootFailed

/-- What the boot sequence leaves once it has said how it went. -/
abbrev Booted : State → State → Prop := Keeps BootField State.blank

theorem State.packageReset_bootImage (s : State) : s.packageReset.bootImage = s.bootImage := by
  unfold packageReset stopTally
  split
  · rfl
  · rfl

theorem State.packageReset_flags (s : State) :
    s.packageReset.on .hostFwReady = false ∧ s.packageReset.on .chipPkgReset = true := by
  constructor
  · have h : (s.packageReset).rd .hostFwReady = s.stopTally.packageLost.rd .hostFwReady := by
      simp [packageReset, rd_wr]
    have hl : ¬ lossOf (Fld.hostFwReady.key .m0 0) = .surface := by decide
    rw [State.on, h, rd_packageLost, if_neg hl]
    decide
  · simp [packageReset, State.on, show Fld.chipPkgReset.row.width = 1 by decide]

theorem Keeps.booted {s₀ s t : State} {K : Fld → Prop} (h : Booted s₀ s) (k : Keeps K State.blank s t)
    (hK : K .hostFwReady ∧ K .chipPkgReset ∧ K .bootReady ∧ K .chipBootFailed) : Booted s₀ t := by
  obtain ⟨h₁, h₂, h₃, h₄⟩ := hK
  exact h.trans (k.weaken (fun _ hf => by rcases hf with rfl | rfl | rfl | rfl <;> assumption) id)

/-- An image accepted, as it is shown. -/
def State.bootShown (s : State) (i : BootImage) : State :=
  let s : State := { s with bootImage := some i }
  s.wrs .m0 0 [(.bootReady, 1), (.svnRunning, i.svn.toNat), (.chipMarchPreserve, b2n (i.marchMode == 1)),
    (.lkLocked, i.lockMask.toNat), (.hostBigRingSpace, b2n (s.has .b0))]

theorem State.bootWith_booted (s : State) (i : BootImage) : Booted (s.bootShown i) (s.bootWith i) := by
  unfold bootWith
  extract_lets s₁ s₂ s₃ s₄
  have h₃ : Booted s₂ s₃ := by
    dsimp only [s₃]
    split
    · exact Keeps.refl.wrP
    · exact .refl
  have h₄ : Booted s₂ s₄ := .foldl (fun u t hu =>
    have h₁ : Booted s₂ (u.wr .inReset t 63 (u.rd .railBad t)) := hu.wr
    h₁.booted (K := Underived) Keeps.refl.loadSections.repairMap.fgBegin (by decide)) h₃
  exact .foldl (fun _ _ hu => hu.booted (K := Unlinked) Keeps.refl.linksUp (by decide)) h₄

theorem State.bootShown_flags (s : State) (i : BootImage) :
    (s.bootShown i).on .hostFwReady = s.on .hostFwReady ∧ (s.bootShown i).on .chipPkgReset = s.on .chipPkgReset ∧
      (s.bootShown i).on .bootReady = true := by
  refine ⟨?_, ?_, ?_⟩
  · simp [bootShown, State.on, rd_wr]
  · simp [bootShown, State.on, rd_wr]
  · simp [bootShown, State.on, rd_wr, show Fld.bootReady.row.width = 1 by decide]

/-- A package reset, by the image that had booted before it. -/
theorem State.packageReset_boots {s t : State} (ht : t = match s.bootImage with
      | some i => s.packageReset.bootWith i
      | none => s.packageReset.bootFails) :
    t.tallyOn = false ∧ t.keys = [] ∧ t.rings = [] ∧ t.memory = [] ∧ t.on .hostFwReady = false ∧ t.on .chipPkgReset = true ∧
      t.bootImage = s.bootImage ∧ (s.bootImage.isSome = true → t.on .bootReady = true) ∧
      (s.bootImage = none → t.on .chipBootFailed = true) := by
  obtain ⟨hf, hp⟩ := s.packageReset_flags
  cases hi : s.bootImage with
  | none =>
    rw [hi] at ht
    subst ht
    refine ⟨rfl, rfl, rfl, rfl, ?_, ?_, s.packageReset_bootImage.trans hi, nofun, fun _ => ?_⟩
    · rwa [State.on, bootFails, wrP, rd_wr_ne _ _ _ _ _ _ (by simp)]
    · rwa [State.on, bootFails, wrP, rd_wr_ne _ _ _ _ _ _ (by simp)]
    · simp [State.on, bootFails, wrP, show Fld.chipBootFailed.row.width = 1 by decide]
  | some i =>
    rw [hi] at ht
    subst ht
    have h := s.packageReset.bootWith_booted i
    obtain ⟨hf', hp', hr⟩ := s.packageReset.bootShown_flags i
    refine ⟨h.tallyOn, h.noKeys rfl, h.rings, h.memory, (h.on (.inl rfl) _ _).trans (hf'.trans hf),
      (h.on (.inr (.inl rfl)) _ _).trans (hp'.trans hp), h.bootImage, fun _ => (h.on (.inr (.inr (.inl rfl))) _ _).trans hr, nofun⟩

/-! ### A reset ends (R636, R637, R646) -/

/-- What a domain reads of its reset and its state. -/
abbrev RunField (f : Fld) : Prop := f = .inReset ∨ f = .domState

section

variable {s₀ s t : State}

/-- What the end of a reset leaves. -/
abbrev Returned : State → State → Prop := Keeps RunField State.resets

theorem Keeps.sameResets (h : Returned s t) : t.resets = s.resets := h.part

theorem Keeps.returned {K : Fld → Prop} (h : Returned s₀ s) (k : Keeps K State.blank s t) (hK : K .inReset ∧ K .domState) :
    Returned s₀ t := by
  obtain ⟨h₁, h₂⟩ := hK
  exact h.trans (k.weaken (fun _ hf => by rcases hf with rfl | rfl <;> assumption) (congrArg State.resets))

theorem State.finish_events (s : State) (op : Nat) (x : Desc) (st : Status) (result : Nat) :
    (s.finish op x st result).events = s.events := by
  cases hx : s.inflight.any (·.isFor x) with
  | false => rw [finish_idle op st result hx]
  | true => rw [(finish_sameBut op st result hx).1]

theorem State.finish_not_inflight (s : State) (op : Nat) (x : Desc) (st : Status) (result : Nat) :
    (s.finish op x st result).inflight.any (·.isFor x) = false := by
  rw [finish_inflight]
  simp

/-- The operation of a reset ends with the event of R646. -/
theorem State.resetEnds (s : State) (o : Op) (b a0 : Nat) :
    let t := (s.raise Reason.resetDone b a0).finishOp o .ok
    Returned s t ∧ t.inflight.any (·.isFor o.desc) = false ∧ t.Announces Reason.resetDone := by
  refine ⟨Keeps.refl.raise.finishOp, finish_not_inflight .., ?_⟩
  unfold Announces finishOp
  rw [finish_events]
  exact announces_raise ..

/-! DOMAIN_RESET_DONE. -/

/-- A domain that returns to Run. -/
def State.domainReturns (s : State) (t : Die) (k : Nat) : State :=
  let s := (s.wrs t k [(.inReset, 0), (.domState, 0)]).clustersRun t [k]
  (if t.isFace ∧ k ≤ Dom.convRx then s.fgEnd t else s).gates t

theorem State.domainReturns_spec (s : State) (t : Die) (k : Nat) :
    (s.domainReturns t k).on .inReset t k = false ∧ (s.domainReturns t k).domSt t k = 0 ∧
      (s.domainReturns t k).resets = s.resets := by
  have h : Settled (s.wrs t k [(.inReset, 0), (.domState, 0)]) (s.domainReturns t k) := by
    unfold domainReturns
    extract_lets s₁
    have h₁ : Settled _ s₁ := Keeps.refl.clustersRun
    exact .gates (.ite h₁.fgEnd h₁)
  refine ⟨(h.on (f := .inReset) (by decide) _ _).trans ?_, (h.rd .domState (by decide) _ _).trans ?_, h.resets⟩
  · simp [State.on, rd_wr]
  · simp

theorem exec_domainResetDone {t : Die} {k : Fin 16} {r : ResetRun}
    (h : (s.resets.find? fun r => r.die == t && r.dom == k.val) = some r) :
    ∃ b a0, exec (.domainResetDone t k) s =
      .next (((State.domainReturns { s with resets := s.resets.erase r } t k).raise Reason.resetDone b a0).finishOp r.op .ok) := by
  change ∃ b a0, execDomainResetDone t k s = _
  unfold execDomainResetDone
  simp only [h]
  exact ⟨_, _, rfl⟩

/-! RESET_DONE. -/

theorem State.rd_foldl_wr_ne {f : Fld} {t : Die} {k : Nat} {l : List Nat} (h : k ∉ l) (s : State) :
    (l.foldl (fun s k => s.wr f t k 0) s).rd f t k = s.rd f t k := by
  induction l generalizing s with
  | nil => rfl
  | cons j l ih =>
    obtain ⟨hj, hl⟩ := not_or.mp fun e => h (List.mem_cons.mpr e)
    rw [List.foldl_cons, ih hl, rd_wr_ne _ _ _ _ _ _ fun e => hj e.2.2.symm]

theorem State.rd_foldl_wr_zero {f : Fld} {t : Die} {k : Nat} {l : List Nat} (h : k ∈ l) (s : State) :
    (l.foldl (fun s k => s.wr f t k 0) s).rd f t k = 0 := by
  induction l generalizing s with
  | nil => exact absurd h List.not_mem_nil
  | cons j l ih =>
    by_cases hk : k ∈ l
    · exact ih hk _
    · obtain rfl := (List.mem_cons.mp h).resolve_right hk
      rw [List.foldl_cons, rd_foldl_wr_ne hk, rd_wr_same, Nat.zero_mod]

theorem State.dieBack_spec (s : State) (t : Die) :
    (s.dieBack t).dieInReset t = false ∧ (∀ k ∈ t.domains, (s.dieBack t).domSt t k = 0) ∧ (s.dieBack t).resets = s.resets := by
  unfold dieBack
  extract_lets s₁ s₂ s₃
  have h₁ : Settled s s₁ := Keeps.refl.loadSections
  have h₂ : Keeps (· = .inReset) State.resets (s₁.wr .inReset t 63 0) s₂ := by
    have h : Settled (s₁.wr .inReset t 63 0) ((s₁.wr .inReset t 63 0).clustersRun t t.domains) := Keeps.refl.clustersRun
    exact .foldl (fun _ _ hu => hu.wr) (h.weaken (fun f hf => by subst hf; decide) (congrArg State.resets))
  have h₃ : Returned s₂ s₃ := .foldl (fun _ _ hu => hu.wr) .refl
  have h₄ : Returned s₂ (s₃.linksUp t) := h₃.returned (K := Unlinked) Keeps.refl.linksUp (by decide)
  have h₅ : Returned s₂ ((s₃.linksUp t).markStale t) := h₄.returned (K := Underived) Keeps.refl.markStale (by decide)
  refine ⟨(h₅.on (.inl rfl) _ _).trans ((h₂.on rfl _ _).trans ?_), fun k hk => (h₅.rd _ (.inr rfl) _ _).trans ?_,
    h₅.part.trans (h₂.part.trans h₁.resets)⟩
  · simp [State.on]
  · exact rd_foldl_wr_zero hk _

theorem State.dieReady_spec (s : State) (t : Die) :
    (s.dieReady t).dieInReset t = s.dieInReset t ∧ (s.dieReady t).resets = s.resets ∧
      (t ≠ .m0 → ∀ k, (s.dieReady t).domSt t k = s.domSt t k) := by
  unfold dieReady
  split
  · exact ⟨rfl, rfl, fun _ _ => rfl⟩
  · extract_lets s₁ s₂ s₃ s₄
    have h₁ : Settled s s₁ := Keeps.refl.clustersRun
    have h₂ : Settled s s₂ := .ite h₁.fgEnd h₁
    have h₃ : Settled s s₃ := .ite h₂ h₂.wrs
    have h₄ : Keeps (· = .inReset) State.resets s₃ s₄ := .ite Keeps.refl.wrs.wrs .refl
    have h₅ : Settled s₄ (s₄.gates t) := Keeps.refl.gates
    refine ⟨(h₅.on (by decide) _ _).trans ((h₄.on rfl _ _).trans (h₃.on (by decide) _ _)),
      h₅.resets.trans (h₄.part.trans h₃.resets), fun ht k => ?_⟩
    have he : s₄ = s₃ := if_neg fun h => ht h.1
    exact (h₅.rd .domState (by decide) _ _).trans (he ▸ h₃.rd .domState (by decide) _ _)

/-- A die that returns after its marches. -/
def State.dieReturns (s : State) (t : Die) (l : List MarchFail) : State :=
  (((s.repairMap t).marchLeaves t true l).1.dieBack t).dieReady t

theorem State.dieReturns_spec (s : State) (t : Die) (l : List MarchFail) :
    (s.dieReturns t l).dieInReset t = false ∧ (∀ k ∈ t.domains, t ≠ .m0 → (s.dieReturns t l).domSt t k = 0) ∧
      (s.dieReturns t l).resets = s.resets := by
  have h : Settled s ((s.repairMap t).marchLeaves t true l).1 := Keeps.refl.repairMap.marchLeaves
  obtain ⟨hi, hd, hr⟩ := ((s.repairMap t).marchLeaves t true l).1.dieBack_spec t
  obtain ⟨hi', hr', hd'⟩ := (((s.repairMap t).marchLeaves t true l).1.dieBack t).dieReady_spec t
  exact ⟨hi'.trans hi, fun k hk ht => (hd' ht k).trans (hd k hk), hr'.trans (hr.trans h.resets)⟩

theorem exec_resetDone {t : Die} {r : ResetRun} (faulty : List FaultyWord)
    (h : (s.resets.find? fun r => r.die == t && r.dom == 63) = some r) (hb : s.on .railBad t = false) :
    ∃ l b a0, exec (.resetDone t faulty) s =
      .next (((State.dieReturns { s with resets := s.resets.erase r } t l).raise Reason.resetDone b a0).finishOp r.op .ok) := by
  change ∃ l b a0, execResetDone t faulty s = _
  unfold execResetDone
  simp only [h, hb, Bool.false_eq_true, if_false]
  exact ⟨_, _, _, rfl⟩

end

/-- Settles O48: a RESET by its scope and what runs or is held, a held one and the ends of resets by the sections above. -/
theorem resetsOfDomainsDiesAndThePackage : Obligations.ResetsOfDomainsDiesAndThePackage := by
  refine ⟨fun d s hb ha => ?_, fun s o ho hw => ?_, fun die s => ⟨fun dom r hr => ?_, fun faulty r hr hrail => ?_⟩⟩
  · obtain ⟨he₁, he₂, he₃, -⟩ := s.enlist_judged 0x31 d d.mill
    refine ⟨fun hs hr _ => ⟨_, exec_reset_runs hb ha hs hr, (finish_completes _ _ _ (enlist_isFor ..)).of_enlist, ?_⟩,
      fun hs hr hi hl => ⟨fun hc ho hw => ?_, fun ⟨o, ho, hm⟩ => ?_⟩, fun hs => ⟨_, exec_reset_package hb ha hs, ?_⟩⟩
    · have hf : Returned (s.enlist 0x31 d) ((s.enlist 0x31 d).finish 0x31 d .retry) := Keeps.refl.finish
      exact hf.part.trans he₁
    · have hx : (s.resetHeld d.mill || s.heldResets.any fun o => o.desc.mill == d.mill) = false := by
        simpa [hc] using ho
      have hwe : ∀ j ∈ d.mill.domains, (s.enlist 0x31 d).domSt d.mill j ≤ 1 := fun j hj => by
        rw [domSt, (s.enlist_taken 0x31 d).rd _ (by decide)]
        exact hw j hj
      have hr : exec (.reset d) s = .next ((s.enlist 0x31 d).resetBegins ⟨0x31, d⟩) := by
        rw [exec_reset_reached hb ha hs hr hi hl]
        dsimp only
        rw [hx, if_neg (by simp), startReset_eq, wakeTarget_awake hwe (resetDom_die_or_mem hb hs)]
      obtain ⟨hin, hinc, hcrs⟩ := resetBegins_spec (s := s.enlist 0x31 d) (o := ⟨0x31, d⟩) rfl
      obtain ⟨ht, hrs, -⟩ : _ ∧ _ ∧ _ := by simpa only [course, Prod.mk.injEq] using hcrs
      refine ⟨_, hr, hin, hinc.trans ?_, hrs.trans (by rw [he₁]), ht.trans he₃⟩
      rw [(s.enlist_taken 0x31 d).rd _ (by decide)]
    · have hx : (s.resetHeld d.mill || s.heldResets.any fun o => o.desc.mill == d.mill) = true := by
        rw [List.any_eq_true.mpr ⟨o, ho, by simpa using hm⟩, Bool.or_true]
      have hr := exec_reset_reached hb ha hs hr hi hl
      dsimp only at hr
      rw [if_pos hx] at hr
      exact ⟨_, hr, congrArg (· ++ _) he₂, he₁, enlist_compl ..⟩
    · have hi : (s.enlist 0x31 d).bootImage = s.bootImage := id (congrArg State.bootImage (s.enlist_taken 0x31 d).part :)
      rw [← hi]
      exact packageReset_boots rfl
  · have hx : exec .resetHoldEnd s = .next (State.startReset { s with heldResets := s.heldResets.erase o } o) := by
      change execResetHoldEnd s = _
      unfold execResetHoldEnd
      dsimp only
      rw [ho]
    have hk : Woken { s with heldResets := s.heldResets.erase o } (State.wakeTarget _ o.desc.mill (resetDom o.desc)) :=
      Keeps.refl.wakeTarget
    obtain ⟨hin, -, hcrs⟩ := resetBegins_spec (startReset_eq { s with heldResets := s.heldResets.erase o } o)
    obtain ⟨-, hwr, hwh⟩ : _ ∧ _ ∧ _ := by simpa only [course, Prod.mk.injEq] using hk.part
    obtain ⟨-, hrs, hh⟩ : _ ∧ _ ∧ _ := by simpa only [course, Prod.mk.injEq] using hcrs
    exact ⟨_, hx, hh.trans hwh, hin, hrs.trans (congrArg (· ++ _) hwr)⟩
  · obtain ⟨b, a0, hx⟩ := exec_domainResetDone hr
    obtain ⟨hi, hd, hrs⟩ := State.domainReturns_spec { s with resets := s.resets.erase r } die dom
    obtain ⟨he, hf, hv⟩ := State.resetEnds (State.domainReturns { s with resets := s.resets.erase r } die dom) r.op b a0
    exact ⟨_, hx, he.sameResets.trans hrs, (he.on (.inl rfl) _ _).trans hi, (he.rd _ (.inr rfl) _ _).trans hd, hf, hv⟩
  · obtain ⟨l, b, a0, hx⟩ := exec_resetDone faulty hr hrail
    obtain ⟨hi, hd, hrs⟩ := State.dieReturns_spec { s with resets := s.resets.erase r } die l
    obtain ⟨he, hf, hv⟩ := State.resetEnds (State.dieReturns { s with resets := s.resets.erase r } die l) r.op b a0
    exact ⟨_, hx, he.sameResets.trans hrs, (he.on (.inl rfl) die 63).trans hi,
      fun k hk ht => (he.rd .domState (.inr rfl) die k).trans (hd k hk ht), hf, hv⟩

end Sys2Proof.Machine

/-! ## Steps and the state at power-on -/

namespace Sys2Proof.Machine

set_option Elab.async false

open State

/-- Settles O1: the three branches of `step` and of its tick. -/
theorem stepRunsTheCommandInFront : Obligations.StepRunsTheCommandInFront := by
  refine ⟨fun _ _ _ => rfl, fun s hp => ?_⟩
  have hs : step s = .next s.tick := by
    unfold step
    rw [hp]
  refine ⟨fun hon => ?_, fun hoff => ⟨s.bump .surfTicks .m0, ?_, ?_, (SameBut.refl _ s).bump _ _ _ _ (by simp)⟩⟩
  · rw [hs, tick, if_pos hon]
  · rw [hs, tick, if_neg (by simp [hoff])]
  · rw [rd_bump, if_pos ⟨rfl, rfl, rfl⟩, show Fld.surfTicks.row.width = 48 by decide]

/-- Settles O2: each register of `State.reset` reads its row's reset value, and every store is empty. -/
theorem resetLeavesTheTabledValues : Obligations.ResetLeavesTheTabledValues := by
  unfold Obligations.ResetLeavesTheTabledValues
  refine ⟨rfl, rfl, rfl, rfl, rfl, rfl, ?_, ?_, ?_, ?_, ?_, ?_, ?_, ?_, ?_, ?_, ?_, ?_, ?_⟩
  all_goals decide

end Sys2Proof.Machine

/-! ## A staged write that finds the queue full -/

namespace Sys2Proof.Machine

set_option Elab.async false

open State

/-- A raised event is pending: its own entry, or the one that it joins. -/
theorem State.mem_events_raise (s : State) (r b a0 a1 : Nat) (far : Option Nat) :
    ∃ e ∈ (s.raise r b a0 a1 far).events, e.reason = r ∧ e.block = b := by
  unfold State.raise
  rw [raiseAs_def]
  unfold eventsWith
  dsimp only
  split
  next h =>
    obtain ⟨e, he, hsame⟩ := List.any_eq_true.mp h
    refine ⟨_, List.mem_map.mpr ⟨e, he, rfl⟩, ?_⟩
    rw [if_pos hsame]
    simp only [Bool.and_eq_true, beq_iff_eq] at hsame
    obtain ⟨⟨⟨hreason, hblock⟩, -⟩, -⟩ := hsame
    exact ⟨hreason, hblock⟩
  · exact ⟨_, List.mem_append_right _ (List.mem_singleton_self _), rfl, rfl⟩

theorem blkId_die (d : Die) (k j : Nat) : blkId d k j / 4096 = d.code := by
  unfold blkId
  omega

/-- `t` is `s` with SHIFT_WQ_FULL of a die pending. -/
abbrev State.QueueFull (s t : State) (d : Die) : Prop :=
  t = { s with events := t.events } ∧ ∃ e ∈ t.events, e.reason = Reason.shiftWqFull ∧ e.block / 4096 = d.code

theorem State.queueFull_raise (s : State) (d : Die) : s.QueueFull (s.raise Reason.shiftWqFull (blkId d d.anchor)) d := by
  obtain ⟨e, he, hr, hb⟩ := s.mem_events_raise Reason.shiftWqFull (blkId d d.anchor) 0 0 none
  exact ⟨raise_eq .., e, he, hr, hb ▸ blkId_die ..⟩

theorem State.shWrite_full {s : State} {w : Window} (hz : s.on .viewFrozen w.store = true)
    (hn : 256 ≤ (s.held.filter (·.die == w.store)).length) (off val : Nat) :
    s.shWrite w off val = s.raise Reason.shiftWqFull (blkId w.store w.store.anchor) := by
  unfold shWrite
  dsimp only
  rw [hz, if_neg (by simp), if_neg (by omega)]

/-- Settles O59: the three ways to a staged write end in `State.shWrite`, which only raises the event. -/
theorem fullQueueDiscardsStagedWrites : Obligations.FullQueueDiscardsStagedWrites := by
  intro s w hz hn
  have full (off val : Nat) : s.QueueFull (s.shWrite w off val) w.store := by
    rw [shWrite_full hz hn]
    exact queueFull_raise ..
  refine ⟨full, fun a b0 b1 b2 b3 fs h4 ha ⟨e, he, hsh⟩ hacc ht hr => ⟨_, ?_, full (a.toNat % 0x400000) (leNat [b0, b1, b2, b3])⟩,
    fun hw data => ⟨_, ?_, full symRateOff (leNat data)⟩⟩
  · have hne (c : Acc) (hs : Acc.sh ≠ c) (hr : Acc.ro ≠ c) : ∀ e ∈ fs, e.1.row.acc ≠ c := fun e he h =>
      (hacc e he).elim (fun h' => hs (h' ▸ h)) (fun h' => hr (h' ▸ h))
    rw [exec_registerWrite_word b0 b1 b2 b3 h4, regWord_word ha,
      writeFields_quiet ht hr (fun e he => not_mem_writtenFields (hne .rw (by decide) (by decide) e he))
        (hne .wo (by decide) (by decide)), storeFields_of_staged hacc,
      if_pos (List.any_eq_true.mpr ⟨e, he, decide_eq_true hsh⟩)]
  · rw [hw]
    rfl

end Sys2Proof.Machine

/-! ## The tally set by the host -/

namespace Sys2Proof.Machine

set_option Elab.async false

open State

theorem State.noTransmitter_iff {s : State} :
    s.noTransmitter = true ↔ ∀ n < 4, s.hasCarrier n = true → s.on .dacTxEnable (faceOf n) = false := by
  simp only [noTransmitter, List.all_eq_true, List.mem_range, Bool.not_eq_true', Bool.and_eq_false_imp]

/-- The tally as TALLY_SET leaves it: the new SF at the present offset, its origin known (R89, R90). -/
def State.tallyAt (s : State) (sf : Nat) : State := State.wrP { s with tally := sf * sfLen + s.sfOff } .tallyOriginLost 0

theorem State.tallySet_accepted {s : State} {hi : Nat} (hl : s.on .tallyOriginLost = true ∨ s.noTransmitter = true)
    (h : s.sf < s.rd .tallySetSfLo + 2 ^ 32 * hi) :
    s.tallySet hi = let t := s.tallyAt (s.rd .tallySetSfLo + 2 ^ 32 * hi)
      if s.tallyOn then t
      else t.wrs .m0 0 [(.surfHeldSf, s.rd .tallySetSfLo + 2 ^ 32 * hi), (.surfEverHeld, 1)] := by
  unfold tallySet
  dsimp only
  rw [if_pos (by simpa only [h, decide_true, Bool.and_true, Bool.or_eq_true] using hl)]
  rfl

theorem State.tallySet_discarded {s : State} {hi : Nat}
    (h : ¬ (s.on .tallyOriginLost = true ∨ s.noTransmitter = true) ∨ s.rd .tallySetSfLo + 2 ^ 32 * hi ≤ s.sf) :
    s.tallySet hi = s.raiseField .tallySetSfHi .m0 := by
  unfold tallySet
  dsimp only
  refine if_neg ?_
  rw [Bool.and_eq_true, Bool.or_eq_true, decide_eq_true_eq]
  rintro ⟨hl, hlt⟩
  exact h.elim (· hl) (Nat.not_le.mpr hlt)

theorem State.sf_tallyAt (s : State) (sf : Nat) : (s.tallyAt sf).sf = sf := by
  have ho : s.sfOff < sfLen := Nat.mod_lt _ (by decide)
  rw [State.sf, tallyAt, wrP, wr_tally, Nat.mul_comm, Nat.mul_add_div (by decide), Nat.div_eq_of_lt ho, Nat.add_zero]

theorem State.on_tallyAt_originLost (s : State) (sf : Nat) : (s.tallyAt sf).on .tallyOriginLost = false := by
  simp [tallyAt, on, wrP]

/-- Settles O60: the two branches of `State.tallySet`; a stopped tally is held by the surface domain besides. -/
theorem tallyIsSetForwardOnly : Obligations.TallyIsSetForwardOnly := by
  intro hi s new op
  have hopen : op ↔ s.on .tallyOriginLost = true ∨ s.noTransmitter = true := by rw [noTransmitter_iff]
  refine ⟨fun ho hlt => ?_, fun hn => ?_⟩
  · have hx : exec (.tallySet hi) s = .next _ := congrArg Host.Outcome.next (tallySet_accepted (hopen.mp ho) hlt)
    refine ⟨_, hx, ?_⟩
    dsimp only
    split
    next hon =>
      exact ⟨sf_tallyAt .., on_tallyAt_originLost .., fun _ => (SameBut.refl _ _).wr _ _ _ _ (by simp)⟩
    next hoff =>
      refine ⟨sf_tallyAt s new, ?_, fun h => absurd h hoff⟩
      rw [on, wrs_cons, wrs_cons, wrs_nil, rd_wr_ne _ _ _ _ _ _ (by simp), rd_wr_ne _ _ _ _ _ _ (by simp)]
      exact on_tallyAt_originLost ..
  · have hx : exec (.tallySet hi) s = .next (s.raiseField .tallySetSfHi .m0) :=
      congrArg Host.Outcome.next (tallySet_discarded (hn.imp_left (mt hopen.mpr)))
    obtain ⟨e, he, hr, -⟩ := s.mem_events_raise Reason.fieldEvent (Fld.block .tallySetSfHi .m0 0) _ 0 none
    exact ⟨_, hx, raise_eq .., e, he, hr⟩

end Sys2Proof.Machine

/-! ## Statements that some states break

Each statement below speaks of every state, and fails in one that its hypotheses allow. The states are built here and the model runs on
them; nothing is said of whether the package gets into them. -/

namespace Sys2Proof.Machine

set_option Elab.async false

open State

/-- An outcome is a next state of which a test holds. -/
def NextIs (p : State → Bool) : Host.Outcome State Fault Refusal → Bool
  | .next t => p t
  | .fault _ | .refused _ => false

theorem of_nextIs {o : Host.Outcome State Fault Refusal} {t : State} {p : State → Bool} (h : NextIs p o = true)
    (ht : o = .next t) : p t = true := by
  rwa [ht] at h

/-- The package at power-on but for fw_ready: the registers of M0 answer. -/
def State.answering : State := State.reset.wrP .hostFwReady 1

/-! ### A mark wider than its register -/

/-- A register store in which M0's `unfinished` of carrier 0, seven bits wide, holds 200. -/
def State.overfull : State := { State.answering with regs := Cells.put (Fld.decUnfinished.key .m0 0) 200 State.answering.regs }

/-- Refutes O8: the statement lets `unfinished` be below 2^11, and the seven bits of its mark take 200 as 72. -/
theorem not_latchingReadsLatchAndPeaksRestart : ¬ Obligations.LatchingReadsLatchAndPeaksRestart := by
  rintro ⟨-, -, -, h, -⟩
  have ha : overfull.dieAccess .m0 (Fld.offsetAt .decUnfinishedHwm 0) =
      .word (.die .m0) (wordAt (.die .m0) (Fld.offsetAt .decUnfinishedHwm 0)) := by decide +kernel
  have hu : overfull.rd .decUnfinished .m0 0 = 200 := by decide +kernel
  obtain ⟨t, ht, hw, -⟩ := h 0 0 overfull _ _ ha (hu.trans_lt (by decide))
  have hr : NextIs (fun t => t.rd .decUnfinishedHwm .m0 0 == 72) (exec (.unfinishedHwmRead 0 0) overfull) = true := by
    decide +kernel
  have h72 : t.rd .decUnfinishedHwm .m0 0 = 72 := beq_iff_eq.mp (of_nextIs hr ht)
  have h200 : t.rd .decUnfinishedHwm .m0 0 = 200 := hw.trans hu
  omega

/-! ### A word that rests on a free value -/

/-- M0's result queue is empty, and a free value stands for its word. -/
def State.strayFree : State := { State.answering with freeRegs := [(Fld.auxQResult.key .m0 0, 1)] }

/-- Refutes O51: AUX_Q_LO is read-only, so a free value listed for it is what the empty queue answers. -/
theorem not_auxiliaryResultsPoppedAndSampledTogether : ¬ Obligations.AuxiliaryResultsPoppedAndSampledTogether := by
  rintro ⟨h, -⟩
  have ha : strayFree.dieAccess .m0 (Fld.offsetAt .auxQResult 0) =
      .word (.die .m0) (wordAt (.die .m0) (Fld.offsetAt .auxQResult 0)) := by decide +kernel
  obtain ⟨-, hempty⟩ := h .m0 strayFree _ _ rfl ha rfl
  obtain ⟨t, ht, h0, -⟩ := hempty rfl
  have hr : NextIs (fun t => t.readData == 1) (exec (.auxQPop .m0) strayFree) = true := by decide +kernel
  have h1 : t.readData = 1 := beq_iff_eq.mp (of_nextIs hr ht)
  omega

/-! ### A commit that no SHIFT_COMMIT began -/

/-- A NOP of ring 0. -/
def bareNop : Op := ⟨0x00, ⟨0, 0, 0, false, false, 0, 0, 0, 0, 0, 0, 0⟩⟩

/-- A commit at SF 0 whose operation is a NOP, with M0's answer to come. -/
def nopCommit : Commit :=
  { op := bareNop, target := 0, rx := [], dies := [(.m0, 0)], replies := [], goSent := false, go := [], txLeft := [], rxLeft := [],
    grpLeft := [] }

/-- Such a commit under way at sequence number 1, M0's answer on its way. -/
def State.nopCommits : State :=
  { State.reset.wrs .m0 0 [(.shiftSeq, 1), (.shiftAnswer, 1)] with
    rings := [(0, Ring.new 0 0 6 0x1000 1 0 true 0 0 0 0)], inflight := [bareNop], commit := some nopCommit }

/-- The sequence number is the result of a SHIFT_COMMIT alone (`State.resultOf`): a NOP that ends LATE answers 0. -/
theorem nopCommits_not_completes {o : Host.Outcome State Fault Refusal} {t : State}
    (h : NextIs (fun t => t.compl.map (·.result) == [0]) o = true) (ht : o = .next t) :
    ¬ nopCommits.Completes t nopCommit.op.opcode nopCommit.op.desc .late (nopCommits.rd .shiftSeq) := by
  rintro ⟨-, hc⟩
  have h0 : t.compl.map (·.result) = [0] := beq_iff_eq.mp (of_nextIs h ht)
  have h1 : t.compl.map (·.result) = [1] := by
    rw [hc]
    decide +kernel
  exact absurd (h0.symm.trans h1) (by decide)

/-- Refutes O55: of an answer after the deadline the statement claims the sequence number as the result, whatever operation the commit
names. -/
theorem not_commitsTakenPreparedAndAnswered : ¬ Obligations.CommitsTakenPreparedAndAnswered := by
  rintro ⟨-, h⟩
  obtain ⟨-, h⟩ := h .m0 nopCommits
  obtain ⟨-, hlate, -⟩ := h nopCommit rfl (by decide) rfl ⟨_, List.mem_singleton_self _, rfl⟩ (by decide)
  obtain ⟨t, ht, -, hc⟩ := hlate (by decide) (by decide) (by decide) (by decide) rfl (by decide)
  exact nopCommits_not_completes (by decide +kernel) ht hc

/-- Refutes O56: so it does of a deadline with an answer missing. -/
theorem not_goAheadSwapsCancelAndCompletion : ¬ Obligations.GoAheadSwapsCancelAndCompletion := by
  rintro ⟨-, h⟩
  obtain ⟨hdeadline, -⟩ := h nopCommits nopCommit rfl
  obtain ⟨-, hlate⟩ := hdeadline rfl (by decide)
  obtain ⟨t, ht, -, hc, -⟩ := hlate (by decide) (by decide) (by decide) rfl (by decide)
  exact nopCommits_not_completes (by decide +kernel) ht hc

/-! ### A far tally left valid while FRAME sleeps -/

/-- A commit whose receive swap of carrier 0 waits for far SF 1. -/
def awaitingCommit : Commit := { nopCommit with goSent := true, go := [.m0], rxLeft := [0], rx := [1] }

/-- A completed commit left M0 its reload; its FRAME domain sleeps, and the far tally of carrier 0 still counts as valid. -/
def State.reloadsAsleep : State :=
  { (State.reset.wrs .m0 0 [(.viewFrozen, 1), (.reloadDue, 1), (.farValid, 1)]).wr .domState .m0 Dom.frame 2 with
    commit := some awaitingCommit }

/-- Refutes O57: the reload ends that far tally (`State.frameDown`), and the commit under way notes that carrier 0 swaps at the predicted
position (R73), so it is not as it was. -/
theorem not_reloadAnnouncementsAndTableLoads : ¬ Obligations.ReloadAnnouncementsAndTableLoads := by
  rintro ⟨h, -⟩
  obtain ⟨t, ht, -, -, -, -, hc, -⟩ := h .m0 reloadsAsleep (by decide) (.inl (by decide))
  have hr : NextIs (fun t => t.commit == some { awaitingCommit with predict := [0] })
      (exec (.offshiftReload .m0) reloadsAsleep) = true := by decide +kernel
  have hp : t.commit = some { awaitingCommit with predict := [0] } := beq_iff_eq.mp (of_nextIs hr ht)
  exact absurd (congrArg (Option.map Commit.predict) (hp.symm.trans hc)) (by decide)

end Sys2Proof.Machine

/-! ## Start-up -/

namespace Sys2Proof.Machine

set_option Elab.async false

open State

/-! ### What the return of dies leaves -/

/-- What a boot and dies that return move beside what follows from the state: the resets and states of domains, the links, and
the clock's tolerance, which an image may set. -/
def returnFields : List Fld :=
  [.tallySurfPpm, .inReset, .domState, .winzLocalIncarnation, .winzLinkUp, .winzPeerIncarnation]

abbrev Unreturned (f : Fld) : Prop := f ∉ returnFields ++ derivedFields

/-- `t` is `s` with dies returned. -/
abbrev DiesBack : State → State → Prop := Keeps Unreturned State.blank

section

variable {s₀ s t : State}

theorem unreturned_unlinked {f : Fld} (h : Unreturned f) : Unlinked f := by
  unfold Unreturned Unlinked returnFields at *
  simp only [List.cons_append, List.nil_append, List.mem_cons, not_or] at h ⊢
  obtain ⟨-, -, -, -, hl, hp, hd⟩ := h
  exact ⟨hl, hp, hd⟩

theorem Keeps.diesBack {K : Fld → Prop} (h : DiesBack s₀ s) (k : Keeps K State.blank s t) (hK : ∀ f, Unlinked f → K f) :
    DiesBack s₀ t := h.trans (k.weaken (fun _ hf => hK _ (unreturned_unlinked hf)) id)

theorem underived_of_unlinked (f : Fld) (h : Unlinked f) : Underived f := fun hm =>
  h (List.mem_cons_of_mem _ (List.mem_cons_of_mem _ hm))

theorem Keeps.backSettled (h : DiesBack s₀ s) (k : Settled s t) : DiesBack s₀ t := h.diesBack k underived_of_unlinked

theorem Keeps.backLinks {d : Die} (h : DiesBack s₀ s) : DiesBack s₀ (s.linksUp d) :=
  h.diesBack (K := Unlinked) Keeps.refl.linksUp fun _ => id

theorem Keeps.dieBack {d : Die} (h : DiesBack s₀ s) : DiesBack s₀ (s.dieBack d) := by
  unfold State.dieBack
  extract_lets s₁ s₂ s₃
  have h₁ : DiesBack s₀ s₁ := h.backSettled Keeps.refl.loadSections
  have h₂ : DiesBack s₀ s₂ := .foldl (fun _ _ hu => hu.wr) (h₁.wr.backSettled Keeps.refl.clustersRun)
  have h₃ : DiesBack s₀ s₃ := .foldl (fun _ _ hu => hu.wr) h₂
  exact h₃.backLinks.backSettled Keeps.refl.markStale

theorem Keeps.dieReady {d : Die} (h : DiesBack s₀ s) : DiesBack s₀ (s.dieReady d) := by
  unfold State.dieReady
  extract_lets s₁ s₂ s₃ s₄
  have h₁ : DiesBack s₀ s₁ := h.backSettled Keeps.refl.clustersRun
  have h₂ : DiesBack s₀ s₂ := .ite (h₁.backSettled Keeps.refl.fgEnd) h₁
  have h₃ : DiesBack s₀ s₃ := .ite h₂ h₂.wrs
  have h₄ : DiesBack s₀ s₄ := .ite h₃.wrs.wrs h₃
  exact .ite h (h₄.backSettled Keeps.refl.gates)

end

/-! ### An image boots, or none does (R628 to R631) -/

/-- The fields that the boot of an image shows. -/
def shownFields : List Fld := [.bootReady, .svnRunning, .chipMarchPreserve, .lkLocked, .hostBigRingSpace]

/-- `t` is `s` after an image has booted, its registers compared alone. -/
abbrev ImageRuns : State → State → Prop := Keeps (· ∉ shownFields ++ returnFields ++ derivedFields) fun _ => ()

theorem Keeps.imageRuns {s₀ s t : State} (h : ImageRuns s₀ s) (k : DiesBack s t) : ImageRuns s₀ t :=
  h.trans (k.weaken (fun f hf => by rw [List.append_assoc] at hf; exact fun hm => hf (List.mem_append_right _ hm)) fun _ => rfl)

theorem State.bootWith_diesBack (s : State) (i : BootImage) : DiesBack (s.bootShown i) (s.bootWith i) := by
  unfold bootWith
  extract_lets s₁ s₂ s₃ s₄
  have h₃ : DiesBack s₂ s₃ := by
    dsimp only [s₃]
    split
    · exact Keeps.refl.wrP
    · exact .refl
  have h₄ : DiesBack s₂ s₄ := .foldl (fun u t hu =>
    have h₁ : DiesBack s₂ (u.wr .inReset t 63 (u.rd .railBad t)) := hu.wr
    h₁.backSettled Keeps.refl.loadSections.repairMap.fgBegin) h₃
  exact .foldl (fun _ _ hu => hu.backLinks) h₄

theorem State.bootWith_imageRuns (s : State) (i : BootImage) : ImageRuns s (s.bootWith i) := by
  refine Keeps.imageRuns (s := s.bootShown i) ?_ (s.bootWith_diesBack i)
  unfold bootShown
  extract_lets u
  have hu : ImageRuns s u := Keeps.refl.frame
  exact hu.wrs

theorem State.bootWith_shows (s : State) (i : BootImage) :
    (s.bootWith i).on .bootReady = true ∧ (s.bootWith i).bootImage = some i ∧ (s.bootWith i).rd .svnRunning = i.svn.toNat := by
  have h := s.bootWith_diesBack i
  obtain ⟨-, -, hr⟩ := s.bootShown_flags i
  refine ⟨(h.on (by decide) _ _).trans hr, h.bootImage, (h.rd .svnRunning (by decide) _ _).trans ?_⟩
  have hv : i.svn.toNat % 2 ^ Fld.svnRunning.row.width = i.svn.toNat := Nat.mod_eq_of_lt i.svn.isLt
  simpa [bootShown, rd_wr] using hv

/-- The check of an image looks at the configuration and the fuses. -/
theorem State.bootCheck_congr {s t : State} (i : BootImage)
    (h : ∀ f ∈ [Fld.chipConfig, .fuseKeyHash, .fuseKeyRevoked, .chipSvnFused], ∀ d j, t.rd f d j = s.rd f d j) :
    t.bootCheck i = s.bootCheck i := by
  simp only [List.forall_mem_cons] at h
  obtain ⟨hc, hh, hr, hv, -⟩ := h
  simp only [bootCheck, part, keyFused, on, hc, hh, hr, hv]
  rfl

theorem State.bootCheck_mod (s : State) (i : BootImage) : s.bootCheck i % 2 ^ 4 = s.bootCheck i := by
  unfold bootCheck
  repeat' split
  all_goals rfl

theorem State.bootCheck_wrP {s : State} {f : Fld} (i : BootImage) (v : Nat)
    (hf : f ∉ [Fld.chipConfig, .fuseKeyHash, .fuseKeyRevoked, .chipSvnFused] := by decide) :
    (s.wrP f v).bootCheck i = s.bootCheck i :=
  bootCheck_congr i fun _ hg _ _ => rd_wr_ne _ _ _ _ _ _ fun e => hf (e.1 ▸ hg)

/-! The four ends of a boot from flash (R629). -/

section

variable {s : State} {p q : BootImage} {fb : Bool}

theorem State.bootFlash_primary (h : s.bootCheck p = 0) : s.bootFlash fb p q = s.bootWith p := if_pos h

theorem State.bootFlash_alone (h : s.bootCheck p ≠ 0) :
    s.bootFlash false p q = (s.wrP .chipBootFailReason (s.bootCheck p)).bootFails := by
  unfold bootFlash
  rw [if_neg h]
  rfl

theorem State.bootFlash_secondary (h : s.bootCheck p ≠ 0) (hq : s.bootCheck q = 0) :
    s.bootFlash true p q = ((s.wrP .chipBootFailReason (s.bootCheck p)).wrP .chipBootFallback 1).bootWith q := by
  unfold bootFlash
  dsimp only
  rw [if_neg h, if_neg (by simp), bootCheck_wrP, if_pos hq]

theorem State.bootFlash_neither (h : s.bootCheck p ≠ 0) (hq : s.bootCheck q ≠ 0) :
    s.bootFlash true p q =
      ((s.wrP .chipBootFailReason (s.bootCheck p)).wrP .chipSecFailReason (s.bootCheck q)).bootFails := by
  unfold bootFlash
  dsimp only
  rw [if_neg h, if_neg (by simp), bootCheck_wrP, if_neg hq]

end

/-! ### PORST_RISE (R624, R629) -/

/-- What PORST_RISE writes before the boot: the straps, and a boot record with no failure. -/
def strapRecord (x : Straps) : List (Fld × Nat) :=
  [(.bootStarted, 1), (.chipBootsel, x.bootsel.toNat), (.chipPkgId, x.pkgId.toNat), (.i2cAddr, x.i2cAddr.toNat),
    (.chipBootFallback, 0), (.chipBootFailed, 0), (.chipBootFailReason, 0), (.chipSecFailReason, 0), (.chipMarchPreserve, 0)]

/-- The straps latched. -/
def State.strapped (s : State) (x : Straps) : State :=
  let s := s.wrs .m0 0 (strapRecord x)
  let s := if s.on .surfEverHeld then s else s.wrP .chipPor 1
  { s with recovery := none }

/-- The boot that the straps select. -/
def State.bootBy (s : State) (x : Straps) (p q : BootImage) : State :=
  match x.bootsel.toNat with
  | 2 => s
  | b => s.bootFlash (b != 1) p q

theorem exec_porstRise {s : State} {x : Straps} {p q : BootImage} (hb : s.on .bootStarted = false)
    (ho : s.rd .pkgOff = 0) (hr : s.on .railBad .m0 = false) :
    exec (.porstRise x p q) s = .next ((s.strapped x).bootBy x p q) := by
  refine (if_neg (by simp [hb, ho, hr])).trans ?_
  rfl

section

variable {s : State} {x : Straps} {p q : BootImage}

theorem State.bootBy_recovery (h : x.bootsel.toNat = 2) : s.bootBy x p q = s := by
  unfold bootBy
  split
  · rfl
  next h2 => exact absurd h h2

theorem State.bootBy_flash (h : x.bootsel.toNat ≠ 2) : s.bootBy x p q = s.bootFlash (x.bootsel.toNat != 1) p q := by
  unfold bootBy
  split
  next h2 => exact absurd h2 h
  · rfl

theorem State.strapped_keeps (s : State) (x : Straps) :
    Keeps (· ≠ .chipPor) (fun _ => ()) (s.wrs .m0 0 (strapRecord x)) (s.strapped x) := by
  unfold strapped
  extract_lets u v
  have h : Keeps (· ≠ .chipPor) (fun _ => ()) u v := .ite .refl Keeps.refl.wrP
  exact h.frame

/-- A field that PORST_RISE does not write reads as before. -/
theorem State.rd_strapped_ne {f : Fld} (hp : f ≠ .chipPor) (hf : f ∉ (strapRecord x).map Prod.fst) (d : Die) (i : Nat) :
    (s.strapped x).rd f d i = s.rd f d i := by
  have h : Keeps (· ∉ (strapRecord x).map Prod.fst) (fun _ => ()) s (s.wrs .m0 0 (strapRecord x)) :=
    Keeps.refl.wrs fun _ hf h => h hf
  rw [(s.strapped_keeps x).rd f hp, h.rd f hf]

theorem State.bootCheck_strapped (i : BootImage) : (s.strapped x).bootCheck i = s.bootCheck i := by
  have h : ∀ f ∈ [Fld.chipConfig, .fuseKeyHash, .fuseKeyRevoked, .chipSvnFused],
      f ≠ .chipPor ∧ f ∉ (strapRecord x).map Prod.fst := by
    simp only [strapRecord, List.map_cons, List.map_nil]
    decide
  exact bootCheck_congr i fun f hf => rd_strapped_ne (h f hf).1 (h f hf).2

/-- The straps as they read once latched, with no failure on record. -/
theorem State.strapped_reads (s : State) (x : Straps) :
    (s.strapped x).on .bootStarted = true ∧ (s.strapped x).rd .chipBootsel = x.bootsel.toNat ∧
      (s.strapped x).rd .chipPkgId = x.pkgId.toNat ∧ (s.strapped x).rd .i2cAddr = x.i2cAddr.toNat ∧
      (s.strapped x).on .chipBootFallback = false ∧ (s.strapped x).on .chipBootFailed = false := by
  have hk := s.strapped_keeps x
  have hb : x.bootsel.toNat % 2 ^ Fld.chipBootsel.row.width = x.bootsel.toNat := Nat.mod_eq_of_lt x.bootsel.isLt
  have hp : x.pkgId.toNat % 2 ^ Fld.chipPkgId.row.width = x.pkgId.toNat := Nat.mod_eq_of_lt x.pkgId.isLt
  have hi : x.i2cAddr.toNat % 2 ^ Fld.i2cAddr.row.width = x.i2cAddr.toNat := Nat.mod_eq_of_lt x.i2cAddr.isLt
  simp only [hk.on (f := .bootStarted) (by decide), hk.rd .chipBootsel (by decide), hk.rd .chipPkgId (by decide),
    hk.rd .i2cAddr (by decide), hk.on (f := .chipBootFallback) (by decide), hk.on (f := .chipBootFailed) (by decide)]
  simp only [on, strapRecord, wrs_cons, wrs_nil, rd_wr, reduceCtorEq, and_self, if_true, if_false, false_and]
  exact ⟨by decide, hb, hp, hi, by decide, by decide⟩

end

/-- `t` is `s` after a boot from flash, its registers compared alone. -/
abbrev Flashed : State → State → Prop :=
  Keeps (· ∉ [Fld.chipBootFailReason, .chipSecFailReason, .chipBootFallback, .chipBootFailed] ++
    (shownFields ++ returnFields ++ derivedFields)) fun _ => ()

theorem Keeps.flashed {s₀ s t : State} (h : Flashed s₀ s) (k : ImageRuns s t) : Flashed s₀ t :=
  h.trans (k.weaken (fun _ hf hm => hf (List.mem_append_right _ hm)) id)

theorem State.bootBy_flashed (s : State) (x : Straps) (p q : BootImage) : Flashed s (s.bootBy x p q) := by
  have hw {u v : State} (i : BootImage) (h : Flashed u v) : Flashed u (v.bootWith i) := h.flashed (v.bootWith_imageRuns i)
  have hflash (fb : Bool) : Flashed s (s.bootFlash fb p q) := by
    unfold bootFlash
    extract_lets e s₁ e'
    have h₁ : Flashed s s₁ := Keeps.refl.wrP
    exact .ite (hw p .refl) (.ite h₁.wrP (.ite (hw q h₁.wrP) h₁.wrP.wrP))
  unfold bootBy
  split
  · exact .refl
  · exact hflash _

section

variable {s : State} {x : Straps} {p q : BootImage}

/-- The primary image boots. -/
theorem State.porstRise_primary (hb : x.bootsel.toNat ≠ 2) (h : s.bootCheck p = 0) :
    let t := (s.strapped x).bootBy x p q
    t.on .bootReady = true ∧ t.bootImage = some p ∧ t.rd .svnRunning = p.svn.toNat ∧ t.on .chipBootFailed = false ∧
      t.on .chipBootFallback = false := by
  intro t
  have ht : t = (s.strapped x).bootWith p := (bootBy_flash hb).trans (bootFlash_primary ((bootCheck_strapped p).trans h))
  obtain ⟨-, -, -, -, hfall, hfail⟩ := s.strapped_reads x
  obtain ⟨hready, himg, hsvn⟩ := (s.strapped x).bootWith_shows p
  have hk := (s.strapped x).bootWith_imageRuns p
  rw [ht]
  exact ⟨hready, himg, hsvn, (hk.on (by decide) _ _).trans hfail, (hk.on (by decide) _ _).trans hfall⟩

/-- The secondary image boots where the straps allow it. -/
theorem State.porstRise_secondary (hb : x.bootsel.toNat % 3 = 0) (hp : s.bootCheck p ≠ 0) (hq : s.bootCheck q = 0) :
    let t := (s.strapped x).bootBy x p q
    t.on .bootReady = true ∧ t.bootImage = some q ∧ t.on .chipBootFallback = true ∧ t.on .chipBootFailed = false ∧
      t.rd .chipBootFailReason = s.bootCheck p := by
  intro t
  have h1 : (x.bootsel.toNat != 1) = true := by simp only [bne_iff_ne]; omega
  have ht : t = _ := (bootBy_flash (by omega)).trans ((congrArg (State.bootFlash _ · p q) h1).trans
    (bootFlash_secondary (by rwa [bootCheck_strapped]) (by rwa [bootCheck_strapped])))
  obtain ⟨-, -, -, -, -, hfail⟩ := s.strapped_reads x
  obtain ⟨hready, himg, -⟩ := State.bootWith_shows _ q
  have hk := State.bootWith_imageRuns (((s.strapped x).wrP .chipBootFailReason ((s.strapped x).bootCheck p)).wrP .chipBootFallback 1) q
  rw [ht]
  refine ⟨hready, himg, (hk.on (by decide) _ _).trans ?_, (hk.on (by decide) _ _).trans ?_, (hk.rd _ (by decide) _ _).trans ?_⟩
  · exact beq_iff_eq.mpr (rd_wr_same ..)
  · rw [on, wrP, wrP, rd_wr_ne _ _ _ _ _ _ (by simp), rd_wr_ne _ _ _ _ _ _ (by simp)]
    exact hfail
  · rw [wrP, rd_wr_ne _ _ _ _ _ _ (by simp), wrP, rd_wr_same, bootCheck_strapped]
    exact bootCheck_mod s p

/-- Neither image boots. -/
theorem State.porstRise_neither (hb : x.bootsel.toNat % 3 = 0) (hp : s.bootCheck p ≠ 0) (hq : s.bootCheck q ≠ 0) :
    let t := (s.strapped x).bootBy x p q
    t.on .chipBootFailed = true ∧ t.rd .bootReady = s.rd .bootReady ∧ t.rd .chipSecFailReason = s.bootCheck q ∧
      t.rd .chipBootFailReason = s.bootCheck p := by
  intro t
  have h1 : (x.bootsel.toNat != 1) = true := by simp only [bne_iff_ne]; omega
  have ht : t = _ := (bootBy_flash (by omega)).trans ((congrArg (State.bootFlash _ · p q) h1).trans
    (bootFlash_neither (by rwa [bootCheck_strapped]) (by rwa [bootCheck_strapped])))
  rw [ht]
  unfold bootFails wrP
  refine ⟨beq_iff_eq.mpr (rd_wr_same ..), ?_, ?_, ?_⟩
  · rw [rd_wr_ne _ _ _ _ _ _ (by simp), rd_wr_ne _ _ _ _ _ _ (by simp), rd_wr_ne _ _ _ _ _ _ (by simp)]
    exact rd_strapped_ne (by decide) (by simp [strapRecord]) _ _
  · rw [rd_wr_ne _ _ _ _ _ _ (by simp), rd_wr_same, bootCheck_strapped]
    exact bootCheck_mod s q
  · rw [rd_wr_ne _ _ _ _ _ _ (by simp), rd_wr_ne _ _ _ _ _ _ (by simp), rd_wr_same, bootCheck_strapped]
    exact bootCheck_mod s p

/-- The primary image alone may boot, and does not. -/
theorem State.porstRise_alone (hb : x.bootsel.toNat = 1) (hp : s.bootCheck p ≠ 0) :
    let t := (s.strapped x).bootBy x p q
    t.on .chipBootFailed = true ∧ t.rd .bootReady = s.rd .bootReady := by
  intro t
  have h1 : (x.bootsel.toNat != 1) = false := by rw [hb]; rfl
  have ht : t = _ := (bootBy_flash (by omega)).trans ((congrArg (State.bootFlash _ · p q) h1).trans
    (bootFlash_alone (by rwa [bootCheck_strapped])))
  rw [ht]
  unfold bootFails wrP
  refine ⟨beq_iff_eq.mpr (rd_wr_same ..), ?_⟩
  rw [rd_wr_ne _ _ _ _ _ _ (by simp), rd_wr_ne _ _ _ _ _ _ (by simp)]
  exact rd_strapped_ne (by decide) (by simp [strapRecord]) _ _

/-- With BOOTSEL 0b10 nothing boots. -/
theorem State.porstRise_recovery (hb : x.bootsel.toNat = 2) :
    ((s.strapped x).bootBy x p q).rd .bootReady = s.rd .bootReady ∧ ((s.strapped x).bootBy x p q).bootImage = s.bootImage := by
  rw [bootBy_recovery hb]
  refine ⟨rd_strapped_ne (by decide) (by simp [strapRecord]) _ _, ?_⟩
  unfold strapped
  dsimp only
  split
  · rfl
  · rfl

end

/-! ### I2C_RECOVERY_LOAD (R629, R630) -/

/-- A recovery image as it was loaded. -/
def State.recovering (s : State) (i : BootImage) : State := { s with recovery := some i }

/-- The boot of a recovery image. -/
def State.recoverBy (s : State) (i : BootImage) : State :=
  if s.bootCheck i = 0 then (s.wrP .chipBootFailed 0).bootWith i
  else if s.rd .chipBootsel = 2 ∧ s.rd .chipBootFailReason = 0 then (s.wrP .chipBootFailReason (s.bootCheck i)).bootFails
  else s.bootFails

theorem exec_i2cRecoveryLoad {s : State} {i : BootImage} (hb : s.on .bootStarted = true) (hr : s.on .bootReady = false)
    (hf : s.on .hostFwReady = false) (h : s.on .chipBootFailed = true ∨ s.rd .chipBootsel = 2) :
    exec (.i2cRecoveryLoad i) s = .next ((s.recovering i).recoverBy i) := by
  refine if_neg ?_
  have hany : (s.on .chipBootFailed || s.rd .chipBootsel == 2) = true := by simpa using h
  simp [hb, hr, hf, hany]

theorem State.recoverBy_passes {s : State} {i : BootImage} (h : s.bootCheck i = 0) :
    (s.recoverBy i).on .bootReady = true ∧ (s.recoverBy i).bootImage = some i ∧ (s.recoverBy i).on .chipBootFailed = false := by
  rw [recoverBy, if_pos h]
  obtain ⟨hready, himg, -⟩ := (s.wrP .chipBootFailed 0).bootWith_shows i
  refine ⟨hready, himg, (((s.wrP .chipBootFailed 0).bootWith_imageRuns i).on (by decide) _ _).trans ?_⟩
  rw [on, wrP, rd_wr_same]
  rfl

theorem State.recoverBy_fails {s : State} {i : BootImage} (h : s.bootCheck i ≠ 0) :
    (s.recoverBy i).rd .bootReady = s.rd .bootReady ∧ (s.recoverBy i).bootImage = s.bootImage ∧
      (s.recoverBy i).on .chipBootFailed = true := by
  rw [recoverBy, if_neg h]
  split
  · exact ⟨(rd_wr_ne _ _ _ _ _ _ (by simp)).trans (rd_wr_ne _ _ _ _ _ _ (by simp)), rfl, beq_iff_eq.mpr (rd_wr_same ..)⟩
  · exact ⟨rd_wr_ne _ _ _ _ _ _ (by simp), rfl, beq_iff_eq.mpr (rd_wr_same ..)⟩

/-! ### FW_READY (R84, R88, R633) -/

/-- What fw_ready leaves once the tally runs. -/
abbrev Readied : State → State → Prop := Keeps (· ∈ [Fld.hostFwReady, .bootReady, .tallyOriginLost]) State.blank

theorem exec_fwReady {s : State} (faulty : List (Die × FaultyWord)) (h : s.on .bootReady = true) :
    ∃ u t, Settled s u ∧ Readied (u.startTally.wrs .m0 0 [(.hostFwReady, 1), (.bootReady, 0)]) t ∧
      exec (.fwReady faulty) s = .next t := by
  have hx : exec (.fwReady faulty) s = execFwReady faulty s := rfl
  rw [hx]
  unfold execFwReady
  rw [h, if_neg (by simp)]
  extract_lets keep u v w x
  have hu : Settled s u := .foldl (fun _ _ hu => hu.marchLeaves) .refl
  have hback : DiesBack v w := .foldl (fun _ _ hu => hu.dieReady) .refl
  have hw : Readied v w := hback.weaken (fun f hf => by revert f; decide) id
  have hx : Readied v x := .ite hw.raise hw
  refine ⟨u, _, hu, ?_, rfl⟩
  exact .ite hx.wrP.raise hx

theorem State.startTally_on (s : State) : s.startTally.tallyOn = true := by
  unfold startTally resumeTally
  split
  · split
    next h => exact h
    · rfl
  · rfl

theorem State.startTally_first {s : State} (h : s.on .surfEverHeld = false) :
    s.startTally.tally = 0 ∧ s.startTally.on .tallyOriginLost = true := by
  unfold startTally
  rw [h, if_neg (by simp)]
  exact ⟨rfl, by simp [on, rd_wr, show Fld.tallyOriginLost.row.width = 1 by decide]⟩

theorem State.startTally_resumes {s : State} (h : s.on .surfEverHeld = true) (ho : s.tallyOn = false) :
    s.startTally.tally =
      (s.rd .surfHeldSf + wakeAdvance (s.rd .surfTicks) (s.rd .surfRate) (s.on .surfOsc)) * sfLen := by
  unfold startTally resumeTally
  rw [if_pos h, ho, if_neg (by simp)]

theorem State.fwReady_flags (s : State) :
    (s.wrs .m0 0 [(.hostFwReady, 1), (.bootReady, 0)]).on .hostFwReady = true ∧
      (s.wrs .m0 0 [(.hostFwReady, 1), (.bootReady, 0)]).on .bootReady = false ∧
      (s.wrs .m0 0 [(.hostFwReady, 1), (.bootReady, 0)]).on .tallyOriginLost = s.on .tallyOriginLost := by
  simp [on, rd_wr, show Fld.hostFwReady.row.width = 1 by decide]

/-! ### SVN_COMMIT (R630) -/

theorem exec_svnCommit {s : State} (hp : s.on .pcieUp = true) (hf : s.on .hostFwReady = true) :
    exec .svnCommit s = .next (s.wrP .chipSvnFused (max (s.rd .chipSvnFused) (s.rd .svnRunning))) :=
  if_neg (by simp [hp, hf])

/-- Settles O46: the four ends of a boot from flash, the two of a recovery image, and the tally's first and later starts. -/
theorem bootSelectsAnImageAndReadiesTheFirmware : Obligations.BootSelectsAnImageAndReadiesTheFirmware := by
  intro s
  refine ⟨fun x p q hb ho hr => ⟨_, exec_porstRise hb ho hr, ?_⟩, fun i hb hr hf h => ⟨_, exec_i2cRecoveryLoad hb hr hf h, ?_, ?_⟩,
    fun faulty h => ?_, fun hp hf h1 h2 => ⟨_, exec_svnCommit hp hf, ?_, (SameBut.refl _ s).wr _ _ _ _ (by simp)⟩⟩
  · obtain ⟨hstart, hsel, hid, hi2c, -⟩ := s.strapped_reads x
    have hk := (s.strapped x).bootBy_flashed x p q
    refine ⟨(hk.on (by decide) _ _).trans hstart, (hk.rd _ (by decide) _ _).trans hsel, (hk.rd _ (by decide) _ _).trans hid,
      (hk.rd _ (by decide) _ _).trans hi2c, porstRise_primary, fun h3 hp => ?_, porstRise_alone, porstRise_recovery⟩
    by_cases hq : s.bootCheck q = 0
    · obtain ⟨hready, himg, hfall, hfail, hreason⟩ := porstRise_secondary h3 hp hq
      exact ⟨hreason, fun _ => ⟨hready, himg, hfall, hfail⟩, fun hn => absurd hq hn⟩
    · obtain ⟨hfail, hready, hsec, hreason⟩ := porstRise_neither h3 hp hq
      exact ⟨hreason, fun h0 => absurd h0 hq, fun _ => ⟨hfail, hready, hsec⟩⟩
  · exact fun h0 => recoverBy_passes (s := s.recovering i) h0
  · intro hn
    obtain ⟨hready, himg, hfail⟩ := recoverBy_fails (s := s.recovering i) hn
    exact ⟨(congrArg (· == 1) hready).trans hr, himg, hfail⟩
  · obtain ⟨u, t, hu, ht, hx⟩ := exec_fwReady faulty h
    obtain ⟨hfw, hready, horig⟩ := u.startTally.fwReady_flags
    have htally : t.tally = u.startTally.tally := ht.tally
    refine ⟨t, hx, (ht.on (by decide) _ _).trans hfw, (ht.on (by decide) _ _).trans hready,
      ht.tallyOn.trans u.startTally_on, fun hs => ?_, fun hs hoff => ?_⟩
    · obtain ⟨h0, hlost⟩ := startTally_first ((hu.on (f := .surfEverHeld) (by decide) _ _).trans hs)
      exact ⟨htally.trans h0, (ht.on (by decide) _ _).trans (horig.trans hlost)⟩
    · rw [htally, startTally_resumes ((hu.on (f := .surfEverHeld) (by decide) _ _).trans hs) (hu.tallyOn.trans hoff),
        hu.rd .surfHeldSf (by decide), hu.rd .surfTicks (by decide), hu.rd .surfRate (by decide), hu.on (f := .surfOsc) (by decide)]
  · exact (rd_wr_same ..).trans (Nat.mod_eq_of_lt (max_lt h1 h2))

end Sys2Proof.Machine

/-! ## What the loss of a die leaves alone

`Spares` says of fields `K` and of a part `g` of the state that the work on links, requests, power entries and lost content does not
reach them: then `Keeps K g` goes through each operation of that work, up to the die that goes down. -/

namespace Sys2Proof.Machine

set_option Elab.async false

open State

/-- The fields that a die on its way down moves, beside its own content and what follows from the state. -/
def downFields : List Fld :=
  [.lampCount, .lampLastSf, .lampValid, .lampBlock, .lampReason, .lampReqState, .lampFirstSf, .pwrLampUsed, .pwrLampOverflow,
    .pwrRefusals, .pwrAborts, .domBusy, .parkAsk, .hostRun, .hostSleep, .pwrHsBusy, .hostOpsInFlight, .vfOpsInFlight,
    .shiftLastStatus, .winzAbortedRequests, .winzLinkUp, .cryKekLoaded, .incarnation, .winzLocalIncarnation, .winzPeerIncarnation]

/-- What no loss of a die reaches: the tally, host memory, the rings, the resets and the image that booted. -/
def State.ashore (s : State) : Bool × Nat × Mem × List (Nat × Ring) × List ResetRun × List Op × Option BootImage :=
  (s.tallyOn, s.tally, s.hostMem, s.rings, s.resets, s.heldResets, s.bootImage)

/-- The fields and the part stand apart from the loss of a die. -/
structure Spares {α : Type} (K : Fld → Prop) (g : State → α) : Prop where
  fields : ∀ f ∈ downFields ++ derivedFields, ¬ K f
  loss : ∀ f, K f → ∀ d i, lossOf (f.key d i) = .package ∨ lossOf (f.key d i) = .surface
  part : ∀ s t : State, s.ashore = t.ashore → g s = g t

section

variable {α : Type} {K : Fld → Prop} {g : State → α} {s₀ s t : State}

theorem Spares.field (w : Spares K g) {f : Fld} (hf : f ∈ downFields := by decide) : ¬ K f :=
  w.fields f (List.mem_append_left _ hf)

theorem Spares.wr (w : Spares K g) {f : Fld} {d : Die} {i v : Nat} (h : Keeps K g s₀ s) (hf : f ∈ downFields := by decide) :
    Keeps K g s₀ (s.wr f d i v) := h.wr (w.field hf)

theorem Spares.wrs (w : Spares K g) {d : Die} {i : Nat} {l : List (Fld × Nat)} (h : Keeps K g s₀ s)
    (hl : ∀ f ∈ l.map Prod.fst, f ∈ downFields := by simp only [List.map_cons, List.map_nil]; decide) :
    Keeps K g s₀ (s.wrs d i l) := h.wrs fun f hf => w.field (hl f hf)

theorem Spares.inc (w : Spares K g) {f : Fld} {d : Die} {i k : Nat} (h : Keeps K g s₀ s) (hf : f ∈ downFields := by decide) :
    Keeps K g s₀ (s.inc f d i k) := h.inc (w.field hf)

/-- A change outside the registers, the keys and what is kept. -/
theorem Spares.frame (w : Spares K g) (h : Keeps K g s₀ s) (hr : t.regs = s.regs := by rfl)
    (ha : t.bare.ashore = s.bare.ashore := by rfl) (hk : s.keys = [] → t.keys = [] := by exact id) : Keeps K g s₀ t :=
  h.trans ⟨fun f _ d i => by rw [State.rd, hr, State.rd], w.part _ _ ha, hk⟩

theorem Spares.settled (w : Spares K g) (h : Keeps K g s₀ s) (k : Settled s t) : Keeps K g s₀ t :=
  h.trans (k.weaken (fun f hf hm => w.fields f (List.mem_append_right _ hm) hf) fun e => w.part _ _ (congrArg State.ashore e :))

theorem Spares.finishOp (w : Spares K g) {o : Op} {st : Status} {result : Nat} (h : Keeps K g s₀ s) :
    Keeps K g s₀ (s.finishOp o st result) :=
  h.finishOp (fun f hf => w.field (by revert f; decide)) fun _ _ _ _ => w.part _ _ rfl

/-! Power requests (R517 to R525). -/

theorem Spares.lamp (w : Spares K g) {block reason st : Nat} (h : Keeps K g s₀ s) : Keeps K g s₀ (s.lamp block reason st) := by
  unfold State.lamp
  dsimp only
  split
  · exact w.wr (w.inc h)
  · split
    · exact w.inc (w.wrs h)
    · exact w.inc h

theorem Spares.refusedBy (w : Spares K g) {t : Die} {dom reason st : Nat} (h : Keeps K g s₀ s) :
    Keeps K g s₀ (s.refusedBy t dom reason st) := (w.inc (w.lamp h)).raise

theorem Spares.abortedBy (w : Spares K g) {t : Die} {dom reason st : Nat} (h : Keeps K g s₀ s) :
    Keeps K g s₀ (s.abortedBy t dom reason st) := (w.inc (w.lamp h)).raise

theorem Spares.endRequest (w : Spares K g) {r : PwrReq} {st : Status} (h : Keeps K g s₀ s) :
    Keeps K g s₀ (s.endRequest r st) := by
  unfold State.endRequest
  extract_lets u
  have hu : Keeps K g s₀ u := .ite h (.foldl (fun _ _ hv => w.wr hv) h)
  split
  · exact hu
  · exact w.finishOp hu

theorem Spares.hostMarks (w : Spares K g) {r : PwrReq} (h : Keeps K g s₀ s) : Keeps K g s₀ (s.hostMarks r) :=
  .ite h (.foldl (fun _ _ hu => w.wrs hu) h)

theorem Spares.startRequest (w : Spares K g) {r : PwrReq} (h : Keeps K g s₀ s) : Keeps K g s₀ (s.startRequest r) := by
  unfold State.startRequest
  extract_lets there mine
  refine .ite (w.endRequest h) ?_
  split
  · exact w.endRequest (w.abortedBy h)
  · have h₁ : Keeps K g s₀ ((s.domBusy mine 1).wrP .pwrHsBusy 1) := w.wr (.foldl (fun _ _ hu => w.wr hu) h)
    exact .ite (w.endRequest (w.hostMarks h)) (.ite (w.frame h₁) (w.frame h₁))

theorem Spares.nextRequests (w : Spares K g) {l : List PwrReq} (h : Keeps K g s₀ s) : Keeps K g s₀ (s.nextRequests l) := by
  induction l generalizing s with
  | nil => exact w.frame h
  | cons r l ih => exact .ite (w.frame h) (ih (w.startRequest h))

theorem Spares.endEntry (w : Spares K g) {r : PwrRun} {st : Status} {counts : Bool} (h : Keeps K g s₀ s) :
    Keeps K g s₀ (s.endEntry r st counts) := by
  unfold State.endEntry
  extract_lets l s₁ s₂ s₃
  have h₁ : Keeps K g s₀ s₁ := w.frame h
  have h₂ : Keeps K g s₀ s₂ :=
    .foldl (fun _ _ hu => by split; exacts [.ite hu (w.refusedBy hu), hu, hu, hu]) (w.wr h₁)
  exact w.nextRequests (w.endRequest h₂)

theorem Spares.powerReset (w : Spares K g) {hit : Die → Nat → Bool} (h : Keeps K g s₀ s) : Keeps K g s₀ (s.powerReset hit) := by
  unfold State.powerReset
  split
  · exact h
  · split
    · exact h
    · exact w.endEntry (w.abortedBy h)

/-! Links and content that go down (R34, R36, R402, R553, R636, R637). -/

theorem Spares.abortTo (w : Spares K g) {p : Die → Nat → Bool} {port : Option (Die × Nat)} (h : Keeps K g s₀ s) :
    Keeps K g s₀ (s.abortTo p port) :=
  h.abortTo (fun f hf => w.field (by revert f; decide)) w.field fun _ _ _ _ => w.part _ _ rfl

theorem Spares.dropFromCommit (w : Spares K g) {ds : List Die} (h : Keeps K g s₀ s) : Keeps K g s₀ (s.dropFromCommit ds) :=
  w.frame h

theorem Spares.linkDrop (w : Spares K g) {d : Die} {port : Nat} (h : Keeps K g s₀ s) : Keeps K g s₀ (s.linkDrop d port) := by
  unfold State.linkDrop
  split
  · exact w.wr (w.wr h)
  · exact h

theorem Spares.linksDown (w : Spares K g) {t : Die} {plan : Bool} (h : Keeps K g s₀ s) : Keeps K g s₀ (s.linksDown t plan) := by
  unfold State.linksDown
  refine .foldl (fun u p hu => w.dropFromCommit (w.abortTo ?_)) h
  split
  · exact .ite (w.linkDrop hu) (w.linkDrop hu).raiseField.raiseField
  · exact w.linkDrop hu

theorem Spares.loseWhere (w : Spares K g) {p : Nat → Bool} (h : Keeps K g s₀ s)
    (hp : ∀ k, lossOf k = .package ∨ lossOf k = .surface → p k = false) : Keeps K g s₀ (s.loseWhere p) :=
  h.trans ⟨fun f hf d i => rd_loseWhere (hp _ (w.loss f hf d i)), w.part _ _ rfl, id⟩

theorem Spares.loseKeys (w : Spares K g) {t : Die} (h : Keeps K g s₀ s) : Keeps K g s₀ (s.loseKeys t) := by
  unfold State.loseKeys
  extract_lets s₁
  have h₁ : Keeps K g s₀ s₁ := w.frame h rfl rfl fun e => by dsimp only [s₁]; rw [e]; rfl
  refine h₁.trans ⟨fun f hf d i => rd_loseWhere ?_, w.part _ _ rfl, id⟩
  have hne (e : Fld) (he : e ∈ derivedFields) : f.ctorIdx ≠ e.ctorIdx := fun hc =>
    w.fields e (List.mem_append_right _ he) (Fld.ctorIdx_inj hc ▸ hf)
  simp [keyFld_key, hne .pageSlotLoaded (by decide), hne .pageSlotKeyIdx (by decide)]

theorem Spares.loseKek (w : Spares K g) {t : Die} (h : Keeps K g s₀ s) : Keeps K g s₀ (s.loseKek t) :=
  w.wr (w.frame h rfl rfl fun e => by rw [e]; rfl)

theorem Spares.dieLost (w : Spares K g) {t : Die} (h : Keeps K g s₀ s) : Keeps K g s₀ (s.dieLost t) := by
  unfold State.dieLost
  extract_lets s₁ s₂ s₃
  have h₁ : Keeps K g s₀ s₁ := w.loseWhere h fun k hk => by rcases hk with hk | hk <;> simp [hk]
  have h₂ : Keeps K g s₀ s₂ := w.loseKek (w.loseKeys (w.frame h₁))
  have h₃ : Keeps K g s₀ s₃ := .foldl (fun _ _ hu => w.frame hu) h₂
  exact w.frame h₃

theorem Spares.reincarnate (w : Spares K g) {t : Die} {k : Nat} (h : Keeps K g s₀ s) : Keeps K g s₀ (s.reincarnate t k) := by
  unfold State.reincarnate
  have h₁ : Keeps K g s₀ (s.bump .incarnation t k) := w.wr h
  refine .ite h₁ (.foldl (fun u p hu => ?_) h₁)
  dsimp only
  split
  · exact .ite (w.wr (w.wr hu)) (w.wr hu)
  · exact w.wr hu

/-- A die that goes down outside a power request. -/
theorem Spares.dieDown (w : Spares K g) {t : Die} (h : Keeps K g s₀ s) : Keeps K g s₀ (s.dieDown t) := by
  have hl : Keeps K g s₀ (s.dieLeaving t) := by
    unfold dieLeaving
    extract_lets s₁ s₂
    have h₁ : Keeps K g s₀ s₁ := w.abortTo (w.linksDown h)
    have h₂ : Keeps K g s₀ s₂ := w.powerReset (w.dropFromCommit h₁)
    exact .foldl (fun _ _ hu => .ite (w.settled hu Keeps.refl.frameDown) (w.settled hu Keeps.refl.acqOff)) h₂
  rw [dieDown_eq]
  exact .foldl (fun _ _ hu => w.reincarnate hu) (w.reincarnate (w.dieLost hl))

end

end Sys2Proof.Machine

/-! ## Power lost and restored -/

namespace Sys2Proof.Machine

set_option Elab.async false

open State

/-- What a list of writes leaves in a field of their index: the last value written to it, or what stood there. -/
theorem State.rd_wrs (s : State) (d : Die) (i : Nat) (f : Fld) (l : List (Fld × Nat)) :
    (s.wrs d i l).rd f d i = ((l.reverse.lookup f).map (· % 2 ^ f.row.width)).getD (s.rd f d i) := by
  induction l generalizing s with
  | nil => rfl
  | cons e l ih =>
    obtain ⟨g, v⟩ := e
    rw [wrs_cons, ih, List.reverse_cons, List.lookup_append]
    cases l.reverse.lookup f with
    | some u => rfl
    | none =>
      by_cases hg : f = g
      · subst hg
        simp [rd_wr_same]
      · simp [List.lookup, rd_wr, Ne.symm hg, beq_false_of_ne hg]

theorem State.on_wrs (s : State) (d : Die) (i : Nat) (f : Fld) (l : List (Fld × Nat)) :
    (s.wrs d i l).on f d i = (((l.reverse.lookup f).map (· % 2 ^ f.row.width)).getD (s.rd f d i) == 1) :=
  congrArg (· == 1) (rd_wrs ..)

/-! ### What the surface domain keeps (R641, R647, R685) -/

/-- A field that the surface domain keeps: an internal one of its own, or one of the chip's. -/
abbrev OnSurface (f : Fld) : Prop :=
  f.row.blk.info.win = .internal ∧ f.row.off = 21 ∨ f.row.blk.info.win = .pkg ∧ f.row.blk = .chip

theorem lossOf_surface {f : Fld} (hf : OnSurface f) (d : Die) (i : Nat) : lossOf (f.key d i) = .surface := by
  unfold lossOf
  rw [keyFld_key]
  extract_lets e j r g
  rcases hf with ⟨hw, ho⟩ | ⟨hw, hb⟩
  · have hg : g.win = .internal := hw
    have hr : r.off = 21 := ho
    rw [hg, hr]
    rfl
  · have hg : g.win = .pkg := hw
    have hr : r.blk = .chip := hb
    rw [hg]
    exact if_pos (.inl hr)

/-- The record of a rail that failed and of a trip. -/
def recordFields : List Fld := [.railBad, .chipTrip, .chipTripDie]

theorem recordFields_surface : ∀ f ∈ recordFields, OnSurface f := by decide

/-- A die that goes down leaves that record, the tally and whatever else `State.ashore` names. -/
theorem spares_record : Spares (· ∈ recordFields) State.ashore :=
  ⟨fun f hm hf => (by decide : ∀ f ∈ recordFields, f ∉ downFields ++ derivedFields) f hf hm,
    fun f hf d i => .inr (lossOf_surface (recordFields_surface f hf) d i), fun _ _ => id⟩

/-! ### The package without its switched domains -/

/-- What the stop of the tally writes. -/
def stopFields : List Fld := [.surfHeldSf, .surfTicks, .surfEverHeld, .surfRate, .stopSf]

theorem State.rd_stopTally {s : State} {f : Fld} (hf : f ∉ stopFields) (d : Die) (i : Nat) : s.stopTally.rd f d i = s.rd f d i := by
  have h : Keeps (· ∉ stopFields) (fun _ => ()) s s.stopTally := by
    unfold stopTally
    have h₁ : Keeps (· ∉ stopFields) (fun _ => ()) s { s with tallyOn := false, tally := s.sf * sfLen } := Keeps.refl.frame
    exact .ite .refl h₁.wrs
  exact h.rd f hf d i

/-- A chip's field, once the package has lost its switched domains. -/
theorem State.rd_lost_chip {s : State} {f : Fld} (hs : f ∉ stopFields) (hf : OnSurface f) (d : Die) (i : Nat) :
    s.stopTally.packageLost.rd f d i = s.rd f d i := by
  rw [rd_packageLost, if_pos (lossOf_surface hf d i), rd_stopTally hs]

theorem State.stopTally_spec {s : State} (h : s.tallyOn = true) :
    s.stopTally.tally = s.sf * sfLen ∧ (s.sf < 2 ^ 48 → s.stopTally.rd .surfHeldSf = s.sf) := by
  unfold stopTally
  rw [h, if_neg (by simp)]
  exact ⟨rfl, fun hlt => (rd_wrs ..).trans (Nat.mod_eq_of_lt hlt)⟩

/-- The package after its power-on detectors have reset every die (R626, R685). -/
def State.detected (s : State) : State := s.stopTally.packageLost.wrs .m0 0 [(.chipPor, 1), (.pkgOff, 0)]

theorem State.detected_flags (s : State) :
    s.detected.on .chipPor = true ∧ s.detected.rd .pkgOff = 0 ∧ s.detected.on .hostFwReady = false := by
  have hl : ¬ lossOf (Fld.hostFwReady.key .m0 0) = .surface := by decide
  have hf : s.stopTally.packageLost.on .hostFwReady = false := by
    rw [on, rd_packageLost, if_neg hl]
    rfl
  exact ⟨(on_wrs ..).trans rfl, (rd_wrs ..).trans rfl, (on_wrs ..).trans hf⟩

/-- The other parts of the state: nothing that needs power is left. -/
theorem State.detected_parts (s : State) :
    s.detected.tallyOn = false ∧ s.detected.tally = s.stopTally.tally ∧ s.detected.rings = [] ∧ s.detected.keys = [] ∧
      s.detected.memory = [] ∧ s.detected.inflight = [] ∧ s.detected.hostMem = s.hostMem ∧ s.detected.bootImage = s.bootImage := by
  have hh : s.stopTally.hostMem = s.hostMem ∧ s.stopTally.bootImage = s.bootImage := by
    unfold stopTally
    split
    · exact ⟨rfl, rfl⟩
    · exact ⟨rfl, rfl⟩
  exact ⟨rfl, rfl, rfl, rfl, rfl, rfl, hh⟩

theorem State.detected_heldSf {s : State} (h : s.tallyOn = true) (hs : s.sf < 2 ^ 48) : s.detected.rd .surfHeldSf = s.sf := by
  obtain ⟨-, hh⟩ := stopTally_spec h
  have hl : lossOf (Fld.surfHeldSf.key .m0 0) = .surface := lossOf_surface (by decide) ..
  have hk : s.detected.rd .surfHeldSf = s.stopTally.packageLost.rd .surfHeldSf := rd_wrs ..
  rw [hk, rd_packageLost, if_pos hl, hh hs]

theorem exec_porstFall {s : State} (h : s.rd .pkgOff ≠ 2) : exec .porstFall s = .next s.detected := if_neg h

/-! ### RAIL_FAULT (R626, R640, R668) -/

/-- A die other than M0 whose rail has failed. -/
def State.railDown (s : State) (d : Die) : State := ((((s.wr .railBad d 0 1).dieDown d).wrs d 63 [(.inReset, 1)]).wrP .chipPor 1).gates d

theorem exec_railFault {d : Die} {s : State} (hd : s.has d = true) (hr : s.on .railBad d = false) (ho : s.rd .pkgOff ≠ 2) :
    exec (.railFault d) s = .next (if d = .m0 then (s.wr .railBad .m0 0 1).detected else s.railDown d) := by
  have h : exec (.railFault d) s = execRailFault d s := rfl
  rw [h]
  unfold execRailFault
  rw [hd, hr, if_neg (by simpa using ho)]
  dsimp only
  split
  next hm =>
    rw [hm]
    rfl
  · rfl

theorem State.railDown_spec (s : State) (d : Die) :
    (s.railDown d).on .chipPor = true ∧ (s.railDown d).dieInReset d = true ∧ (s.railDown d).on .railBad d = true ∧
      (s.railDown d).tally = s.tally ∧ (s.railDown d).tallyOn = s.tallyOn := by
  have hk : Keeps (· ∈ recordFields) State.ashore (s.wr .railBad d 0 1) ((s.wr .railBad d 0 1).dieDown d) := spares_record.dieDown .refl
  have hg : Settled ((((s.wr .railBad d 0 1).dieDown d).wrs d 63 [(.inReset, 1)]).wrP .chipPor 1) (s.railDown d) := Keeps.refl.gates
  have ha : ((s.wr .railBad d 0 1).dieDown d).ashore = s.ashore := hk.part
  unfold ashore at ha
  obtain ⟨hon, htally, -⟩ : _ ∧ _ ∧ _ := by simpa only [Prod.mk.injEq] using ha
  refine ⟨(hg.on (f := .chipPor) (by decide) _ _).trans ?_, (hg.on (f := .inReset) (by decide) _ _).trans ?_,
    (hg.on (f := .railBad) (by decide) _ _).trans ?_, hg.tally.trans htally, hg.tallyOn.trans hon⟩
  · exact beq_iff_eq.mpr (rd_wr_same ..)
  · rw [on, wrP, rd_wr_ne _ _ _ _ _ _ (by simp), wrs_cons, wrs_nil, rd_wr_same]
    rfl
  · rw [on, wrP, rd_wr_ne _ _ _ _ _ _ (by simp), wrs_cons, wrs_nil, rd_wr_ne _ _ _ _ _ _ (by simp), hk.rd _ (by decide), rd_wr_same]
    rfl

/-! ### SURFACE_POWER_LOSS (R668, R685) -/

/-- What stands without any power. -/
def fuseFields : List Nat :=
  [Fld.chipStepping, .chipConfig, .chipSpeed200, .chipSvnFused, .fuseKeyHash, .fuseKeyRevoked].map Fld.ctorIdx

/-- The package without any power. -/
def State.unpowered (s : State) : State :=
  { State.reset with
    pending := s.pending, regs := s.regs.filter fun e => fuseFields.contains (keyFld e.1), hostMem := s.hostMem,
    msixSent := s.msixSent, readData := s.readData, freeCtr := s.freeCtr }

theorem State.rd_unpowered (s : State) (f : Fld) (d : Die) (i : Nat) :
    s.unpowered.rd f d i = if fuseFields.contains f.ctorIdx then s.rd f d i else f.resetAt i := by
  rw [State.rd, unpowered, Cells.get, Cells.find_filter (fun k => fuseFields.contains (keyFld k)), keyFld_key, resetOfKey_key]
  split
  · rw [State.rd, Cells.get, resetOfKey_key]
  · rfl

/-! ### RAIL_RESTORED (R78, R626) -/

theorem exec_railRestored {d : Die} {s : State} (hd : d ≠ .m0) (hr : s.on .railBad d = true) (ht : s.on .tripped d = false)
    (hf : s.on .hostFwReady = true) (hn : (s.resets.any fun r => r.die == d && r.dom == 63) = false) :
    exec (.railRestored d) s = .next ((((s.wr .railBad d 0 0).repairMap d).dieBack d).dieReady d) := by
  have h : exec (.railRestored d) s = execRailRestored d s := rfl
  have ht' : (s.wr .railBad d 0 0).on .tripped d = false := by rw [on, rd_wr_ne _ _ _ _ _ _ (by simp)]; exact ht
  have hf' : (s.wr .railBad d 0 0).on .hostFwReady = true := by rw [on, rd_wr_ne _ _ _ _ _ _ (by simp)]; exact hf
  rw [h]
  unfold execRailRestored
  rw [hr, if_neg (by simp)]
  dsimp only
  rw [if_neg (by simp [hd, ht', hn]), if_pos hf']

/-! ### The way to Off and back (R516, R641, R642) -/

theorem exec_wake_leaving {s : State} (h : s.rd .pkgOff = 1) : exec .wake s = .next (s.wrP .wakeLatch 1) := by
  show execWake s = _
  simp only [execWake, h]

theorem exec_wake_off {s : State} (h : s.rd .pkgOff = 2) : exec .wake s = .next (s.wrP .railEn 1) := by
  show execWake s = _
  simp only [execWake, h]

/-- The rails counted as good. -/
def State.railsGood (s : State) (l : List Die) : State := l.foldl (fun s t => s.wr .railBad t 0 0) s

theorem State.railsGood_sameBut (s : State) (l : List Die) : SameBut (l.map fun d => (.railBad, d, 0)) s (s.railsGood l) := by
  induction l generalizing s with
  | nil => exact .refl ..
  | cons d l ih =>
    exact ((SameBut.refl _ s).wr _ _ _ _ List.mem_cons_self).trans ((ih _).mono fun _ h => List.mem_cons_of_mem _ h)

theorem State.rd_railsGood {d : Die} {l : List Die} (h : d ∈ l) (s : State) : (s.railsGood l).rd .railBad d = 0 := by
  induction l generalizing s with
  | nil => exact absurd h List.not_mem_nil
  | cons e l ih =>
    by_cases hd : d ∈ l
    · exact ih hd _
    · obtain rfl := (List.mem_cons.mp h).resolve_right hd
      refine ((railsGood_sameBut _ l).rd (by simpa using hd)).trans ?_
      rw [rd_wr_same, Nat.zero_mod]

/-- The state that WAKE_RAILS_GOOD leaves: out of Off, every rail good, the boot still to come. -/
def State.wokenUp (s : State) : State :=
  (s.wrs .m0 0 [(.pkgOff, 0), (.chipWake, 1), (.wakeLatch, 0), (.bootStarted, 0)]).railsGood Die.all

theorem wokenUp_spec (s : State) :
    s.wokenUp.rd .pkgOff = 0 ∧ s.wokenUp.on .chipWake = true ∧ s.wokenUp.on .bootStarted = false ∧
      (∀ d, s.wokenUp.on .railBad d = false) ∧ s.wokenUp = { s with regs := s.wokenUp.regs } := by
  have h := railsGood_sameBut (s.wrs .m0 0 [(.pkgOff, 0), (.chipWake, 1), (.wakeLatch, 0), (.bootStarted, 0)]) Die.all
  refine ⟨?_, ?_, ?_, fun d => ?_, ?_⟩
  · exact (h.rd (by simp)).trans ((rd_wrs ..).trans rfl)
  · exact (congrArg (· == 1) (h.rd (by simp))).trans ((on_wrs ..).trans rfl)
  · exact (congrArg (· == 1) (h.rd (by simp))).trans ((on_wrs ..).trans rfl)
  · exact beq_eq_false_iff_ne.mpr ((rd_railsGood (by cases d <;> decide) _).trans_ne (by decide))
  · exact h.1.trans rfl

/-! ### THERMAL_TRIP (R538, R639) -/

/-- A trip as the surface domain records it. -/
def State.tripNoted (s : State) (d : Die) : State := s.wrs .m0 0 [(.tripRec, 1), (.chipTrip, 1), (.chipTripDie, d.code)]

theorem State.tripNoted_reads (s : State) (d : Die) :
    (s.tripNoted d).on .chipTrip = true ∧ (s.tripNoted d).rd .chipTripDie = d.code := by
  have hc : d.code % 2 ^ Fld.chipTripDie.row.width = d.code :=
    Nat.mod_eq_of_lt (lt_of_lt_of_le (Die.code_lt d) (by decide))
  exact ⟨(on_wrs ..).trans rfl, (rd_wrs ..).trans hc⟩

/-- The domains of a die switched off. -/
def State.domainsOff (s : State) (t : Die) (l : List Nat) : State :=
  l.foldl (fun s k => s.wrs t k [(.domState, 4), (.domBusy, 0), (.inReset, 0)]) s

theorem State.domSt_domainsOff {t : Die} {k : Nat} {l : List Nat} (h : k ∈ l) (s : State) : (s.domainsOff t l).domSt t k = 4 := by
  have step (u : State) (j : Nat) (hj : k = j ∨ u.domSt t k = 4) :
      (u.wrs t j [(.domState, 4), (.domBusy, 0), (.inReset, 0)]).domSt t k = 4 := by
    rw [domSt, wrs_cons, wrs_cons, wrs_cons, wrs_nil, rd_wr_ne _ _ _ _ _ _ (by simp), rd_wr_ne _ _ _ _ _ _ (by simp), rd_wr]
    split
    · rfl
    next hn => exact hj.resolve_left fun e => hn ⟨rfl, rfl, e.symm⟩
  have stays (l : List Nat) (u : State) (hu : u.domSt t k = 4) : (u.domainsOff t l).domSt t k = 4 := by
    induction l generalizing u with
    | nil => exact hu
    | cons j l ih => exact ih _ (step u j (.inr hu))
  induction l generalizing s with
  | nil => exact absurd h List.not_mem_nil
  | cons j l ih =>
    rcases List.mem_cons.mp h with rfl | h
    · exact stays l _ (step s k (.inl rfl))
    · exact ih h _

/-- A die other than M0 that a trip has taken down: its resets have ended. -/
def State.tripDown (s : State) (d : Die) : State :=
  let s := s.dieDown d
  (s.resets.filter (·.die == d)).foldl (fun s r => s.finishOp r.op .targetUnpowered)
    { s with resets := s.resets.filter (·.die != d) }

/-- Such a die in Off. -/
def State.tripOff (s : State) (d : Die) : State :=
  (((s.wrs d 63 [(.inReset, 0)]).domainsOff d d.domains).wr .tripped d 0 1).gates d

theorem exec_thermalTrip {d : Die} {s : State} (hd : s.has d = true) (ht : s.on .tripped d = false) (ho : s.rd .pkgOff ≠ 2) :
    exec (.thermalTrip d) s = .next (if d = .m0 then (s.tripNoted d).powerOff else ((s.tripNoted d).tripDown d).tripOff d) := by
  have h : exec (.thermalTrip d) s = execThermalTrip d s := rfl
  rw [h]
  unfold execThermalTrip
  rw [hd, ht, if_neg (by simpa using ho)]
  dsimp only
  split
  · rfl
  · rfl

/-- What a trip leaves of its record and of the tally. -/
abbrev Tripped : State → State → Prop := Keeps (· ∈ recordFields) fun s => (s.tallyOn, s.tally)

theorem State.tripDown_tripped (s : State) (d : Die) : Tripped s (s.tripDown d) := by
  have hd : Tripped s (s.dieDown d) :=
    (spares_record.dieDown .refl).weaken (fun _ => id) fun e => by
      unfold ashore at e
      obtain ⟨hon, htally, -⟩ : _ ∧ _ ∧ _ := by simpa only [Prod.mk.injEq] using e
      exact Prod.ext hon htally
  unfold tripDown
  extract_lets u
  have hu : Tripped s { u with resets := u.resets.filter (·.die != d) } := hd.frame
  exact .foldl (fun _ _ hv => hv.finishOp) hu

theorem State.tripOff_spec (s : State) (d : Die) :
    Tripped s (s.tripOff d) ∧ (s.tripOff d).on .tripped d = true ∧ ∀ k ∈ d.domains, (s.tripOff d).domSt d k = 4 := by
  have hg : Settled (((s.wrs d 63 [(.inReset, 0)]).domainsOff d d.domains).wr .tripped d 0 1) (s.tripOff d) := Keeps.refl.gates
  have hd : Tripped s ((s.wrs d 63 [(.inReset, 0)]).domainsOff d d.domains) := .foldl (fun _ _ hu => hu.wrs) Keeps.refl.wrs
  refine ⟨hd.wr.trans (hg.weaken (fun f hf => by revert f; decide) fun e => ?_), (hg.on (f := .tripped) (by decide) _ _).trans ?_,
    fun k hk => (hg.rd .domState (by decide) _ _).trans ?_⟩
  · exact Prod.ext hg.tallyOn hg.tally
  · exact beq_iff_eq.mpr (rd_wr_same ..)
  · exact (rd_wr_ne _ _ _ _ _ _ (by simp)).trans (domSt_domainsOff hk _)

/-! ### The obligation -/

/-- A trip of a die: recorded, with M0's the package in Off, with another's that die alone. -/
theorem thermalTrip_spec {s t : State} {d : Die}
    (ht : t = if d = .m0 then (s.tripNoted d).powerOff else ((s.tripNoted d).tripDown d).tripOff d) :
    t.on .chipTrip = true ∧ t.rd .chipTripDie = d.code ∧ (d = .m0 → t.rd .pkgOff = 2 ∧ t.tallyOn = false) ∧
      (d ≠ .m0 → t.on .tripped d = true ∧ (∀ k ∈ d.domains, t.domSt d k = 4) ∧ t.tally = s.tally) := by
  obtain ⟨hTrip, hDie⟩ := s.tripNoted_reads d
  by_cases hd : d = .m0
  · rw [if_pos hd] at ht
    have kept (f : Fld) (hf : f ∈ recordFields) : t.rd f = (s.tripNoted d).rd f := by
      rw [ht, powerOff, SameBut.rd ((SameBut.refl (regsAt .m0 0 [.pkgOff, .railEn]) _).wrs .m0 0 _ (by simp [mem_regsAt]))
        (by revert f; decide), rd_lost_chip (by revert f; decide) (recordFields_surface f hf)]
    refine ⟨(congrArg (· == 1) (kept .chipTrip (by decide))).trans hTrip, (kept .chipTripDie (by decide)).trans hDie,
      fun _ => ⟨?_, by rw [ht]; rfl⟩, fun h => absurd hd h⟩
    exact ht ▸ (rd_wrs ..).trans rfl
  · rw [if_neg hd] at ht
    obtain ⟨hk, hOff, hDom⟩ := ((s.tripNoted d).tripDown d).tripOff_spec d
    have h : Tripped (s.tripNoted d) t := ht ▸ (tripDown_tripped _ d).trans hk
    exact ⟨(h.on (by decide) _ _).trans hTrip, (h.rd _ (by decide) _ _).trans hDie, fun e => absurd e hd,
      fun _ => ht ▸ ⟨hOff, hDom, congrArg Prod.snd (ht ▸ h.part)⟩⟩

/-- The return of a die other than M0. -/
theorem railRestored_spec {s t : State} {d : Die} (hd : d ≠ .m0) (ht : t = (((s.wr .railBad d 0 0).repairMap d).dieBack d).dieReady d) :
    t.on .railBad d = false ∧ t.dieInReset d = false ∧ (∀ k ∈ d.domains, t.domSt d k = 0) ∧ t.tally = s.tally := by
  obtain ⟨hIn, hDom, -⟩ := ((s.wr .railBad d 0 0).repairMap d).dieBack_spec d
  obtain ⟨hIn', -, hDom'⟩ := (((s.wr .railBad d 0 0).repairMap d).dieBack d).dieReady_spec d
  have h : DiesBack (s.wr .railBad d 0 0) t := by
    rw [ht]
    exact (Keeps.refl.backSettled Keeps.refl.repairMap).dieBack.dieReady
  refine ⟨(h.on (by decide) _ _).trans ?_, ht ▸ hIn'.trans hIn, fun k hk => ht ▸ (hDom' hd k).trans (hDom k hk), h.tally⟩
  simp [on]

/-- Settles O47: each command's state is one of those above, and each clause is read off that state's own lemma. -/
theorem powerLossTripAndWake : Obligations.PowerLossTripAndWake := by
  intro s
  refine ⟨fun ho => ⟨?_, fun d hd hr => ?_⟩, ?_, fun d hd hr ht hf hn => ?_, fun ho => ⟨?_, ?_⟩,
    fun ho => ⟨?_, fun hw => ?_, fun he => ⟨?_, ?_⟩⟩, fun d hd ht ho => ⟨_, exec_thermalTrip hd ht ho, thermalTrip_spec rfl⟩, ?_⟩
  · obtain ⟨hPor, hOff, hFw⟩ := s.detected_flags
    obtain ⟨hOn, hTally, hParts⟩ := s.detected_parts
    exact ⟨_, exec_porstFall ho, hPor, hOff, hFw, hOn, fun h => ⟨hTally.trans (stopTally_spec h).1, detected_heldSf h⟩, hParts⟩
  · refine ⟨_, exec_railFault hd hr ho, ?_⟩
    by_cases hm : d = .m0
    · rw [if_pos hm]
      exact ⟨(detected_flags _).1, fun _ => ⟨rfl, rfl, rfl⟩, fun h => absurd hm h⟩
    · rw [if_neg hm]
      obtain ⟨hPor, hDown⟩ := s.railDown_spec d
      exact ⟨hPor, fun h => absurd h hm, fun _ => hDown⟩
  · refine ⟨s.unpowered, rfl, rfl, rfl, ?_, rfl, rfl, rfl, rfl, ?_, ?_⟩
    · rw [on, rd_unpowered, if_neg (by decide)]
      rfl
    · rw [rd_unpowered, if_pos (by decide)]
    · rw [rd_unpowered, if_pos (by decide)]
  · exact ⟨_, exec_railRestored hd hr ht hf hn, railRestored_spec hd rfl⟩
  · exact ⟨s.powerOff, congrArg Host.Outcome.next (if_pos ho), (rd_wrs ..).trans rfl, (on_wrs ..).trans rfl, rfl, rfl⟩
  · exact ⟨_, exec_wake_leaving ho, beq_iff_eq.mpr (rd_wr_same ..), (SameBut.refl _ s).wr _ _ _ _ (by simp)⟩
  · exact ⟨_, exec_wake_off ho, beq_iff_eq.mpr (rd_wr_same ..), (SameBut.refl _ s).wr _ _ _ _ (by simp)⟩
  · exact ⟨_, if_pos ⟨ho, hw⟩, (on_wrs ..).trans rfl, (on_wrs ..).trans rfl, (SameBut.refl _ _).wrs .m0 0 _ (by simp [mem_regsAt])⟩
  · exact ⟨_, if_pos ⟨ho, he⟩, (on_wrs ..).trans rfl, (on_wrs ..).trans rfl, (SameBut.refl _ _).wrs .m0 0 _ (by simp [mem_regsAt])⟩
  · exact ⟨_, if_pos ⟨ho, he⟩, wokenUp_spec s⟩
  · refine ⟨_, rfl, ?_, beq_iff_eq.mpr (rd_wr_same ..),
      ((SameBut.refl _ s).wr _ _ _ _ (by simp [mem_regsAt])).wr _ _ _ _ (by simp [mem_regsAt])⟩
    rw [on, wrP, rd_wr_ne _ _ _ _ _ _ (by simp), wrP, rd_wr_same]
    rfl

end Sys2Proof.Machine

/-! ## Line converters and optical-engine attach sites -/

namespace Sys2Proof.Machine

open State

/-! ### Flags, frames and folds -/

section

variable {s t : State} {f : Fld} {d : Die} {i : Nat}

/-- A one-bit flag written 1 reads set. -/
theorem State.on_wr_one (s : State) (hf : f.row.width = 1) (d : Die) (i : Nat) : (s.wr f d i 1).on f d i = true := by
  rw [on, rd_wr_same, hf]
  rfl

theorem State.setOnce_set (h : s.on f d i = true) (x : Nat) : s.setOnce f d i x = s := if_pos h

theorem State.setOnce_clear (h : s.on f d i = false) : s.setOnce f d i = (s.raiseField f d i).wr f d i 1 :=
  (if_neg (by simp [h])).trans (raise_wr ..)

theorem State.setOnce_on (s : State) (hf : f.row.width = 1) (d : Die) (i : Nat) : (s.setOnce f d i).on f d i = true := by
  cases h : s.on f d i with
  | true => rwa [setOnce_set h]
  | false => rw [setOnce_clear h, on_wr_one _ hf]

/-- A flag set once raises its event where it was clear. -/
theorem State.setOnce_events (s : State) (f : Fld) (d : Die) (i : Nat) :
    (s.setOnce f d i).events = if s.on f d i = true then s.events else (s.raiseField f d i).events := by
  cases h : s.on f d i with
  | true => rw [setOnce_set h, if_pos rfl]
  | false => rw [setOnce_clear h, wr_events, if_neg (by decide)]

theorem State.setOnce_spi (s : State) (f : Fld) (d : Die) (i : Nat) : (s.setOnce f d i).spi = s.spi := by
  cases h : s.on f d i with
  | true => rw [setOnce_set h]
  | false => rw [setOnce_clear h, wr_spi, raiseField, raise_eq]

theorem State.rd_setOnce_ne (s : State) {g : Fld} (h : f ≠ g) (d e : Die) (i j : Nat) :
    (s.setOnce f d i).rd g e j = s.rd g e j := by
  cases hs : s.on f d i with
  | true => rw [setOnce_set hs]
  | false => rw [setOnce_clear hs, rd_wr_ne _ _ _ _ _ _ fun e => h e.1, rd_raiseField]

theorem Keeps.setOnce {α : Type} {K : Fld → Prop} {g : State → α} {s₀ : State} {x : Nat} (h : Keeps K g s₀ s)
    (hf : ¬ K f := by decide) : Keeps K g s₀ (s.setOnce f d i x) := .ite h (h.wr hf).raise

theorem State.raiseField_wrs (s : State) (d : Die) (i : Nat) (l : List (Fld × Nat)) (g : Fld) (e : Die) (j : Nat)
    (far : Option Nat) : (s.wrs d i l).raiseField g e j far = (s.raiseField g e j far).wrs d i l := raise_wrs ..

theorem SameBut.on {l : List Reg} (h : SameBut l s t) (hm : (f, d, i) ∉ l) : t.on f d i = s.on f d i :=
  congrArg (· == 1) (h.rd hm)

/-- A field that none of the listed fields of one instance is reads as before, everywhere. -/
theorem SameBut.rd_field {m : List Fld} (h : SameBut (regsAt d i m) s t) (hf : f ∉ m) (e : Die) (j : Nat) :
    t.rd f e j = s.rd f e j := h.rd fun hm => hf (mem_regsAt.mp hm).1

theorem SameBut.on_field {m : List Fld} (h : SameBut (regsAt d i m) s t) (hf : f ∉ m) (e : Die) (j : Nat) :
    t.on f e j = s.on f e j := congrArg (· == 1) (h.rd_field hf e j)

theorem Counted.wrs {l : List Reg} (h : Counted l s t) (d : Die) (i : Nat) (vs : List (Fld × Nat))
    (hm : ∀ p ∈ vs, (p.1, d, i) ∈ l) : Counted l s (t.wrs d i vs) := h.sameBut (.wrs (.refl ..) d i vs hm)

theorem Counted.inc {l : List Reg} (h : Counted l s t) (f : Fld) (d : Die) (i k : Nat) (hm : (f, d, i) ∈ l) :
    Counted l s (t.inc f d i k) := h.sameBut (.inc (.refl ..) f d i k hm)

theorem Counted.wr {l : List Reg} (h : Counted l s t) (f : Fld) (d : Die) (i v : Nat) (hm : (f, d, i) ∈ l) :
    Counted l s (t.wr f d i v) := h.sameBut (.wr (.refl ..) f d i v hm)

theorem Counted.mono {l m : List Reg} (h : Counted l s t) (hm : ∀ r ∈ l, r ∈ m) : Counted m s t := SameBut.mono h hm

theorem Counted.rd {l : List Reg} (h : Counted l s t) (hm : (f, d, i) ∉ l) : t.rd f d i = s.rd f d i := SameBut.rd h hm

theorem Counted.rd_field {m : List Fld} (h : Counted (regsAt d i m) s t) (hf : f ∉ m) (e : Die) (j : Nat) :
    t.rd f e j = s.rd f e j := SameBut.rd_field h hf e j

theorem Counted.on_field {m : List Fld} (h : Counted (regsAt d i m) s t) (hf : f ∉ m) (e : Die) (j : Nat) :
    t.on f e j = s.on f e j := SameBut.on_field h hf e j

/-- What moves registers of one lane leaves those of another. -/
theorem Counted.rd_lane {m : List Fld} {j : Nat} (h : Counted (regsAt d i m) s t) (hj : i ≠ j) (f : Fld) (e : Die) :
    t.rd f e j = s.rd f e j := h.rd fun hm => hj (mem_regsAt.mp hm).2.2.symm

theorem Counted.trans {l : List Reg} {u : State} (h : Counted l s t) (k : Counted l t u) : Counted l s u := by
  obtain ⟨ht, hf⟩ := h
  obtain ⟨ku, kf⟩ := k
  exact ⟨by rw [ku, ht], fun f d i hm => (kf f d i hm).trans (hf f d i hm)⟩

theorem Counted.ite {l : List Reg} {c : Prop} {j : Decidable c} {u : State} (ht : Counted l s t) (hu : Counted l s u) :
    Counted l s (if c then t else u) := by
  split
  · exact ht
  · exact hu

theorem Counted.foldl {β : Type} {l : List Reg} {step : State → β → State} {m : List β} (h : ∀ u a, Counted l u (step u a)) :
    Counted l s (m.foldl step s) := List.foldlRecOn _ _ (SameBut.refl l s).counted fun _ hu a _ => hu.trans (h _ a)

/-- Steps in turn, one for each lane: what holds before the step of a lane, and what that step brings about, no other lane's
step touches. -/
theorem foldl_lane {P Q : State → Prop} {step : State → Nat → State} {a : Nat} {l : List Nat} (ha : a ∈ l) (hl : l.Nodup)
    (hP : ∀ u b, b ≠ a → P u → P (step u b)) (hQ : ∀ u b, b ≠ a → Q u → Q (step u b)) (hstep : ∀ u, P u → Q (step u a))
    (h : P s) : Q (l.foldl step s) := by
  obtain ⟨before, after, rfl⟩ := List.append_of_mem ha
  obtain ⟨-, hafter, hbefore⟩ := List.nodup_append.mp hl
  rw [List.foldl_append, List.foldl_cons]
  refine List.foldlRecOn _ _ (hstep _ (List.foldlRecOn _ _ h fun u hu b hb => hP u b ?_ hu)) fun u hu b hb => hQ u b ?_ hu
  · exact hbefore b hb a List.mem_cons_self
  · exact fun e => (List.nodup_cons.mp hafter).1 (e ▸ hb)

/-- From `s` to `t` only registers of one die and the assay counters move. -/
structure OnDie (d : Die) (s t : State) : Prop where
  parts : t = { s with regs := t.regs, assay := t.assay }
  others : ∀ f e i, e ≠ d → t.rd f e i = s.rd f e i

theorem OnDie.refl : OnDie d s s := ⟨rfl, fun _ _ _ _ => rfl⟩

theorem OnDie.trans {u : State} (h : OnDie d s t) (k : OnDie d t u) : OnDie d s u := by
  obtain ⟨ht, hf⟩ := h
  obtain ⟨ku, kf⟩ := k
  exact ⟨by rw [ku, ht], fun f e i he => (kf f e i he).trans (hf f e i he)⟩

theorem OnDie.foldl {β : Type} {step : State → β → State} {l : List β} (h : ∀ u a, OnDie d u (step u a)) :
    OnDie d s (l.foldl step s) := List.foldlRecOn _ _ .refl fun _ hu a _ => hu.trans (h _ a)

theorem Counted.onDie {l : List Reg} (h : Counted l s t) (hl : ∀ r ∈ l, r.2.1 = d) : OnDie d s t := by
  obtain ⟨ht, hf⟩ := h
  exact ⟨id ht, fun f e i he => hf f e i fun hm => he (hl _ hm)⟩

theorem regsAt_mono {l m : List Fld} (h : ∀ f ∈ l, f ∈ m) : ∀ r ∈ regsAt d i l, r ∈ regsAt d i m := fun ⟨_, _, _⟩ hr =>
  mem_regsAt.mpr ⟨h _ (mem_regsAt.mp hr).1, (mem_regsAt.mp hr).2⟩

theorem regsAt_die {l : List Fld} : ∀ r ∈ regsAt d i l, r.2.1 = d := fun ⟨_, _, _⟩ h => (mem_regsAt.mp h).2.1

end

/-! ### Calibration windows (R99 to R106) -/

section

variable {s : State} {d : Die} {a : Nat}

/-- The end of a window as the assay counters take it. -/
def State.windowCounted (s : State) (d : Die) (a : Nat) : State :=
  (if s.rd .adcCalUnit d a < 64 then s.count d (0x37 + 8 * a) else s).count d (0x32 + 8 * a)

/-- A unit whose result is out of range: the rotation pauses and its canary test starts (R104). -/
def State.unitFaulted (s : State) (d : Die) (a : Nat) : State :=
  ((s.wrs d a [(.calPaused, 1), (.calSkip, 0)]).count d (0x34 + 8 * a)).canaryStart d 4 (a * 65 + s.rd .adcCalUnit d a)

theorem State.rd_unitFaulted (s : State) (d : Die) (a : Nat) (f : Fld) :
    (s.unitFaulted d a).rd f d a = (s.wrs d a [(.calPaused, 1), (.calSkip, 0)]).rd f d a := canaryStart_rd ..

/-- The next window, unless frozen, halted or paused. -/
def State.nextWindow (s : State) (d : Die) (a : Nat) : State :=
  s.wrs d a [(.calDiscarded, 0), (.calStart, s.sf),
    (.calActive, b2n (!s.on .adcCalFreeze d && !s.on .adcCalHalted d a && !s.on .calPaused d a))]

theorem State.nextWindow_sameBut (s : State) (d : Die) (a : Nat) :
    SameBut (regsAt d a [.calDiscarded, .calActive, .calStart]) s (s.nextWindow d a) :=
  .wrs (.refl ..) _ _ _ (by simp [mem_regsAt])

theorem exec_calWindowEnd_ends {n a : Fin 4} {inRange : Bool} (hon : s.adcOn n = true) (hsf : s.sf % 16 = 0)
    (hact : s.on .calActive (faceOf n) a = true) (hst : s.rd .calStart (faceOf n) a + 16 ≤ s.sf) :
    exec (.calWindowEnd n a inRange) s = .next ((s.calResult (faceOf n) a inRange).nextWindow (faceOf n) a) := by
  change execCalWindowEnd n a inRange s = _
  unfold execCalWindowEnd
  simp only [hon, hsf, hact, Nat.not_lt.mpr hst, Bool.not_true, ne_eq, not_true_eq_false, decide_false, Bool.and_false,
    Bool.or_false, Bool.false_eq_true, if_false, if_true]
  rfl

/-- A window that nothing discarded: its unit is done, or at fault. -/
theorem State.calResult_kept (h : s.on .calDiscarded d a = false) (inRange : Bool) :
    s.calResult d a inRange =
      if inRange then (s.windowCounted d a).calAdvance d a else (s.windowCounted d a).unitFaulted d a := by
  unfold calResult windowCounted unitFaulted
  by_cases hu : s.rd .adcCalUnit d a < 64
  · simp [hu, h]
  · simp [hu, h]

theorem State.windowCounted_counted (s : State) (d : Die) (a : Nat) : Counted [] s (s.windowCounted d a) := by
  unfold windowCounted
  split
  · exact ((SameBut.refl _ s).counted.count ..).count ..
  · exact (SameBut.refl _ s).counted.count ..

/-- The unit after the present one: from 64 it is unit 0, and a rotation is counted (R102). -/
theorem State.calAdvance_spec (h : s.rd .adcCalUnit d a ≤ 64) :
    (s.calAdvance d a).rd .adcCalUnit d a = (s.rd .adcCalUnit d a + 1) % 65 ∧
      (s.calAdvance d a).rd .adcCalRotations d a =
        (if s.rd .adcCalUnit d a = 64 then (s.rd .adcCalRotations d a + 1) % 2 ^ 16 else s.rd .adcCalRotations d a) ∧
      SameBut (regsAt d a [.adcCalUnit, .adcCalRotations, .calSkip]) s (s.calAdvance d a) := by
  have hw : Fld.adcCalUnit.row.width = 7 ∧ Fld.adcCalRotations.row.width = 16 := by decide
  obtain ⟨hu, hr⟩ := hw
  have hf : SameBut (regsAt d a [.adcCalUnit, .adcCalRotations, .calSkip]) s (s.wr .calSkip d a 0) :=
    (SameBut.refl _ s).wr _ _ _ _ (by simp [mem_regsAt])
  unfold calAdvance
  dsimp only
  by_cases hlt : s.rd .adcCalUnit d a < 64
  · rw [if_pos hlt, if_neg (by omega)]
    refine ⟨?_, by simp [rd_wr], hf.wr _ _ _ _ (by simp [mem_regsAt])⟩
    rw [rd_wr_same, hu]
    omega
  · have h64 : s.rd .adcCalUnit d a = 64 := by omega
    rw [if_neg hlt, if_pos h64, h64]
    exact ⟨by simp [rd_bump], by simp [rd_bump, rd_wr, hr],
      (hf.wr _ _ _ _ (by simp [mem_regsAt])).bump _ _ _ _ (by simp [mem_regsAt])⟩

/-- CAL_WINDOW_END of a window whose result is in range. -/
theorem calWindowEnd_inRange {n a : Fin 4} (hon : s.adcOn n = true) (hsf : s.sf % 16 = 0)
    (hact : s.on .calActive (faceOf n) a = true) (hst : s.rd .calStart (faceOf n) a + 16 ≤ s.sf)
    (hd : s.on .calDiscarded (faceOf n) a = false) (hu : s.rd .adcCalUnit (faceOf n) a ≤ 64) :
    ∃ t, exec (.calWindowEnd n a true) s = .next t ∧
      t.rd .adcCalUnit (faceOf n) a = (s.rd .adcCalUnit (faceOf n) a + 1) % 65 ∧
      t.rd .adcCalRotations (faceOf n) a = (if s.rd .adcCalUnit (faceOf n) a = 64 then
        (s.rd .adcCalRotations (faceOf n) a + 1) % 2 ^ 16 else s.rd .adcCalRotations (faceOf n) a) ∧
      Counted (regsAt (faceOf n) a [.adcCalUnit, .adcCalRotations, .calSkip, .calDiscarded, .calActive, .calStart]) s t := by
  let u := (s.windowCounted (faceOf n) a).calAdvance (faceOf n) a
  have hc := s.windowCounted_counted (faceOf n) a
  have hrd (f : Fld) : (s.windowCounted (faceOf n) a).rd f (faceOf n) a = s.rd f (faceOf n) a := hc.rd (by simp)
  have hnext := u.nextWindow_sameBut (faceOf n) a
  have hexec : exec (.calWindowEnd n a true) s = .next (u.nextWindow (faceOf n) a) := by
    rw [exec_calWindowEnd_ends hon hsf hact hst, calResult_kept hd, if_pos rfl]
  obtain ⟨hunit, hrot, hframe⟩ := calAdvance_spec (s := s.windowCounted (faceOf n) a) (d := faceOf n) (a := a)
    ((hrd .adcCalUnit).trans_le hu)
  rw [hrd] at hunit
  rw [hrd, hrd] at hrot
  refine ⟨_, hexec, (hnext.rd_field (by decide) ..).trans hunit, (hnext.rd_field (by decide) ..).trans hrot, ?_⟩
  exact ((hc.mono (by simp)).sameBut (hframe.mono (regsAt_mono (by decide)))).sameBut (hnext.mono (regsAt_mono (by decide)))

/-- CAL_WINDOW_END of a window whose result is out of range. -/
theorem calWindowEnd_outOfRange {n a : Fin 4} (hon : s.adcOn n = true) (hsf : s.sf % 16 = 0)
    (hact : s.on .calActive (faceOf n) a = true) (hst : s.rd .calStart (faceOf n) a + 16 ≤ s.sf)
    (hd : s.on .calDiscarded (faceOf n) a = false) :
    ∃ t, exec (.calWindowEnd n a false) s = .next t ∧ t.rd .adcCalUnit (faceOf n) a = s.rd .adcCalUnit (faceOf n) a ∧
      t.on .calPaused (faceOf n) a = true ∧ t.on .calActive (faceOf n) a = false ∧
      t.canary = (s.canaryStart (faceOf n) 4 (a * 65 + s.rd .adcCalUnit (faceOf n) a)).canary := by
  let u := (s.windowCounted (faceOf n) a).unitFaulted (faceOf n) a
  have hc := s.windowCounted_counted (faceOf n) a
  have hnext := u.nextWindow_sameBut (faceOf n) a
  have hexec : exec (.calWindowEnd n a false) s = .next (u.nextWindow (faceOf n) a) := by
    rw [exec_calWindowEnd_ends hon hsf hact hst, calResult_kept hd, if_neg (by decide)]
  have hunit : (s.windowCounted (faceOf n) a).rd .adcCalUnit (faceOf n) a = s.rd .adcCalUnit (faceOf n) a := hc.rd (by simp)
  have hp : u.on .calPaused (faceOf n) a = true := (congrArg (· == 1) (rd_unitFaulted ..)).trans ((on_wrs ..).trans rfl)
  refine ⟨_, hexec, (hnext.rd_field (by decide) ..).trans ?_, (hnext.on_field (by decide) ..).trans hp, ?_, ?_⟩
  · exact (rd_unitFaulted ..).trans ((rd_wrs ..).trans hunit)
  · rw [nextWindow, hp, Bool.not_true, Bool.and_false]
    exact (on_wrs ..).trans rfl
  · refine (canary_canaryStart ?_ ..).trans (by rw [hunit])
    exact (congrArg State.canary hc.1 :).trans rfl

end

/-! ### Overranges (R103, R108, R109) -/

section

variable {s : State} {d : Die} {a : Nat}

/-- An overrange as it is counted. -/
def State.overrangeCounted (s : State) (d : Die) (a : Nat) : State :=
  ((s.setOnce .adcOvrSticky d a).inc .ovrCount d a).count d (0x30 + 8 * a)

/-- A window discarded by its unit's saturation. -/
def State.windowDiscarded (s : State) (d : Die) (a : Nat) : State :=
  (((s.wr .calDiscarded d a 1).inc .adcCalDiscards d a).inc .calSkip d a).count d (0x33 + 8 * a)

/-- An overrange that touches the running window. -/
abbrev State.overrangeHits (s : State) (d : Die) (a u : Nat) : Prop :=
  s.on .calActive d a = true ∧ s.on .calDiscarded d a = false ∧ s.calTouches d a u = true

theorem State.rd_overrangeCounted_ne (s : State) (d e : Die) (a j : Nat) {f : Fld} (hf : f ∉ [Fld.adcOvrSticky, Fld.ovrCount]) :
    (s.overrangeCounted d a).rd f e j = s.rd f e j := by
  simp only [List.mem_cons, List.not_mem_nil, or_false, not_or] at hf
  obtain ⟨h₁, h₂⟩ := hf
  rw [overrangeCounted, count_rd, rd_inc, if_neg fun h => h₂ h.1.symm, rd_setOnce_ne _ (Ne.symm h₁)]

theorem State.on_overrangeCounted_sticky (s : State) (d : Die) (a : Nat) :
    (s.overrangeCounted d a).on .adcOvrSticky d a = true := by
  have h : (s.overrangeCounted d a).on .adcOvrSticky d a = (s.setOnce .adcOvrSticky d a).on .adcOvrSticky d a :=
    congrArg (· == 1) (rd_wr_ne _ _ _ _ _ _ (by simp))
  rw [h, setOnce_on _ (by decide)]

theorem State.rd_overrangeCounted_count (s : State) (d : Die) (a : Nat) :
    (s.overrangeCounted d a).rd .ovrCount d a = min (s.rd .ovrCount d a + 1) 0xFFFF := by
  rw [overrangeCounted, count_rd, rd_inc, if_pos ⟨rfl, rfl, rfl⟩, rd_setOnce_ne _ (by decide),
    show Fld.ovrCount.row.width = 16 by decide]
  rfl

theorem exec_adcOverrange_on {n a : Fin 4} {u : Fin 65} (h : s.adcOn n = true) :
    exec (.adcOverrange n a u) s = .next (if s.overrangeHits (faceOf n) a u
      then (s.overrangeCounted (faceOf n) a).windowDiscarded (faceOf n) a else s.overrangeCounted (faceOf n) a) := by
  have hrd {f : Fld} (hf : f ∉ [Fld.adcOvrSticky, Fld.ovrCount]) :
      (s.overrangeCounted (faceOf n) a).rd f (faceOf n) a = s.rd f (faceOf n) a := rd_overrangeCounted_ne _ _ _ _ _ hf
  have ht : (s.overrangeCounted (faceOf n) a).calTouches (faceOf n) a u = s.calTouches (faceOf n) a u := by
    unfold calTouches
    rw [hrd (by decide), hrd (by decide)]
  have hhit : ((s.overrangeCounted (faceOf n) a).on .calActive (faceOf n) a &&
      !(s.overrangeCounted (faceOf n) a).on .calDiscarded (faceOf n) a &&
      (s.overrangeCounted (faceOf n) a).calTouches (faceOf n) a u) = true ↔ s.overrangeHits (faceOf n) a u := by
    rw [ht, on, hrd (by decide), on, hrd (by decide)]
    simp [overrangeHits, on, and_assoc]
  change execAdcOverrange n a u s = _
  unfold execAdcOverrange
  simp only [h, Bool.not_true, Bool.false_eq_true, if_false]
  exact congrArg Host.Outcome.next (if_congr hhit rfl rfl)

/-- ADC_OVERRANGE of a converter that runs. -/
theorem adcOverrange_spec {n a : Fin 4} {u : Fin 65} (h : s.adcOn n = true) :
    ∃ t, exec (.adcOverrange n a u) s = .next t ∧ t.on .adcOvrSticky (faceOf n) a = true ∧
      t.rd .ovrCount (faceOf n) a = min (s.rd .ovrCount (faceOf n) a + 1) 0xFFFF ∧
      t.events = (if s.on .adcOvrSticky (faceOf n) a = true then s.events
        else (s.raiseField .adcOvrSticky (faceOf n) a).events) ∧
      (s.overrangeHits (faceOf n) a u → t.on .calDiscarded (faceOf n) a = true ∧
        t.rd .adcCalDiscards (faceOf n) a = min (s.rd .adcCalDiscards (faceOf n) a + 1) 0xFFFF) ∧
      (¬s.overrangeHits (faceOf n) a u → ∀ f ∉ [Fld.adcOvrSticky, Fld.ovrCount], ∀ e j, t.rd f e j = s.rd f e j) := by
  have hev : (s.overrangeCounted (faceOf n) a).events = _ := s.setOnce_events .adcOvrSticky (faceOf n) a
  refine ⟨_, exec_adcOverrange_on h, ?_⟩
  by_cases hh : s.overrangeHits (faceOf n) a u
  · have hk : Keeps (· ∉ [Fld.calDiscarded, .adcCalDiscards, .calSkip]) (fun _ => ()) (s.overrangeCounted (faceOf n) a)
        ((s.overrangeCounted (faceOf n) a).windowDiscarded (faceOf n) a) := Keeps.refl.wr.inc.inc.count
    rw [if_pos hh]
    refine ⟨(hk.on (by decide) ..).trans (on_overrangeCounted_sticky ..),
      (hk.rd _ (by decide) ..).trans (rd_overrangeCounted_count ..), hev, fun _ => ⟨?_, ?_⟩, fun hn => absurd hh hn⟩
    · simp [windowDiscarded, on, rd_inc, show Fld.calDiscarded.row.width = 1 by decide]
    · simp [windowDiscarded, rd_inc, rd_wr, rd_overrangeCounted_ne, show Fld.adcCalDiscards.row.width = 16 by decide]
  · rw [if_neg hh]
    exact ⟨on_overrangeCounted_sticky .., rd_overrangeCounted_count .., hev, fun hy => absurd hy hh,
      fun _ _ hf e j => rd_overrangeCounted_ne _ _ _ _ _ hf⟩

end
/-! ### The latches of an SF (R109, R116, R125, R191) -/

/-- What an ADC lane's latches write. -/
def latchFields : List Fld := [.adcOvrSfCount, .ovrCount, .adcOvrSfTotal, .ovrRun, .tiaQuiet]

/-- What the receiver's LOS judgement of an SF writes. -/
def losFields : List Fld := [.losLow, .losHigh, .sigRun]

/-- What the runs of the equaliser and the training search write. -/
def runFields : List Fld :=
  [.errLowRun, .errHighRun, .trainRun, .trainMiss, .trainAt, .crFreqOffset, .cleanRun, .outlierSeen]

section

variable {s : State} {d : Die} {a n : Nat} {rms : List (BitVec 8)} {rx : RxReport}

theorem State.ovrLatch_counted (s : State) (d : Die) (a peak : Nat) :
    Counted (regsAt d a latchFields) s (s.ovrLatch d a peak) := by
  have h := (SameBut.refl (regsAt d a latchFields) s).counted
  have h₁ (c : Nat) : Counted (regsAt d a latchFields) s (s.wrs d a [(.adcOvrSfCount, c), (.ovrCount, 0)]) :=
    h.wrs _ _ _ (by simp [mem_regsAt, latchFields])
  have h₂ (c : Nat) := ((h₁ c).inc .adcOvrSfTotal d a 1 (by simp [mem_regsAt, latchFields])).count d (0x31 + 8 * a) 1
  refine .ite (h.wrs _ _ _ (by simp [mem_regsAt, latchFields])) ?_
  exact .wr (.wr (.ite (h₁ _) (h₂ _)) _ _ _ _ (by simp [mem_regsAt, latchFields])) _ _ _ _ (by simp [mem_regsAt, latchFields])

/-- One lane's latches take the count of the SF, which starts again (R109). -/
theorem State.ovrLatch_takes (hf : s.on .fgCal d = false) (hc : s.rd .ovrCount d a < 2 ^ 16) (peak : Nat) :
    (s.ovrLatch d a peak).rd .adcOvrSfCount d a = s.rd .ovrCount d a ∧ (s.ovrLatch d a peak).rd .ovrCount d a = 0 := by
  have hw : Fld.adcOvrSfCount.row.width = 16 := by decide
  unfold ovrLatch
  rw [if_neg (by simp [hf])]
  dsimp only
  split
  · simpa [rd_wr, hw] using hc
  · simpa [rd_wr, rd_inc, hw] using hc

/-- The clipped samples of a DAC lane, shown and counted (R116). -/
def State.clipLatch (s : State) (d : Die) (a k : Nat) : State :=
  ((s.wr .dacClipSf d a k).count d (0x50 + 4 * a) k).count d (0x51 + 4 * a) (min 1 k)

theorem State.clipLatch_counted (s : State) (d : Die) (a k : Nat) : Counted [(.dacClipSf, d, a)] s (s.clipLatch d a k) :=
  (((SameBut.refl _ s).wr _ _ _ _ (by simp)).counted.count ..).count ..

theorem State.dacTick_counted (s : State) (d : Die) : Counted (regsAt d 0 [.dacPart, .dacSent]) s (s.dacTick d) := by
  have h := SameBut.refl (regsAt d 0 [.dacPart, .dacSent]) s
  refine .ite h.counted (.ite (h.wr _ _ _ _ (by simp [mem_regsAt])).counted ?_)
  exact (h.inc _ _ _ _ (by simp [mem_regsAt])).counted.trans (.foldl (fun u a => (SameBut.refl _ u).counted.count ..))

theorem State.stepTick_counted (s : State) (d : Die) : Counted [] s (s.stepTick d) :=
  ((SameBut.refl _ s).counted.count ..).count ..

theorem State.losTick_sameBut (s : State) (n : Nat) (rms : List (BitVec 8)) :
    SameBut (regsAt (faceOf n) 0 losFields) s (s.losTick n rms) := by
  refine .wr (.wrs (.refl ..) _ _ _ fun p hp => ?_) _ _ _ _ (by simp [mem_regsAt, losFields])
  split at hp
  · revert p; simp [mem_regsAt, losFields]
  · revert p; simp [mem_regsAt, losFields]

theorem State.eqTick_counted (s : State) (n : Nat) (rx : RxReport) :
    Counted (regsAt (faceOf n) 0 runFields) s (s.eqTick n rx) := by
  unfold eqTick
  extract_lets d s₁ s₂ s₃ s₄
  have h₁ : Counted (regsAt d 0 runFields) s s₁ := .wrs (SameBut.refl _ s).counted _ _ _ (by simp [mem_regsAt, runFields])
  have h₂ : Counted (regsAt d 0 runFields) s s₂ := .ite (h₁.count ..) h₁
  have h₃ : Counted (regsAt d 0 runFields) s s₃ := by
    dsimp only [s₃]
    split
    · exact h₂.wrs _ _ _ (by simp [mem_regsAt, runFields])
    · exact h₂.wrs _ _ _ (by simp [mem_regsAt, runFields])
  have h₄ : Counted (regsAt d 0 runFields) s s₄ := .ite (h₃.wr _ _ _ _ (by simp [mem_regsAt, runFields])) h₃
  exact h₄.wrs _ _ _ (by simp [mem_regsAt, runFields])

/-- Outside foreground calibration and with no restart asked for, an SF's end only counts at the receiver. -/
theorem State.rxTick_counts (hf : s.on .fgCal (faceOf n) = false) (hr : s.on .acqRestartPend (faceOf n) = false) (rx : RxReport) :
    s.rxTick n rx = ((s.losTick n rx.rms).eqTick n rx).wr .eqFrozen (faceOf n) 0
      (((s.losTick n rx.rms).eqTick n rx).rd .eqFreeze (faceOf n)) := by
  have hp : (((s.losTick n rx.rms).eqTick n rx).wr .eqFrozen (faceOf n) 0
      (((s.losTick n rx.rms).eqTick n rx).rd .eqFreeze (faceOf n))).on .acqRestartPend (faceOf n) = false := by
    rw [on, rd_wr_ne _ _ _ _ _ _ (by simp), (eqTick_counted ..).rd_field (by decide), (losTick_sameBut ..).rd_field (by decide)]
    exact hr
  unfold rxTick
  simp only [hf, Bool.false_eq_true, if_false, hp]

theorem State.rxTick_counted (hf : s.on .fgCal (faceOf n) = false) (hr : s.on .acqRestartPend (faceOf n) = false)
    (rx : RxReport) : Counted (regsAt (faceOf n) 0 (.eqFrozen :: losFields ++ runFields)) s (s.rxTick n rx) := by
  rw [rxTick_counts hf hr]
  exact .wr (.trans ((losTick_sameBut ..).counted.mono (regsAt_mono (by decide)))
    ((eqTick_counted ..).mono (regsAt_mono (by decide)))) _ _ _ _ (by simp [mem_regsAt])

/-- The LOS judgement: the SF adds to the run it belongs to and ends the other (R191). -/
theorem State.rxTick_los (hf : s.on .fgCal (faceOf n) = false) (hr : s.on .acqRestartPend (faceOf n) = false) (rx : RxReport) :
    let t := s.rxTick n rx
    ((rx.rms.map (·.toNat)).sum < 4 * s.rd .acqLosThresh (faceOf n) →
        t.rd .losLow (faceOf n) = min 16 (s.rd .losLow (faceOf n) + 1) ∧ t.rd .losHigh (faceOf n) = 0) ∧
      (¬(rx.rms.map (·.toNat)).sum < 4 * s.rd .acqLosThresh (faceOf n) →
        t.rd .losHigh (faceOf n) = min 16 (s.rd .losHigh (faceOf n) + 1) ∧ t.rd .losLow (faceOf n) = 0) := by
  intro t
  have hw : Fld.losLow.row.width = 5 ∧ Fld.losHigh.row.width = 5 := by decide
  obtain ⟨hl, hh⟩ := hw
  have hrd (f : Fld) (hm : f ∈ [Fld.losLow, .losHigh]) : t.rd f (faceOf n) = (s.losTick n rx.rms).rd f (faceOf n) := by
    have hn : f ≠ .eqFrozen ∧ f ∉ runFields := by revert f; decide
    obtain ⟨h₁, h₂⟩ := hn
    rw [show t = _ from rxTick_counts hf hr rx, rd_wr_ne _ _ _ _ _ _ fun h => h₁ h.1.symm,
      (eqTick_counted ..).rd_field h₂]
  rw [hrd .losLow (by simp), hrd .losHigh (by simp)]
  refine ⟨fun h => ?_, fun h => ?_⟩
  · simp [losTick, rd_wr, h, hl]
  · simp [losTick, rd_wr, h, hh]

/-- The latches of the four ADC lanes, then of the four DAC lanes. -/
def State.lanesLatch (s : State) (d : Die) (peaks : List (Fin 129)) (clips : List (BitVec 16)) : State :=
  (List.range 4).foldl (fun s a => s.clipLatch d a (clips.getD a 0).toNat)
    ((List.range 4).foldl (fun s a => s.ovrLatch d a (peaks.getD a 0).val) s)

theorem State.lanesLatch_onDie (s : State) (d : Die) (peaks : List (Fin 129)) (clips : List (BitVec 16)) :
    OnDie d s (s.lanesLatch d peaks clips) :=
  .trans (.foldl fun u a => (u.ovrLatch_counted d a _).onDie regsAt_die)
    (.foldl fun u a => (u.clipLatch_counted d a _).onDie (by simp))

/-- A field that no lane's latches write. -/
theorem State.rd_lanesLatch (s : State) (d : Die) (peaks : List (Fin 129)) (clips : List (BitVec 16)) {f : Fld}
    (hf : f ∉ .dacClipSf :: latchFields) (e : Die) (i : Nat) : (s.lanesLatch d peaks clips).rd f e i = s.rd f e i := by
  obtain ⟨hClip, hLatch⟩ := List.ne_and_not_mem_of_not_mem_cons hf
  refine List.foldlRecOn (motive := fun u : State => u.rd f e i = s.rd f e i) _ _ ?_ fun u hu a _ => ?_
  · exact List.foldlRecOn (motive := fun u : State => u.rd f e i = s.rd f e i) _ _ rfl fun u hu a _ =>
      ((u.ovrLatch_counted d a _).rd_field hLatch ..).trans hu
  · exact ((u.clipLatch_counted d a _).rd (by simp [hClip])).trans hu

/-- Each ADC lane's count of the SF is taken and starts again, each DAC lane's clipped samples are shown (R109, R116). -/
theorem State.lanesLatch_takes (hf : s.on .fgCal d = false) (a : Fin 4) (hc : s.rd .ovrCount d a < 2 ^ 16)
    (peaks : List (Fin 129)) (clips : List (BitVec 16)) :
    (s.lanesLatch d peaks clips).rd .adcOvrSfCount d a = s.rd .ovrCount d a ∧ (s.lanesLatch d peaks clips).rd .ovrCount d a = 0 ∧
      (s.lanesLatch d peaks clips).rd .dacClipSf d a = (clips.getD a 0).toNat := by
  have ha : a.val ∈ List.range 4 := List.mem_range.mpr a.isLt
  have other {u : State} {b peak : Nat} (hb : b ≠ a) (f : Fld) : (u.ovrLatch d b peak).rd f d a = u.rd f d a :=
    (u.ovrLatch_counted d b peak).rd_lane hb f d
  have same {u : State} {b k : Nat} {f : Fld} (h : ¬(f = .dacClipSf ∧ b = a)) : (u.clipLatch d b k).rd f d a = u.rd f d a :=
    (u.clipLatch_counted d b k).rd (by simpa [eq_comm] using h)
  have hadc := foldl_lane (P := fun u => u.on .fgCal d = false ∧ u.rd .ovrCount d a = s.rd .ovrCount d a)
    (Q := fun u => u.rd .adcOvrSfCount d a = s.rd .ovrCount d a ∧ u.rd .ovrCount d a = 0)
    (step := fun u a => u.ovrLatch d a (peaks.getD a 0).val) ha List.nodup_range
    (fun u b hb h => ⟨((u.ovrLatch_counted d b _).on_field (by decide) ..).trans h.1, (other hb _).trans h.2⟩)
    (fun u b hb h => by rwa [other hb, other hb])
    (fun u h => h.2 ▸ ovrLatch_takes h.1 (h.2.trans_lt hc) _) ⟨hf, rfl⟩
  have hdac := foldl_lane (P := fun _ => True) (Q := fun u => u.rd .dacClipSf d a = (clips.getD a 0).toNat)
    (step := fun u a => u.clipLatch d a (clips.getD a 0).toNat) ha List.nodup_range (fun _ _ _ => id)
    (fun u b hb h => (same fun e => hb e.2).trans h)
    (fun u _ => (rd_wr_same ..).trans (Nat.mod_eq_of_lt ((clips.getD a 0).isLt.trans_eq (by decide))))
    (s := (List.range 4).foldl (fun u a => u.ovrLatch d a (peaks.getD a 0).val) s) trivial
  have hkeep {f : Fld} (h : f ≠ .dacClipSf) : (s.lanesLatch d peaks clips).rd f d a =
      ((List.range 4).foldl (fun u a => u.ovrLatch d a (peaks.getD a 0).val) s).rd f d a :=
    List.foldlRecOn (motive := fun u : State => u.rd f d a = _) _ _ rfl fun u hu b _ => (same fun e => h e.1).trans hu
  exact ⟨(hkeep (by decide)).trans hadc.1, (hkeep (by decide)).trans hadc.2, hdac⟩

/-- OVR_SF_LATCH outside foreground calibration, with no restart asked for. -/
theorem ovrSfLatch_spec (n : Fin 4) (peaks : List (Fin 129)) (clips : List (BitVec 16)) (rx : RxReport) (s : State)
    (h : s.hasCarrier n = true) (hf : s.on .fgCal (faceOf n) = false) (hr : s.on .acqRestartPend (faceOf n) = false) :
    let low := (rx.rms.map (·.toNat)).sum < 4 * s.rd .acqLosThresh (faceOf n)
    ∃ t, exec (.ovrSfLatch n peaks clips rx) s = .next t ∧
      (∀ a : Fin 4, s.rd .ovrCount (faceOf n) a < 2 ^ 16 →
        t.rd .adcOvrSfCount (faceOf n) a = s.rd .ovrCount (faceOf n) a ∧ t.rd .ovrCount (faceOf n) a = 0 ∧
          t.rd .dacClipSf (faceOf n) a = (clips.getD a 0).toNat) ∧
      (low → t.rd .losLow (faceOf n) = min 16 (s.rd .losLow (faceOf n) + 1) ∧ t.rd .losHigh (faceOf n) = 0) ∧
      (¬low → t.rd .losHigh (faceOf n) = min 16 (s.rd .losHigh (faceOf n) + 1) ∧ t.rd .losLow (faceOf n) = 0) ∧
      t = { s with regs := t.regs, assay := t.assay } ∧ ∀ f e i, e ≠ faceOf n → t.rd f e i = s.rd f e i := by
  intro low
  let u := ((s.lanesLatch (faceOf n) peaks clips).dacTick (faceOf n)).stepTick (faceOf n)
  have hu : Counted (regsAt (faceOf n) 0 [.dacPart, .dacSent]) (s.lanesLatch (faceOf n) peaks clips) u :=
    (dacTick_counted ..).trans ((stepTick_counted ..).mono (by simp))
  have hrd {f : Fld} (h : f ∉ [Fld.dacPart, .dacSent]) (i : Nat) :
      u.rd f (faceOf n) i = (s.lanesLatch (faceOf n) peaks clips).rd f (faceOf n) i := hu.rd_field h ..
  have hsame {f : Fld} (h : f ∉ [Fld.dacPart, .dacSent]) (hl : f ∉ .dacClipSf :: latchFields) :
      u.rd f (faceOf n) = s.rd f (faceOf n) := (hrd h 0).trans (rd_lanesLatch _ _ _ _ hl _ _)
  have hfu : u.on .fgCal (faceOf n) = false := (congrArg (· == 1) (hsame (by decide) (by decide))).trans hf
  have hru : u.on .acqRestartPend (faceOf n) = false := (congrArg (· == 1) (hsame (by decide) (by decide))).trans hr
  have hrx := rxTick_counted hfu hru rx
  have hend {f : Fld} (h : f ∉ .eqFrozen :: losFields ++ runFields) (hn : f ∉ [Fld.dacPart, .dacSent]) (i : Nat) :
      (u.rxTick n rx).rd f (faceOf n) i = (s.lanesLatch (faceOf n) peaks clips).rd f (faceOf n) i :=
    (hrx.rd_field h ..).trans (hrd hn i)
  have hdie : OnDie (faceOf n) s (u.rxTick n rx) :=
    (lanesLatch_onDie ..).trans ((hu.onDie regsAt_die).trans (hrx.onDie regsAt_die))
  have hlos := rxTick_los hfu hru rx
  rw [hsame (f := .acqLosThresh) (by decide) (by decide), hsame (f := .losLow) (by decide) (by decide),
    hsame (f := .losHigh) (by decide) (by decide)] at hlos
  refine ⟨u.rxTick n rx, if_neg (by simp [h]), fun a hc => ?_, hlos.1, hlos.2, hdie.parts, hdie.others⟩
  rw [hend (by decide) (by decide), hend (by decide) (by decide), hend (by decide) (by decide)]
  exact lanesLatch_takes hf a hc peaks clips

end

/-! ### Foreground calibration (R99, R107, R119) -/

section

variable {s : State} {d : Die}

/-- A lane at the end of a foreground calibration: its rotation restarts at unit 0 unless it is halted. -/
def State.fgLane (s : State) (d : Die) (a : Nat) : State :=
  let s := s.count d (0x36 + 8 * a)
  if s.on .adcCalHalted d a then s
  else s.wrs d a [(.adcCalUnit, 0), (.calSkip, 0), (.calDiscarded, 0), (.calPaused, 0), (.calActive, 0)]

theorem State.fgLane_counted (s : State) (d : Die) (a : Nat) :
    Counted (regsAt d a [.adcCalUnit, .calSkip, .calDiscarded, .calPaused, .calActive]) s (s.fgLane d a) :=
  have h := (SameBut.refl _ s).counted.count d (0x36 + 8 * a) 1
  .ite h (h.wrs _ _ _ (by simp [mem_regsAt]))

theorem State.fgLane_restarts {a : Nat} (h : s.on .adcCalHalted d a = false) : (s.fgLane d a).rd .adcCalUnit d a = 0 := by
  have he : s.fgLane d a = (s.count d (0x36 + 8 * a)).wrs d a
      [(.adcCalUnit, 0), (.calSkip, 0), (.calDiscarded, 0), (.calPaused, 0), (.calActive, 0)] := if_neg (by simp [h])
  rw [he]
  exact (rd_wrs ..).trans rfl

theorem State.fgEnd_eq (s : State) (d : Die) :
    ∃ part, s.fgEnd d =
      ((List.range 4).foldl (fun s a => s.fgLane d a) s).wrs d 0 [(.fgCal, 0), (.dacPause, 0), (.dacPart, part)] :=
  ⟨_, rfl⟩

/-- FOREGROUND_CAL_DONE of a calibration that runs. -/
theorem foregroundCalDone_spec (n : Fin 4) (s : State) (h : s.on .fgCal (faceOf n) = true) :
    ∃ t, exec (.foregroundCalDone n) s = .next t ∧ t.on .fgCal (faceOf n) = false ∧ t.on .dacPause (faceOf n) = false ∧
      (∀ a : Fin 4, s.on .adcCalHalted (faceOf n) a = false → t.rd .adcCalUnit (faceOf n) a = 0) ∧
      t = { s with regs := t.regs, assay := t.assay } ∧ (∀ f d i, d ≠ faceOf n → t.rd f d i = s.rd f d i) := by
  obtain ⟨part, he⟩ := s.fgEnd_eq (faceOf n)
  have hlanes : OnDie (faceOf n) s ((List.range 4).foldl (fun s a => s.fgLane (faceOf n) a) s) :=
    .foldl fun u a => (u.fgLane_counted _ a).onDie regsAt_die
  have hw (u : State) : SameBut (regsAt (faceOf n) 0 [.fgCal, .dacPause, .dacPart]) u
      (u.wrs (faceOf n) 0 [(.fgCal, 0), (.dacPause, 0), (.dacPart, part)]) := .wrs (.refl ..) _ _ _ (by simp [mem_regsAt])
  have hdie := hlanes.trans ((hw _).counted.onDie regsAt_die)
  refine ⟨_, (congrArg Host.Outcome.next (if_pos h)).trans (congrArg _ he), (on_wrs ..).trans rfl, (on_wrs ..).trans rfl,
    fun a ha => ?_, hdie.parts, hdie.others⟩
  rw [(hw _).rd_field (by decide)]
  exact foldl_lane (P := fun u => u.on .adcCalHalted (faceOf n) a = false) (Q := fun u => u.rd .adcCalUnit (faceOf n) a = 0)
    (step := fun u a => u.fgLane (faceOf n) a) (List.mem_range.mpr a.isLt) List.nodup_range
    (fun u b _ hu => ((u.fgLane_counted _ b).on_field (by decide) ..).trans hu)
    (fun u b hb hu => ((u.fgLane_counted _ b).rd_lane hb ..).trans hu)
    (fun u hu => fgLane_restarts hu) ha

end

/-- Settles O10: a window's end by its result, an overrange by what it touches, the latches lane by lane, and the end of a
calibration. -/
theorem calibrationOverrangeAndSuperframeLatches : Obligations.CalibrationOverrangeAndSuperframeLatches :=
  ⟨⟨fun _ _ _ hon hsf hact hst hd hu => ⟨calWindowEnd_inRange hon hsf hact hst hd hu,
      calWindowEnd_outOfRange hon hsf hact hst hd⟩,
    fun _ _ _ _ hon => adcOverrange_spec hon⟩,
    fun n peaks clips rx s h hf hr => ovrSfLatch_spec n peaks clips rx s h hf hr, foregroundCalDone_spec⟩
/-! ### TIA gain requests (R111 to R114, R130) -/

section

variable {s : State} {d : Die} {a : Nat}

/-- A request queued, counted, its hold-off begun. -/
theorem State.tiaRequest_spec (s : State) (d : Die) (a : Nat) (up : Bool) :
    (s.tiaRequest d a up).rd .adcTiaRequests d a = min (s.rd .adcTiaRequests d a + 1) 0xFFFF ∧
      (s.tiaRequest d a up).on .tiaHold d a = true ∧
      (s.tiaRequest d a up).rd .tiaHoldUntil d a = (s.sf + s.rd .adcTiaHoldoff d) % 2 ^ 48 ∧
      (s.tiaRequest d a up).rd .ovrRun d a = 0 ∧
      Counted (regsAt d a [.adcTiaRequests, .tiaHold, .tiaHoldUntil, .ovrRun])
        { s with spi := s.spi ++ [⟨d, .tia a up, []⟩] } (s.tiaRequest d a up) := by
  have hw : Fld.adcTiaRequests.row.width = 16 ∧ Fld.tiaHoldUntil.row.width = 48 := by decide
  obtain ⟨hreq, hhold⟩ := hw
  let u : State := { s with spi := s.spi ++ [⟨d, .tia a up, []⟩] }
  let v := (u.inc .adcTiaRequests d a).count d (0x35 + 8 * a)
  have hv : Counted (regsAt d a [.adcTiaRequests, .tiaHold, .tiaHoldUntil, .ovrRun]) u v :=
    ((SameBut.refl _ u).inc _ _ _ _ (by simp [mem_regsAt])).counted.count ..
  have h : s.tiaRequest d a up =
      v.wrs d a [(.tiaHold, 1), (.tiaHoldUntil, s.sf + s.rd .adcTiaHoldoff d), (.ovrRun, 0)] := rfl
  rw [h]
  refine ⟨(rd_wrs ..).trans ?_, (on_wrs ..).trans rfl, (rd_wrs ..).trans ?_, (rd_wrs ..).trans rfl,
    hv.wrs _ _ _ (by simp [mem_regsAt])⟩
  · exact (rd_inc u ..).trans (by rw [if_pos ⟨rfl, rfl, rfl⟩, hreq]; rfl)
  · rw [hhold.symm]
    rfl

section

variable {n a : Fin 4}

/-- TIA_GAIN_DOWN where a request is due: at the least gain tia_at_min sets instead (R111, R113). -/
theorem exec_tiaGainDown_due (he : s.on .adcTiaReqEn (faceOf n) = true) (hr : 4 ≤ s.rd .ovrRun (faceOf n) a)
    (hh : s.on .tiaHold (faceOf n) a = false) (hp : s.on .sitePresent (faceOf n) = true) :
    exec (.tiaGainDown n a) s =
      if s.rd .adcTiaGainShadow (faceOf n) a ≤ s.rd .tiaMin (faceOf n) then .next (s.setOnce .adcTiaAtMin (faceOf n) a)
      else .next (s.tiaRequest (faceOf n) a false) := if_neg (by simp [he, hr, hh, hp])

theorem exec_tiaGainUp_due (he : s.on .adcTiaUpEn (faceOf n) = true)
    (hq : s.rd .adcTiaUpSf (faceOf n) ≤ s.rd .tiaQuiet (faceOf n) a)
    (hg : s.rd .adcTiaGainShadow (faceOf n) a < s.rd .tiaMax (faceOf n)) (hh : s.on .tiaHold (faceOf n) a = false)
    (hp : s.on .sitePresent (faceOf n) = true) :
    exec (.tiaGainUp n a) s = .next (s.tiaRequest (faceOf n) a true) := if_pos (by simp [he, hq, hg, hh, hp])

theorem exec_tiaHoldoffEnd_over (hh : s.on .tiaHold (faceOf n) a = true) (hu : s.rd .tiaHoldUntil (faceOf n) a ≤ s.sf) :
    exec (.tiaHoldoffEnd n a) s = .next (s.wrs (faceOf n) a [(.tiaHold, 0), (.ovrRun, 0)]) := if_pos (by simp [hh, hu])

end

/-- The gain written lies between tia_min and tia_max (R130). -/
theorem State.tiaValue_bounds (h : s.rd .tiaMin d ≤ s.rd .tiaMax d) (up : Bool) :
    s.rd .tiaMin d ≤ s.tiaValue d a up ∧ s.tiaValue d a up ≤ s.rd .tiaMax d :=
  ⟨Nat.le_max_left .., Nat.max_le.mpr ⟨h, Nat.min_le_left ..⟩⟩

end

/-- Settles O11: a request by `State.tiaRequest`, the least gain by `State.setOnce`, the byte by its clamp. -/
theorem tiaGainRequestsStepWithinBounds : Obligations.TiaGainRequestsStepWithinBounds := by
  refine ⟨fun n a s => ⟨fun he hr hh hp => ⟨fun hg => ?_, fun hg hm => ?_⟩, fun he hq hg hh hp => ?_, fun hh hu => ?_⟩,
    fun d a up s h => ?_⟩
  · exact ⟨_, (exec_tiaGainDown_due he hr hh hp).trans (if_neg (Nat.not_le.mpr hg)), tiaRequest_spec ..⟩
  · refine ⟨_, (exec_tiaGainDown_due he hr hh hp).trans (if_pos hg), setOnce_on _ (by decide) .., ?_⟩
    rw [setOnce_clear hm]
    exact .wr (.refl ..) _ _ _ _ (by simp)
  · exact ⟨_, exec_tiaGainUp_due he hq hg hh hp, tiaRequest_spec ..⟩
  · exact ⟨_, exec_tiaHoldoffEnd_over hh hu, (on_wrs ..).trans rfl, (rd_wrs ..).trans rfl,
      .wrs (.refl ..) _ _ _ (by simp [mem_regsAt])⟩
  · obtain ⟨hlo, hhi⟩ := tiaValue_bounds (a := a) h up
    exact ⟨hlo, hhi, rfl⟩

/-! ### A site's SPI controller (R122, R128 to R131) -/

theorem SpiKind.rank_lt (k : SpiKind) : k.rank < 3 := by cases k <;> simp [rank]

section

variable {d : Die} {l : List SpiReq} {x : SpiReq}

/-- The transaction that a free controller takes: one of its site's, and none of them ranks lower. -/
theorem nextSpi_spec (h : nextSpi d l = some x) : x ∈ l ∧ x.die = d ∧ ∀ r ∈ l, r.die = d → x.kind.rank ≤ r.kind.rank := by
  obtain ⟨before, k, after, hl, hx, hbefore⟩ := List.findSome?_eq_some_iff.mp h
  have hrank : x.kind.rank = k := by simpa using List.find?_some hx
  obtain ⟨hmem, hdie⟩ := List.mem_filter.mp (List.mem_of_find?_eq_some hx)
  refine ⟨hmem, by simpa using hdie, fun r hr hd => Nat.le_of_not_lt fun hlt => ?_⟩
  have hin : r.kind.rank ∈ before := by
    have hr3 : r.kind.rank ∈ before ++ k :: after := hl ▸ List.mem_range.mpr r.kind.rank_lt
    have hsorted : (before ++ k :: after).Pairwise (· < ·) := hl ▸ List.pairwise_lt_range
    obtain ⟨-, hk, -⟩ := List.pairwise_append.mp hsorted
    rcases List.mem_append.mp hr3 with hb | ha
    · exact hb
    · rcases List.mem_cons.mp ha with he | ha
      · omega
      · have := (List.pairwise_cons.mp hk).1 _ ha
        omega
  have := List.find?_eq_none.mp (hbefore _ hin) r (List.mem_filter.mpr ⟨hr, by simpa using hd⟩)
  simp at this

end

section

variable {s : State}

theorem exec_spiTransactionStart_free {n : Fin 4} {x : SpiReq} (hf : s.spiActive.any (·.die == faceOf n) = false)
    (hp : s.on .sitePresent (faceOf n) = true) (hu : s.domUp (faceOf n) Dom.auxm = true)
    (hx : nextSpi (faceOf n) s.spi = some x) :
    exec (.spiTransactionStart n) s = .next { s with
      spi := s.spi.erase x, spiActive := s.spiActive ++ [{ x with bytes := s.spiBytes (faceOf n) x.kind }] } := by
  change execSpiTransactionStart n s = _
  unfold execSpiTransactionStart
  simp only [hf, hp, hu, hx, Bool.not_true, Bool.or_false, Bool.false_eq_true, if_false]

/-- What the end of a transaction leaves, by its kind (R129 to R131, R496). -/
def State.spiEnded (s : State) (d : Die) (r : SpiReq) (miso : Nat) : State :=
  match r.kind with
  | .tia a _ => s.wr .adcTiaGainShadow d a (r.bytes.getD 2 0)
  | .trim _ => s.wr .ptrimShadow d 0 (r.bytes.getD 2 0)
  | .host o => (s.spiHostShadow d o).finish 0x18 o .ok (miso % 2 ^ (8 * bits o.arg0.toNat 7 4))

theorem exec_spiTransactionDone_running {n : Fin 4} {miso : BitVec 64} {r : SpiReq}
    (h : s.spiActive.find? (·.die == faceOf n) = some r) :
    exec (.spiTransactionDone n miso) s =
      .next (State.spiEnded { s with spiActive := s.spiActive.erase r } (faceOf n) r miso.toNat) := by
  change execSpiTransactionDone n miso s = _
  unfold execSpiTransactionDone State.spiEnded
  simp only [h]
  cases r.kind <;> rfl

/-- A host transaction moves a lane's shadow at most. -/
theorem State.spiHostShadow_eq (s : State) (d : Die) (o : Desc) :
    s.spiHostShadow d o = { s with regs := (s.spiHostShadow d o).regs } := by
  unfold spiHostShadow
  dsimp only
  split
  · rfl
  · rfl

/-- A host's transaction has ended: it is in flight no longer, and where its ring exists its completion carries the bytes read. -/
theorem State.spiEnded_host (s : State) (d : Die) (r : SpiReq) (miso : Nat) (o : Desc) (hr : r.kind = .host o) :
    (∀ k ∈ (s.spiEnded d r miso).inflight, k.isFor o = false) ∧
      (∀ q, s.inflight.any (·.isFor o) = true → Cells.find o.ring s.rings = some q →
        (s.spiEnded d r miso).compl = s.compl ++ [⟨o.fn, o.ring, q.cq, 0x18, o.tag.toNat, 0,
          miso % 2 ^ (8 * bits o.arg0.toNat 7 4), o.irqNow, o.die⟩]) := by
  have he : s.spiEnded d r miso = (s.spiHostShadow d o).finish 0x18 o .ok (miso % 2 ^ (8 * bits o.arg0.toNat 7 4)) := by
    unfold spiEnded
    rw [hr]
  have hs := s.spiHostShadow_eq d o
  rw [he]
  refine ⟨fun k hk => ?_, fun q hin hq => ?_⟩
  · rw [finish_inflight] at hk
    simpa using (List.mem_filter.mp hk).2
  · have hin' : (s.spiHostShadow d o).inflight.any (·.isFor o) = true := by rw [hs]; exact hin
    obtain ⟨-, hc⟩ := finish_completes 0x18 .ok (miso % 2 ^ (8 * bits o.arg0.toNat 7 4)) hin'
    have hrings : (s.spiHostShadow d o).rings = s.rings := by rw [hs]
    have hcompl : (s.spiHostShadow d o).compl = s.compl := by rw [hs]
    rw [hrings, hq, hcompl] at hc
    exact hc

/-- A host transaction queued for its site (R129). -/
def State.spiQueued (s : State) (f : Die) (o : Desc) : State := { s with spi := s.spi ++ [⟨f, .host o, []⟩] }

/-- An OE_SPI in order, its site's domain serving, does its work on the state in which it is in flight. -/
theorem exec_oeSpi_accepted {d : Desc} {f : Die} (hd : d.die = some f) (hf : f.isFace = true)
    (ht : d.target.toNat % 4096 = Dom.auxm * 64) (h₁ : bits d.arg0.toNat 3 0 ≤ 8) (h₂ : bits d.arg0.toNat 7 4 ≤ 8)
    (h₃ : d.arg0.toNat / 256 = 0) (hc : d.clearFrom 32 = true) (ha : s.Accepts 0x18 d) (hs : s.Serves f Dom.auxm) :
    exec (.oeSpi d) s = .next (if (s.workStart 0x18 d f Dom.auxm).on .sitePresent f then
      (s.workStart 0x18 d f Dom.auxm).spiQueued f d else (s.workStart 0x18 d f Dom.auxm).finish 0x18 d .targetUnpowered) := by
  change execOeSpi d s = _
  unfold execOeSpi
  dsimp only
  rw [hd, Option.getD_some, take_accepted ha (by simp [hf, ht, hc, h₃, Nat.not_lt.mpr h₁, Nat.not_lt.mpr h₂]) rfl,
    onTarget_serves (hs.enlist 0x18 d)]
  rfl

/-- Taking a descriptor touches the operations in flight, their requests and registers. -/
theorem State.enlist_eq (s : State) (op : Nat) (d : Desc) : s.enlist op d =
    { s with regs := (s.enlist op d).regs, inflight := (s.enlist op d).inflight, requests := (s.enlist op d).requests } := by
  unfold enlist
  split
  · rfl
  · rw [(countOps_sameBut _ _).1]

/-- A target in Run, with no power request under way, is as the descriptor finds it. -/
theorem State.workStart_run {op : Nat} {d : Desc} {f : Die} {k : Nat} (hr : s.domSt f k = 0) (hp : s.pwr = none) :
    s.workStart op d f k = s.enlist op d := by
  refine wakeBy_run ((rd_enlist _ _ _ _ _ _ (by decide) (by decide)).trans hr) ?_
  rw [enlist_eq]
  exact hp

end

/-- Settles O12: an OE_SPI by the presence of its site, a start by `nextSpi`, an end by the kind of its transaction. -/
theorem spiTransactionsQueueStartAndComplete : Obligations.SpiTransactionsQueueStartAndComplete := by
  refine ⟨fun d f s hd hf ht h₁ h₂ h₃ hc ha hs hr hp => ?_, fun n s x hf hp hu hx => ?_, fun n miso s r h => ?_⟩
  · have he := exec_oeSpi_accepted hd hf ht h₁ h₂ h₃ hc ha hs
    have hw : s.workStart 0x18 d f Dom.auxm = s.enlist 0x18 d := workStart_run hr hp
    have hon : (s.enlist 0x18 d).on .sitePresent f = s.on .sitePresent f :=
      congrArg (· == 1) (rd_enlist _ _ _ _ _ _ (by decide) (by decide))
    have hspi : (s.enlist 0x18 d).spi = s.spi := by rw [enlist_eq]
    rw [hw, hon, State.spiQueued, hspi] at he
    rw [hw]
    exact ⟨fun h => he.trans (by rw [if_pos h]), fun h => he.trans (by rw [if_neg (by simp [h])])⟩
  · exact ⟨nextSpi_spec hx, _, exec_spiTransactionStart_free hf hp hu hx, rfl, rfl, rfl⟩
  · have he := exec_spiTransactionDone_running (miso := miso) h
    refine ⟨fun a up hk => ⟨_, he, ?_⟩, fun up hk => ⟨_, he, ?_⟩, fun o hk => ⟨_, he, spiEnded_host _ _ _ _ _ hk⟩⟩
    · simp only [State.spiEnded, hk]
      exact ⟨rd_wr_same .., .wr (.refl ..) _ _ _ _ (by simp)⟩
    · simp only [State.spiEnded, hk]
      exact ⟨rd_wr_same .., .wr (.refl ..) _ _ _ _ (by simp)⟩

/-! ### The power trim (R131, R132) -/

section

variable {s : State} {n : Fin 4}

/-- The interval's sum of TX_TAP starts anew. -/
def State.trimCleared (s : State) (d : Die) : State := s.wrs d 0 [(.trimSum, 0), (.trimCount, 0)]

theorem State.trimCleared_sameBut (s : State) (d : Die) : SameBut (regsAt d 0 [.trimSum, .trimCount]) s (s.trimCleared d) :=
  .wrs (.refl ..) _ _ _ (by simp [mem_regsAt])

/-- A trim outside the dead band moves one step toward the target, or shows that it is at the end of its range. -/
theorem exec_powerTrim_far {up : Bool} (hc : s.hasCarrier n = true) (hsf : s.sf % 256 = 0) (he : s.on .ptrimEn (faceOf n) = true)
    (hp : s.on .sitePresent (faceOf n) = true)
    (hup : decide (s.rd .trimSum (faceOf n) < s.rd .ptrimTarget (faceOf n) * s.rd .trimCount (faceOf n)) = up)
    (hfar : s.rd .ptrimDead (faceOf n) * 8 * s.rd .trimCount (faceOf n) <
      if up then s.rd .ptrimTarget (faceOf n) * s.rd .trimCount (faceOf n) - s.rd .trimSum (faceOf n)
      else s.rd .trimSum (faceOf n) - s.rd .ptrimTarget (faceOf n) * s.rd .trimCount (faceOf n)) :
    exec (.powerTrim n) s = .next (if s.rd .ptrimShadow (faceOf n) = (if up then 255 else 0)
      then (s.trimCleared (faceOf n)).setOnce .sitePtrimRail (faceOf n)
      else { s.trimCleared (faceOf n) with spi := s.spi ++ [⟨faceOf n, .trim up, []⟩] }) := by
  have hu := s.trimCleared_sameBut (faceOf n)
  have he' : (s.trimCleared (faceOf n)).on .ptrimEn (faceOf n) = true := (hu.on_field (by decide) ..).trans he
  have hp' : (s.trimCleared (faceOf n)).on .sitePresent (faceOf n) = true := (hu.on_field (by decide) ..).trans hp
  have hif (a b : Nat) : (if s.rd .trimSum (faceOf n) < s.rd .ptrimTarget (faceOf n) * s.rd .trimCount (faceOf n) then a else b) =
      if up then a else b := by rw [← hup]; simp only [decide_eq_true_eq]
  have hend : ((up && s.rd .ptrimShadow (faceOf n) == 255) || (!up && s.rd .ptrimShadow (faceOf n) == 0)) = true ↔
      s.rd .ptrimShadow (faceOf n) = (if up then 255 else 0) := by cases up <;> simp
  refine (if_neg (by simp [hc, hsf])).trans ((if_neg ?_).trans ?_)
  · rw [hif, decide_eq_true hfar, Bool.and_true]
    exact fun h => absurd (h.symm.trans (congrArg (! ·) (Bool.and_eq_true_iff.mpr ⟨he', hp'⟩))) (by decide)
  · rw [hup, ← apply_ite Host.Outcome.next]
    exact congrArg Host.Outcome.next (if_congr hend rfl rfl)

/-- POWER_TRIM: one step toward the target, or the rail shown. -/
theorem powerTrim_spec (n : Fin 4) (s : State) (hc : s.hasCarrier n = true) (hsf : s.sf % 256 = 0)
    (he : s.on .ptrimEn (faceOf n) = true) (hp : s.on .sitePresent (faceOf n) = true) :
    let sum := s.rd .trimSum (faceOf n)
    let want := s.rd .ptrimTarget (faceOf n) * s.rd .trimCount (faceOf n)
    let dead := s.rd .ptrimDead (faceOf n) * 8 * s.rd .trimCount (faceOf n)
    let moves (up : Bool) : Prop := ∃ t, exec (.powerTrim n) s = .next t ∧ t.rd .trimCount (faceOf n) = 0 ∧
      SameBut (regsAt (faceOf n) 0 [.trimSum, .trimCount]) { s with spi := s.spi ++ [⟨faceOf n, .trim up, []⟩] } t
    (sum + dead < want → s.rd .ptrimShadow (faceOf n) ≠ 255 → moves true) ∧
      (want + dead < sum → s.rd .ptrimShadow (faceOf n) ≠ 0 → moves false) ∧
      (sum + dead < want → s.rd .ptrimShadow (faceOf n) = 255 →
        ∃ t, exec (.powerTrim n) s = .next t ∧ t.on .sitePtrimRail (faceOf n) = true ∧ t.spi = s.spi) := by
  intro sum want dead moves
  have hmove {up : Bool} (hx : exec (.powerTrim n) s =
      .next { s.trimCleared (faceOf n) with spi := s.spi ++ [⟨faceOf n, .trim up, []⟩] }) : moves up :=
    ⟨_, hx, (rd_wrs s ..).trans rfl, trimCleared_sameBut { s with spi := s.spi ++ [⟨faceOf n, .trim up, []⟩] } _⟩
  have hup (h : sum + dead < want) := exec_powerTrim_far (up := true) hc hsf he hp (decide_eq_true (by omega))
    (by rw [if_pos rfl]; omega)
  have hdown (h : want + dead < sum) := exec_powerTrim_far (up := false) hc hsf he hp (decide_eq_false (by omega))
    (by rw [if_neg (by decide)]; omega)
  refine ⟨fun h hv => hmove ?_, fun h hv => hmove ?_, fun h hv => ⟨_, (hup h).trans (by rw [if_pos (by simpa using hv)]), ?_, ?_⟩⟩
  · exact (hup h).trans (by rw [if_neg (by simpa using hv)])
  · exact (hdown h).trans (by rw [if_neg (by simpa using hv)])
  · exact setOnce_on _ (by decide) ..
  · exact setOnce_spi ..

end

/-! ### OE_TXDIS and its causes (R124 to R127) -/

/-- The fields that the causes of OE_TXDIS are read from. -/
def causeFields : List Fld := [.sitePresent, .siteFault, .dacFaultAutodis, .inReset, .domState, .dacTxEnable, .dacOeTxdisForce]

/-- What follows from the causes. -/
def txdisFields : List Fld := [.siteTxdisState, .siteTxdisCause, .spiLow, .txdisDrive, .dacUp, .dacSent, .dacPart]

section

variable {s t : State} {d : Die}

theorem State.txdisCause_congr (h : ∀ f ∈ causeFields, ∀ i, t.rd f d i = s.rd f d i) : t.txdisCause d = s.txdisCause d := by
  unfold txdisCause domInReset dieInReset domSt on
  rw [h .sitePresent (by decide), h .siteFault (by decide), h .dacFaultAutodis (by decide), h .inReset (by decide) Dom.convTx,
    h .inReset (by decide) Dom.auxm, h .inReset (by decide) 63, h .domState (by decide) Dom.convTx,
    h .domState (by decide) Dom.auxm, h .dacTxEnable (by decide), h .dacOeTxdisForce (by decide)]

theorem State.txdisCause_absent (h : s.on .sitePresent d = false) : s.txdisCause d = 1 := if_pos (by simp [h])

theorem State.txdisCause_fault (hp : s.on .sitePresent d = true) (hf : s.on .siteFault d = true)
    (ha : s.on .dacFaultAutodis d = true) : s.txdisCause d = 2 := (if_neg (by simp [hp])).trans (if_pos (by simp [hf, ha]))

/-- The DACs and the balls of a site before OE_TXDIS follows. -/
def State.siteFollow (s : State) (d : Die) : State :=
  (s.dacFollow d).wrs d 0 [(.spiLow, b2n ((s.dacFollow d).domDead d Dom.auxm)),
    (.txdisDrive, b2n (!(s.dacFollow d).domDead d Dom.auxm && !(s.dacFollow d).domInReset d Dom.auxm))]

theorem State.siteFollow_sameBut (s : State) (d : Die) : SameBut (regsAt d 0 txdisFields) s (s.siteFollow d) := by
  refine .wrs ?_ _ _ _ (by simp [mem_regsAt, txdisFields])
  unfold dacFollow
  split
  · exact .refl ..
  · split
    · exact .wr (.refl ..) _ _ _ _ (by simp [mem_regsAt, txdisFields])
    · exact .wrs (.refl ..) _ _ _ (by simp [mem_regsAt, txdisFields])

theorem State.txdisCause_siteFollow (s : State) (d : Die) : (s.siteFollow d).txdisCause d = s.txdisCause d :=
  txdisCause_congr fun f hf _ =>
    (s.siteFollow_sameBut d).rd_field ((by decide : ∀ f ∈ causeFields, f ∉ txdisFields) f hf) ..

theorem State.txdisUpdate_eq (s : State) (d : Die) : s.txdisUpdate d =
    if s.txdisCause d ≠ 0 then (s.siteFollow d).wrs d 0 [(.siteTxdisState, 1), (.siteTxdisCause, s.txdisCause d)]
    else (s.siteFollow d).wr .siteTxdisCause d 0 (if (s.siteFollow d).on .siteTxdisState d then 6 else 0) := by
  rw [← txdisCause_siteFollow]
  rfl

theorem State.txdisUpdate_sameBut (s : State) (d : Die) : SameBut (regsAt d 0 txdisFields) s (s.txdisUpdate d) := by
  rw [txdisUpdate_eq]
  split
  · exact (s.siteFollow_sameBut d).wrs _ _ _ (by simp [mem_regsAt, txdisFields])
  · exact (s.siteFollow_sameBut d).wr _ _ _ _ (by simp [mem_regsAt, txdisFields])

theorem State.txdisUpdate_tally (s : State) (d : Die) : (s.txdisUpdate d).tally = s.tally := by rw [(s.txdisUpdate_sameBut d).1]

theorem State.txdisUpdate_events (s : State) (d : Die) : (s.txdisUpdate d).events = s.events := by
  rw [(s.txdisUpdate_sameBut d).1]

theorem State.txdisUpdate_spi (s : State) (d : Die) : (s.txdisUpdate d).spi = s.spi := by rw [(s.txdisUpdate_sameBut d).1]

theorem State.txdisUpdate_spiActive (s : State) (d : Die) : (s.txdisUpdate d).spiActive = s.spiActive := by
  rw [(s.txdisUpdate_sameBut d).1]

theorem State.rd_txdisUpdate (s : State) (d : Die) {f : Fld} (hf : f ∉ txdisFields) (i : Nat) :
    (s.txdisUpdate d).rd f d i = s.rd f d i := (s.txdisUpdate_sameBut d).rd_field hf ..

theorem State.on_txdisUpdate (s : State) (d : Die) {f : Fld} (hf : f ∉ txdisFields) (i : Nat) :
    (s.txdisUpdate d).on f d i = s.on f d i := (s.txdisUpdate_sameBut d).on_field hf ..

/-- A cause in force asserts OE_TXDIS and is shown. -/
theorem State.txdisUpdate_asserts {c : Nat} (h : s.txdisCause d = c) (h₀ : 0 < c) (h₈ : c < 8) :
    (s.txdisUpdate d).on .siteTxdisState d = true ∧ (s.txdisUpdate d).rd .siteTxdisCause d = c := by
  rw [txdisUpdate_eq, h, if_pos (by omega)]
  exact ⟨(on_wrs ..).trans rfl, (rd_wrs ..).trans (Nat.mod_eq_of_lt h₈)⟩

end

/-! ### Bias loops (R134 to R142) -/

/-- From `s` to `t` only the listed registers move, on any die, and events are raised. -/
abbrev Moves (l : List Fld) : State → State → Prop := Keeps (· ∉ l) id

/-- What driving the bias channels writes. -/
def biasOut : List Fld := [.biasCode, .biasRail]

/-- What the end of a chip before the fourth writes. -/
def chipFields : List Fld := [.biasPart, .biasVoid, .biasChip, .biasSum, .biasGood, .biasAsked, .biasChipAt]

section

variable {s₀ s t : State} {l : List Fld} {d : Die} {p : Nat}

theorem Keeps.moves {m : List Fld} (h : Moves l s t) (hm : ∀ f ∈ l, f ∈ m) : Moves m s t :=
  h.weaken (fun f hf hl => hf (hm f hl)) id

theorem Keeps.rest (h : Moves l s t) : t.tally = s.tally ∧ t.spi = s.spi :=
  ⟨id (congrArg State.tally h.part :), id (congrArg State.spi h.part :)⟩

theorem Keeps.wrInt {f : Fld} {i : Nat} {v : Int} (h : Moves l s₀ s) (hf : ¬ f ∉ l := by decide) : Moves l s₀ (s.wrInt f d i v) :=
  h.wr hf

theorem Keeps.biasCode {ch : Nat} {v : Int} (h : Moves biasOut s₀ s) : Moves biasOut s₀ (s.biasCode d ch v) :=
  .ite h.wr.setOnce h.wr

theorem Keeps.biasDrive {k : Nat} {v dither : Int} (h : Moves biasOut s₀ s) : Moves biasOut s₀ (s.biasDrive d p k v dither) :=
  .ite h.biasCode.biasCode h.biasCode.wr

theorem Keeps.biasDither {chip : Nat} (h : Moves biasOut s₀ s) : Moves biasOut s₀ (s.biasDither d p chip) := by
  unfold State.biasDither
  exact .biasDrive (.biasDrive (.biasDrive h))

theorem Keeps.biasHostCodes (h : Moves biasOut s₀ s) : Moves biasOut s₀ (s.biasHostCodes d p) := .foldl (fun _ _ hu => hu.wr) h

theorem State.biasEnter_off (s : State) (d : Die) (p : Nat) :
    s.biasEnter d p 0 = (s.wrs d p [(.loopState, 0), (.biasModePend, 0), (.biasWait, 0)]).biasHostCodes d p := by
  have h : b2n (decide (s.rd .loopState d p < 2) && decide (2 ≤ 0)) = 0 := by simp [b2n]
  unfold biasEnter
  dsimp only
  rw [h, if_pos rfl]

theorem Keeps.biasOff (h : Moves (.loopState :: .biasModePend :: .biasWait :: biasOut) s₀ s) :
    Moves (.loopState :: .biasModePend :: .biasWait :: biasOut) s₀ (s.biasOff d) := by
  refine .foldl (fun u p hu => ?_) h
  rw [State.biasEnter_off]
  exact hu.wrs.trans (Keeps.refl.biasHostCodes.moves (by decide))

/-- Both loops of a site held in OFF (R122). -/
theorem State.biasOff_loopState (s : State) (d : Die) {p : Nat} (hp : p ∈ [0, 1]) : (s.biasOff d).rd .loopState d p = 0 := by
  have hcodes (u : State) (b : Nat) (i : Nat) : (u.biasHostCodes d b).rd .loopState d i = u.rd .loopState d i :=
    (Keeps.refl (K := (· ∉ biasOut)) (g := id)).biasHostCodes.rd _ (by decide) _ _
  refine foldl_lane (P := fun _ => True) (Q := fun u => u.rd .loopState d p = 0) (step := fun s p => s.biasEnter d p 0) hp
    (by decide) (fun _ _ _ => id) (fun u b hb hu => ?_) (fun u _ => ?_) trivial
  · rw [biasEnter_off, hcodes]
    simpa [rd_wr, hb] using hu
  · rw [biasEnter_off, hcodes, rd_wrs]
    rfl

/-- A chip's mean added to the correlations, or its period void (R136, R138). -/
def State.chipMean (s : State) (d : Die) (p : Nat) : State :=
  if max 1 (s.rd .loopSamplesPerChip d p) ≤ 2 * s.rd .biasGood d p then (List.range 3).foldl (fun u j =>
    u.wrInt .biasPart d (p * 4 + j)
      (u.rdInt .biasPart d (p * 4 + j) + walsh j (s.rd .biasChip d p) * (s.rd .biasSum d p / s.rd .biasGood d p : Nat))) s
  else s.wr .biasVoid d p 1

/-- A chip before the fourth closes, and the next one begins. -/
def State.chipNext (s : State) (d : Die) (p : Nat) : State :=
  (s.chipMean d p).wrs d p [(.biasChip, (s.rd .biasChip d p + 1) % 4), (.biasSum, 0), (.biasGood, 0), (.biasAsked, 0)]

theorem State.biasChipEnd_early (h : s.rd .biasChip d p < 3) : s.biasChipEnd d p true = s.chipNext d p := by
  unfold biasChipEnd chipNext chipMean
  simp only [Bool.true_and, decide_eq_true_eq, if_neg (show ¬ s.rd .biasChip d p = 3 by omega)]

theorem Keeps.chipNext (h : Moves chipFields s₀ s) : Moves chipFields s₀ (s.chipNext d p) :=
  .wrs (.ite (.foldl (fun _ _ hu => hu.wrInt) h) h.wr)

theorem State.chipNext_spec (h : s.rd .biasChip d p < 3) :
    (s.chipNext d p).rd .biasChip d p = s.rd .biasChip d p + 1 ∧ (s.chipNext d p).rd .biasSum d p = 0 ∧
      (2 * s.rd .biasGood d p < max 1 (s.rd .loopSamplesPerChip d p) → (s.chipNext d p).on .biasVoid d p = true) := by
  refine ⟨(rd_wrs ..).trans ?_, (rd_wrs ..).trans rfl, fun hg => (on_wrs ..).trans ?_⟩
  · change (s.rd .biasChip d p + 1) % 4 % 2 ^ 2 = _
    omega
  · rw [chipMean, if_neg (Nat.not_le.mpr hg)]
    exact on_wr_one _ (by decide) ..

/-- A chip boundary of a loop that runs, with neither a wait nor a mode pending. -/
theorem exec_biasChipBoundary_next {n : Fin 4} {p : Fin 2} (hs : 2 ≤ s.rd .loopState (faceOf n) p)
    (hm : s.sf % max 1 (s.rd .loopChipSf (faceOf n) p) = 0) (ha : s.rd .biasChipAt (faceOf n) p ≠ s.sf + 1)
    (hr : s.loopsRun (faceOf n) = true) (hw : s.on .biasWait (faceOf n) p = false) (hp : s.on .biasModePend (faceOf n) p = false)
    (hk : s.rd .biasChip (faceOf n) p < 3) :
    exec (.biasChipBoundary n p) s =
      .next (((s.wr .biasChipAt (faceOf n) p (s.sf + 1)).chipNext (faceOf n) p).biasDither (faceOf n) p
        ((s.rd .biasChip (faceOf n) p + 1) % 4)) := by
  have hk' : (s.wr .biasChipAt (faceOf n) p (s.sf + 1)).rd .biasChip (faceOf n) p < 3 := by
    rwa [rd_wr_ne _ _ _ _ _ _ (by simp)]
  have hp' : ((s.wr .biasChipAt (faceOf n) p (s.sf + 1)).chipNext (faceOf n) p).on .biasModePend (faceOf n) p = false :=
    ((Keeps.refl (K := (· ∉ chipFields)) (g := id)).wr.chipNext.on (by decide) ..).trans hp
  change execBiasChipBoundary n p s = _
  unfold execBiasChipBoundary
  simp [Nat.not_lt.mpr hs, hm, ha, hr, hw, biasChipEnd_early hk', hp']

/-- BIAS_CHIP_BOUNDARY before the fourth chip of a period. -/
theorem biasChipBoundary_next (n : Fin 4) (p : Fin 2) (s : State) (hs : 2 ≤ s.rd .loopState (faceOf n) p)
    (hm : s.sf % max 1 (s.rd .loopChipSf (faceOf n) p) = 0) (ha : s.rd .biasChipAt (faceOf n) p ≠ s.sf + 1)
    (hr : s.loopsRun (faceOf n) = true) (hw : s.on .biasWait (faceOf n) p = false) (hp : s.on .biasModePend (faceOf n) p = false)
    (hk : s.rd .biasChip (faceOf n) p < 3) :
    ∃ t, exec (.biasChipBoundary n p) s = .next t ∧ t.rd .biasChip (faceOf n) p = s.rd .biasChip (faceOf n) p + 1 ∧
      t.rd .biasSum (faceOf n) p = 0 ∧
      (2 * s.rd .biasGood (faceOf n) p < max 1 (s.rd .loopSamplesPerChip (faceOf n) p) → t.on .biasVoid (faceOf n) p = true) ∧
      t.rd .loopState (faceOf n) p = s.rd .loopState (faceOf n) p ∧ t.spi = s.spi ∧ t.tally = s.tally := by
  let u := s.wr .biasChipAt (faceOf n) p (s.sf + 1)
  have hu {f : Fld} (hf : f ≠ .biasChipAt) : u.rd f (faceOf n) p = s.rd f (faceOf n) p :=
    rd_wr_ne _ _ _ _ _ _ fun e => hf e.1.symm
  have hc : Moves chipFields s (u.chipNext (faceOf n) p) := Keeps.refl.wr.chipNext
  have hd : Moves biasOut (u.chipNext (faceOf n) p)
      ((u.chipNext (faceOf n) p).biasDither (faceOf n) p ((s.rd .biasChip (faceOf n) p + 1) % 4)) := Keeps.refl.biasDither
  have hall : Moves (chipFields ++ biasOut) s _ := .trans (hc.moves (by decide)) (hd.moves (by decide))
  obtain ⟨htally, hspi⟩ := hall.rest
  obtain ⟨hchip, hsum, hvoid⟩ := chipNext_spec (s := u) (d := faceOf n) (p := p) ((hu (by decide)).trans_lt hk)
  rw [hu (by decide)] at hchip
  rw [hu (by decide), hu (by decide)] at hvoid
  exact ⟨_, exec_biasChipBoundary_next hs hm ha hr hw hp hk, (hd.rd _ (by decide) ..).trans hchip,
    (hd.rd _ (by decide) ..).trans hsum, fun h => (hd.on (by decide) ..).trans (hvoid h), hall.rd _ (by decide) .., hspi, htally⟩

end

/-! ### Presence, faults and the release of OE_TXDIS (R122 to R125) -/

section

variable {s₀ s : State} {d : Die} {n : Fin 4}

/-- A site whose presence changes, as it is shown. -/
def State.presenceShown (s : State) (d : Die) (present : Bool) : State :=
  (s.raiseField .sitePresent d).wrs d 0 [(.sitePresent, b2n present), (.sitePresentChanged, 1)]

/-- A site that becomes absent: its loops in OFF, its SPI transactions ended. -/
def State.siteDropped (s : State) (d : Die) : State := (s.biasOff d).spiFlush d

theorem exec_sitePresenceChange_changes {present : Bool} (hc : s.hasCarrier n = true)
    (h : s.on .sitePresent (faceOf n) ≠ present) :
    exec (.sitePresenceChange n present) s = .next ((if present then s.presenceShown (faceOf n) present
      else (s.presenceShown (faceOf n) present).siteDropped (faceOf n)).txdisUpdate (faceOf n)) := by
  rw [presenceShown, ← raiseField_wrs]
  exact if_neg (by simp [hc, h])

theorem State.presenceShown_on (s : State) (d : Die) (present : Bool) :
    (s.presenceShown d present).on .sitePresent d = present ∧ (s.presenceShown d present).on .sitePresentChanged d = true :=
  ⟨(on_wrs ..).trans (by cases present <;> rfl), (on_wrs ..).trans rfl⟩

/-- A new presence is shown with one event. -/
theorem State.presenceShown_parts (s : State) (d : Die) (present : Bool) : (s.presenceShown d present).tally = s.tally ∧
    (s.presenceShown d present).spi = s.spi ∧ (s.presenceShown d present).events = (s.raiseField .sitePresent d).events := by
  rw [presenceShown, raiseField, raise_eq]
  exact ⟨rfl, rfl, rfl⟩

/-- What a dropped site's queues leave: presence, the loops, the causes of OE_TXDIS, the tally and the SPI transactions. -/
abbrev Flushed : State → State → Prop :=
  Keeps (· ∈ .sitePresentChanged :: .loopState :: causeFields) fun u => (u.tally, u.spi, u.spiActive)

theorem State.spiFlush_flushed (s : State) (d : Die) :
    Flushed { s with spi := s.spi.filter (·.die != d), spiActive := s.spiActive.filter (·.die != d) } (s.spiFlush d) :=
  .foldl (fun _ _ hu => by split; exacts [hu.finish, hu, hu]) .refl

theorem State.rd_spiFlush (s : State) (d e : Die) (i : Nat) {f : Fld}
    (hf : f ∈ .sitePresentChanged :: .loopState :: causeFields) :
    (s.spiFlush d).rd f e i = s.rd f e i := (s.spiFlush_flushed d).rd f hf e i

theorem State.spiFlush_parts (s : State) (d : Die) : (s.spiFlush d).tally = s.tally ∧
    (s.spiFlush d).spi = s.spi.filter (·.die != d) ∧ (s.spiFlush d).spiActive = s.spiActive.filter (·.die != d) :=
  (Prod.ext_iff.mp (s.spiFlush_flushed d).part).imp id fun h => Prod.ext_iff.mp h

/-- No transaction of a flushed site waits or runs (R122, R129). -/
theorem State.mem_spiFlush (s : State) (d : Die) :
    (∀ r ∈ (s.spiFlush d).spi, r.die ≠ d) ∧ ∀ r ∈ (s.spiFlush d).spiActive, r.die ≠ d := by
  obtain ⟨-, hspi, hactive⟩ := s.spiFlush_parts d
  rw [hspi, hactive]
  exact ⟨fun r hr => by simpa using (List.mem_filter.mp hr).2, fun r hr => by simpa using (List.mem_filter.mp hr).2⟩

theorem State.siteDropped_on (s : State) (d : Die) {f : Fld} (hf : f = .sitePresent ∨ f = .sitePresentChanged) :
    (s.siteDropped d).on f d = s.on f d := by
  have h : Moves (.loopState :: .biasModePend :: .biasWait :: biasOut) s (s.biasOff d) := Keeps.refl.biasOff
  rcases hf with rfl | rfl
  · exact congrArg (· == 1) ((rd_spiFlush _ _ _ _ (by decide)).trans (h.rd _ (by decide) ..))
  · exact congrArg (· == 1) ((rd_spiFlush _ _ _ _ (by decide)).trans (h.rd _ (by decide) ..))

theorem State.siteDropped_loopState (s : State) (d : Die) {p : Nat} (hp : p ∈ [0, 1]) : (s.siteDropped d).rd .loopState d p = 0 :=
  (rd_spiFlush _ _ _ _ (by decide)).trans (biasOff_loopState s d hp)

theorem State.siteDropped_tally (s : State) (d : Die) : (s.siteDropped d).tally = s.tally := by
  have h : Moves (.loopState :: .biasModePend :: .biasWait :: biasOut) s (s.biasOff d) := Keeps.refl.biasOff
  exact ((s.biasOff d).spiFlush_parts d).1.trans h.rest.1

/-- SITE_PRESENCE_CHANGE of a site that becomes present. -/
theorem sitePresenceChange_present (hc : s.hasCarrier n = true) (h : s.on .sitePresent (faceOf n) ≠ true) :
    ∃ t, exec (.sitePresenceChange n true) s = .next t ∧ t.on .sitePresent (faceOf n) = true ∧
      t.on .sitePresentChanged (faceOf n) = true ∧ t.tally = s.tally ∧ t.events = (s.raiseField .sitePresent (faceOf n)).events ∧
      t.spi = s.spi := by
  have hx := exec_sitePresenceChange_changes hc h
  rw [if_pos rfl] at hx
  obtain ⟨hp, hch⟩ := s.presenceShown_on (faceOf n) true
  obtain ⟨htally, hspi, hev⟩ := s.presenceShown_parts (faceOf n) true
  exact ⟨_, hx, (on_txdisUpdate _ _ (by decide) _).trans hp, (on_txdisUpdate _ _ (by decide) _).trans hch,
    (txdisUpdate_tally ..).trans htally, (txdisUpdate_events ..).trans hev, (txdisUpdate_spi ..).trans hspi⟩

/-- SITE_PRESENCE_CHANGE of a site that becomes absent. -/
theorem sitePresenceChange_absent (hc : s.hasCarrier n = true) (h : s.on .sitePresent (faceOf n) ≠ false) :
    ∃ t, exec (.sitePresenceChange n false) s = .next t ∧ t.on .sitePresent (faceOf n) = false ∧
      t.on .sitePresentChanged (faceOf n) = true ∧ t.tally = s.tally ∧
      t.rd .loopState (faceOf n) 0 = 0 ∧ t.rd .loopState (faceOf n) 1 = 0 ∧ t.on .siteTxdisState (faceOf n) = true ∧
      t.rd .siteTxdisCause (faceOf n) = 1 ∧ (∀ r ∈ t.spi, r.die ≠ faceOf n) ∧ ∀ r ∈ t.spiActive, r.die ≠ faceOf n := by
  have hx := exec_sitePresenceChange_changes hc h
  rw [if_neg (by decide)] at hx
  obtain ⟨hp, hch⟩ := s.presenceShown_on (faceOf n) false
  obtain ⟨htally, -, -⟩ := s.presenceShown_parts (faceOf n) false
  obtain ⟨hspi, hactive⟩ := ((s.presenceShown (faceOf n) false).biasOff (faceOf n)).mem_spiFlush (faceOf n)
  generalize s.presenceShown (faceOf n) false = u at *
  have hp' : (u.siteDropped (faceOf n)).on .sitePresent (faceOf n) = false := (u.siteDropped_on _ (.inl rfl)).trans hp
  have hch' : (u.siteDropped (faceOf n)).on .sitePresentChanged (faceOf n) = true := (u.siteDropped_on _ (.inr rfl)).trans hch
  obtain ⟨hst, hcause⟩ := txdisUpdate_asserts (txdisCause_absent hp') (by decide) (by decide)
  refine ⟨_, hx, (on_txdisUpdate _ _ (by decide) _).trans hp', (on_txdisUpdate _ _ (by decide) _).trans hch',
    (txdisUpdate_tally ..).trans ((u.siteDropped_tally _).trans htally),
    (rd_txdisUpdate _ _ (by decide) _).trans (u.siteDropped_loopState _ (by decide)),
    (rd_txdisUpdate _ _ (by decide) _).trans (u.siteDropped_loopState _ (by decide)), hst, hcause, ?_, ?_⟩
  · rw [txdisUpdate_spi]
    exact hspi
  · rw [txdisUpdate_spiActive]
    exact hactive

/-- OE_FAULT where no fault is shown. -/
theorem oeFault_spec (hc : s.hasCarrier n = true) (h : s.on .siteFault (faceOf n) = false) :
    ∃ t, exec (.oeFault n) s = .next t ∧ t.on .siteFault (faceOf n) = true ∧ t.on .siteFaultSticky (faceOf n) = true ∧
      (s.on .dacFaultAutodis (faceOf n) = true → s.on .sitePresent (faceOf n) = true →
        t.on .siteTxdisState (faceOf n) = true ∧ t.rd .siteTxdisCause (faceOf n) = 2) ∧
      SameBut (regsAt (faceOf n) 0 [.siteFault, .siteFaultSticky, .siteTxdisState, .siteTxdisCause, .spiLow, .txdisDrive, .dacUp,
        .dacSent, .dacPart]) (s.raiseField .siteFault (faceOf n)) t := by
  let u := (s.raiseField .siteFault (faceOf n)).wrs (faceOf n) 0 [(.siteFault, 1), (.siteFaultSticky, 1)]
  have hx : exec (.oeFault n) s = .next (u.txdisUpdate (faceOf n)) := by
    have hu : u = (s.wrs (faceOf n) 0 [(.siteFault, 1), (.siteFaultSticky, 1)]).raiseField .siteFault (faceOf n) :=
      (raiseField_wrs ..).symm
    rw [hu]
    exact if_neg (by simp [hc, h])
  have hf : u.on .siteFault (faceOf n) = true := (on_wrs ..).trans rfl
  have hu : SameBut (regsAt (faceOf n) 0 [.siteFault, .siteFaultSticky]) (s.raiseField .siteFault (faceOf n)) u :=
    .wrs (.refl ..) _ _ _ (by simp [mem_regsAt])
  have hon {f : Fld} (hm : f ∉ [Fld.siteFault, .siteFaultSticky]) : u.on f (faceOf n) = s.on f (faceOf n) :=
    (hu.on_field hm ..).trans (congrArg (· == 1) (rd_raiseField ..))
  refine ⟨_, hx, (on_txdisUpdate _ _ (by decide) _).trans hf, (on_txdisUpdate _ _ (by decide) _).trans ((on_wrs ..).trans rfl),
    fun ha hp => ?_, ?_⟩
  · have hcause := txdisCause_fault ((hon (by decide)).trans hp) hf ((hon (by decide)).trans ha)
    exact txdisUpdate_asserts hcause (by decide) (by decide)
  · exact .trans (hu.mono (regsAt_mono (by decide))) ((u.txdisUpdate_sameBut _).mono (regsAt_mono (by decide)))

/-- OE_FAULT_END of a fault that is shown. -/
theorem oeFaultEnd_spec (h : s.on .siteFault (faceOf n) = true) :
    ∃ t, exec (.oeFaultEnd n) s = .next t ∧ t.on .siteFault (faceOf n) = false ∧
      SameBut (regsAt (faceOf n) 0 [.siteFault, .siteTxdisState, .siteTxdisCause, .spiLow, .txdisDrive, .dacUp, .dacSent, .dacPart])
        s t := by
  refine ⟨_, if_neg (by simp [h]), (on_txdisUpdate _ _ (by decide) _).trans ?_, ?_⟩
  · exact congrArg (· == 1) ((rd_wr_same ..).trans (Nat.zero_mod _))
  · exact .trans (.wr (.refl ..) _ _ _ _ (by simp [mem_regsAt])) ((txdisUpdate_sameBut ..).mono (regsAt_mono (by decide)))

end

/-- Settles O13: the trim by its distance from the target, a site by what OE_TXDIS follows, a chip boundary by the chip that closes. -/
theorem siteTrimPresenceFaultReleaseAndBiasChips : Obligations.SiteTrimPresenceFaultReleaseAndBiasChips := by
  refine ⟨fun n s hc => ⟨powerTrim_spec n s hc, fun present h => ?_, oeFault_spec hc, oeFaultEnd_spec, fun h₀ h₆₄ => ?_⟩,
    fun n p s => ⟨fun h => if_pos (by simp [h]), biasChipBoundary_next n p s⟩⟩
  · cases present with
    | true =>
      obtain ⟨t, hx, hp, hch, ht, he, hspi⟩ := sitePresenceChange_present hc h
      exact ⟨t, hx, hp, hch, ht, fun _ => ⟨he, hspi⟩, nofun⟩
    | false =>
      obtain ⟨t, hx, hp, hch, ht, hoff⟩ := sitePresenceChange_absent hc h
      exact ⟨t, hx, hp, hch, ht, nofun, fun _ => hoff⟩
  · exact ⟨_, if_pos ⟨h₀, h₆₄⟩, (on_wrs ..).trans rfl, (rd_wrs ..).trans rfl, .wrs (.refl ..) _ _ _ (by simp [mem_regsAt])⟩

end Sys2Proof.Machine

/-! ## Receive signal processing -/

namespace Sys2Proof.Machine

open State

/-! ### What the receiver's shared operations move -/

section

variable {s t u : State} {d : Die} {n : Nat}

theorem Counted.tally {l : List Reg} (h : Counted l s t) : t.tally = s.tally := id (congrArg State.tally h.1 :)

theorem Counted.events {l : List Reg} (h : Counted l s t) : t.events = s.events := id (congrArg State.events h.1 :)

theorem Counted.refl (l : List Reg) (s : State) : Counted l s s := (SameBut.refl l s).counted

theorem Counted.zeros {l : List Reg} (h : Counted l s t) (d : Die) (i : Nat) (fs : List Fld)
    (hm : ∀ f ∈ fs, (f, d, i) ∈ l) : Counted l s (t.zeros d i fs) := h.sameBut (.zeros (.refl ..) d i fs hm)

/-- A transition is counted, and stamped. -/
theorem State.acqTo_eq (s : State) (n st : Nat) : ∃ u, Counted [] s u ∧
    s.acqTo n st = (u.wrs (faceOf n) 0 [(.acqState, st), (.acqStamp, s.tally)]).zeros (faceOf n) 0 acqRuns := by
  unfold acqTo
  extract_lets d s₁ s₂
  have h₁ : Counted [] s s₁ := .ite (.count (.refl ..) ..) (.refl ..)
  have h₂ : Counted [] s s₂ := .ite h₁ (h₁.count ..)
  exact ⟨s₂, h₂, by rw [h₂.tally]⟩

/-- What a transition writes. -/
def acqFields : List Fld := acqRuns ++ [.acqState, .acqStamp]

theorem State.acqTo_counted (s : State) (n st : Nat) : Counted (regsAt (faceOf n) 0 acqFields) s (s.acqTo n st) := by
  obtain ⟨u, hu, h⟩ := s.acqTo_eq n st
  rw [h]
  refine .zeros (.wrs (hu.mono (by simp)) _ _ _ (by simp [mem_regsAt, acqFields])) _ _ _ fun f hf => ?_
  exact mem_regsAt.mpr ⟨List.mem_append_left _ hf, rfl, rfl⟩

theorem State.acqTo_acq (s : State) (n : Nat) {st : Nat} (h : st < 8) : (s.acqTo n st).acq n = st := by
  obtain ⟨u, -, he⟩ := s.acqTo_eq n st
  rw [acq, he, rd_zeros, if_neg (by simp [acqRuns]), rd_wrs]
  exact Nat.mod_eq_of_lt (h.trans (by decide))

theorem State.acqTo_stamp (s : State) (n st : Nat) (h : s.tally < 2 ^ 68) : (s.acqTo n st).rd .acqStamp (faceOf n) = s.tally := by
  obtain ⟨u, -, he⟩ := s.acqTo_eq n st
  rw [he, rd_zeros, if_neg (by simp [acqRuns]), rd_wrs]
  exact Nat.mod_eq_of_lt h

/-- A transition after which other registers of the die were written, and the present state is still the one entered. -/
theorem State.acqTo_moves (ht : s.tally < 2 ^ 68) {st : Nat} (hst : st < 8) {l : List Fld} (hl : ∀ f ∈ [.acqState, .acqStamp], f ∉ l)
    (h : Counted (regsAt (faceOf n) 0 l) (s.acqTo n st) t) : t.acq n = st ∧ t.rd .acqStamp (faceOf n) = s.tally ∧
      Counted (regsAt (faceOf n) 0 (acqFields ++ l)) s t := by
  refine ⟨(h.rd_field (hl _ (by simp)) ..).trans (s.acqTo_acq n hst), (h.rd_field (hl _ (by simp)) ..).trans (s.acqTo_stamp n st ht),
    .trans ((s.acqTo_counted n st).mono (regsAt_mono fun f => List.mem_append_left l))
      (h.mono (regsAt_mono fun f => List.mem_append_right _))⟩

end

/-- The state without the receiver's records: what its operations leave, beside registers and events. -/
def State.offReceiver (s : State) : State := { s with assay := [], nlc := [], pilots := [], rxLine := [], poolPast := [] }

/-- From `s` to `t` the receiver moves the listed registers, on any die, and its records. -/
abbrev Received (l : List Fld) : State → State → Prop := Keeps (· ∉ l) State.offReceiver

/-- What bringing the nonlinear steps up to date writes. -/
def nlcFields : List Fld := [.nlcXiCurrent, .nlcStepsActive, .nlcActive, .cdcShare]

/-- What the start of a receive chain writes. -/
def chainFields : List Fld :=
  [.decChainRestarts, .decChainRunning, .decPhaseKnown, .decPhase, .joinLeft, .chainJoin, .chainWait, .chainPos, .frmShapeLocked,
    .frmShapePhase, .sweepCand, .sweepRun, .frmState, .huntPos, .huntSince]

/-- What the end of TRACK writes on both dies. -/
def trackEndFields : List Fld :=
  nlcFields ++ [.candOn, .candK, .candStart, .decChainRunning, .decPhaseKnown, .frmShapeLocked, .frmState]

section

variable {s t : State} {n : Nat} {l : List Fld}

theorem Keeps.received {m : List Fld} (h : Received l s t) (hm : ∀ f ∈ l, f ∈ m) : Received m s t :=
  h.weaken (fun f hf hl => hf (hm f hl)) id

theorem Keeps.tallied {K : Fld → Prop} (h : Keeps K offReceiver s t) : t.tally = s.tally := id (congrArg State.tally h.part :)

theorem Counted.received {r : List Reg} (h : Counted r s t) (hr : ∀ f, f ∉ l → ∀ d i, (f, d, i) ∉ r) : Received l s t :=
  ⟨fun f hf d i => h.rd (hr f hf d i), id (congrArg (fun u => offReceiver (bare u)) h.1 :), fun e => id (congrArg State.keys h.1 :).trans e⟩

theorem State.nlcUpdate_sameBut (s : State) (n : Nat) :
    SameBut (regsAt (faceOf n) 0 nlcFields) { s with nlc := (s.nlcUpdate n).nlc } (s.nlcUpdate n) := by
  unfold nlcUpdate
  extract_lets d a s₁ s₂
  have h₁ : SameBut (regsAt d 0 nlcFields) s s₁ := by
    dsimp only [s₁]
    split
    · exact .refl ..
    · exact .wr (.refl ..) _ _ _ _ (by simp [mem_regsAt, nlcFields])
  have h₂ : SameBut (regsAt d 0 nlcFields) s s₂ := h₁.wrs _ _ _ (by simp [mem_regsAt, nlcFields])
  obtain ⟨hr, hf⟩ := h₂
  exact ⟨by rw [hr], hf⟩

theorem State.nlcUpdate_events (s : State) (n : Nat) : (s.nlcUpdate n).events = s.events :=
  id (congrArg State.events (s.nlcUpdate_sameBut n).1 :)

/-- A change of the receiver's records. -/
theorem Keeps.recorded {K : Fld → Prop} {s₀ : State} {assay nlc pilots rxLine poolPast} (h : Keeps K offReceiver s₀ s) :
    Keeps K offReceiver s₀ { s with assay := assay, nlc := nlc, pilots := pilots, rxLine := rxLine, poolPast := poolPast } := h.frame

theorem State.wrs_events (s : State) (d : Die) (i : Nat) (l : List (Fld × Nat)) : (s.wrs d i l).events = s.events := by
  induction l generalizing s with
  | nil => rfl
  | cons p l ih => exact ih (s.wr p.1 d i p.2)

theorem State.recorded_events (s : State) (assay nlc pilots rxLine poolPast) :
    State.events { s with assay := assay, nlc := nlc, pilots := pilots, rxLine := rxLine, poolPast := poolPast } = s.events := rfl

theorem State.nlcUpdate_received (s : State) (n : Nat) : Received nlcFields s (s.nlcUpdate n) := by
  have hn := s.nlcUpdate_sameBut n
  refine ⟨fun f hf d i => hn.rd fun hm => hf (mem_regsAt.mp hm).1, id (congrArg (fun u => offReceiver (bare u)) hn.1 :), fun e => ?_⟩
  rw [hn.1]
  exact e

theorem State.chainStart_received (s : State) (n : Nat) (join : Bool) : Received chainFields s (s.chainStart n join) := by
  unfold chainStart
  extract_lets d c far known s₁ joined s₂
  have h₁ : Received chainFields s s₁ := Keeps.refl.inc.wrs
  have hj : Received chainFields s joined := h₁.wrs
  have h₂ : Received chainFields s s₂ := .ite hj.recorded h₁
  exact .ite h₂.wrs h₂

/-- A chain that starts runs. -/
theorem State.chainStart_runs (s : State) (n : Nat) (join : Bool) :
    (s.chainStart n join).on .decChainRunning (millOf n) (n % 2) = true := by
  unfold chainStart
  extract_lets d c far known s₁ joined s₂
  have hj : Keeps (· = .decChainRunning) offReceiver s₁ joined := Keeps.refl.wrs
  have h₂ : Keeps (· = .decChainRunning) offReceiver s₁ s₂ := .ite hj.recorded .refl
  have h₃ : Keeps (· = .decChainRunning) offReceiver s₁
    (if s₂.rd .frmState d c = 0 ∧ known then s₂.wrs d c [(.frmState, 1), (.huntPos, 0), (.huntSince, s₂.sf)] else s₂) := .ite h₂.wrs h₂
  exact (h₃.on rfl _ _).trans ((on_wrs ..).trans rfl)

theorem State.chainStart_events (s : State) (n : Nat) (join : Bool) : (s.chainStart n join).events = s.events := by
  unfold chainStart
  extract_lets d c far known s₁ joined s₂
  have h₁ : s₁.events = s.events := (wrs_events ..).trans (wr_events ..)
  have h₂ : s₂.events = s.events := by
    dsimp only [s₂]
    split
    · exact (recorded_events ..).trans ((wrs_events ..).trans h₁)
    · exact h₁
  clear_value s₁ s₂
  split
  · exact (wrs_events ..).trans h₂
  · exact h₂

theorem State.frameOff_received (s : State) (n : Nat) : Received [.frmShapeLocked, .frmState] s (s.frameOff n) :=
  .ite Keeps.refl.wr Keeps.refl.wr.wr

theorem State.dropCands_received (s : State) (n : Nat) : Received [.candOn, .candK, .candStart] s (s.dropCands n) := by
  unfold dropCands
  extract_lets d u
  have hu : Received [.candOn, .candK, .candStart] s u := .foldl (fun _ _ hv => hv.wrs) .refl
  clear_value u
  exact hu.recorded

theorem State.chainStop_received (s : State) (n : Nat) : Received [.decChainRunning, .decPhaseKnown] s (s.chainStop n) := by
  unfold chainStop
  extract_lets u
  have hu : Received [.decChainRunning, .decPhaseKnown] s u := Keeps.refl.wrs
  exact hu.recorded

theorem State.trackEnd_received (s : State) (n : Nat) : Received trackEndFields s (s.trackEnd n) := by
  have h₁ : Received trackEndFields s (s.nlcUpdate n) := (s.nlcUpdate_received n).received (by decide)
  have h₂ := h₁.trans ((dropCands_received _ n).received (by decide))
  have h₃ := h₂.trans ((chainStop_received _ n).received (by decide))
  exact h₃.trans ((frameOff_received _ n).received (by decide))

theorem State.chainStop_events (s : State) (n : Nat) : (s.chainStop n).events = s.events := by
  unfold chainStop
  exact (recorded_events ..).trans (wrs_events ..)

theorem State.chainStop_stops (s : State) (n : Nat) : (s.chainStop n).on .decChainRunning (millOf n) (n % 2) = false :=
  (s.on_wrs (millOf n) (n % 2) .decChainRunning [(.decChainRunning, 0), (.decPhaseKnown, 0)]).trans rfl

/-- With TRACK the chain ends. -/
theorem State.trackEnd_stops (s : State) (n : Nat) : (s.trackEnd n).on .decChainRunning (millOf n) (n % 2) = false := by
  unfold trackEnd
  rw [(frameOff_received _ n).on (by decide), chainStop_stops]

theorem State.foldl_events {β : Type} {f : State → β → State} {l : List β} (h : ∀ u a, (f u a).events = u.events) (s : State) :
    (l.foldl f s).events = s.events := by
  induction l generalizing s with
  | nil => rfl
  | cons a l ih => exact (ih (f s a)).trans (h s a)

theorem State.trackEnd_events (s : State) (n : Nat) : (s.trackEnd n).events = s.events := by
  have hd (u : State) : (u.dropCands n).events = u.events := by
    unfold dropCands
    extract_lets d v
    have hv : v.events = u.events := foldl_events (fun _ _ => wrs_events ..) u
    clear_value v
    exact (recorded_events ..).trans hv
  have hf (u : State) : (u.frameOff n).events = u.events := by
    unfold frameOff
    extract_lets d v
    split
    · exact wr_events ..
    · exact (wr_events ..).trans (wr_events ..)
  unfold trackEnd
  rw [hf, chainStop_events, hd, nlcUpdate_events]

end

/-! ### The acquisition states in turn (R154, R155, R168, R171, R174, R190, R192) -/

section

variable {n : Fin 4} {s : State}

/-- CD_SCAN ends with a value. -/
def State.cdFound (s : State) (n v : Nat) : State :=
  (s.acqTo n 3).wrs (faceOf n) 0 [(.cdcCdEst, v), (.cdcValue, v), (.cdcShare, v), (.acqRateChange, 0), (.cdUpdSf, s.sf),
    (.cdcFftActive, if s.rd .cdcFft (faceOf n) ≠ 0 then s.rd .cdcFft (faceOf n) else fftFor ((toInt 16 v).natAbs + 400) s.rq)]

theorem exec_cdScanDone_searched {v : BitVec 16} (ha : s.acq n = 2) (hm : s.rd .cdcCdMode (faceOf n) ≠ 2)
    (ht : searchSf (coarseTrials (s.cdRange n).1 (s.cdRange n).2) * sfLen ≤ s.acqFor n)
    (hf : searchFinds (s.cdRange n) v.toInt = true) : exec (.cdScanDone n v) s = .next (s.cdFound n v.toNat) := by
  have hgo : ¬(s.acq n ≠ 2 ∨ ¬ s.rd .cdcCdMode (faceOf n) = 2 ∧
      (s.acqFor n < searchSf (coarseTrials (s.cdRange n).1 (s.cdRange n).2) * sfLen ∨ searchFinds (s.cdRange n) v.toInt = false)) := by
    simp [ha, hf, Nat.not_lt.mpr ht]
  change execCdScanDone n v s = _
  unfold execCdScanDone cdFound
  simp only [if_neg hgo, if_neg hm]

theorem exec_cdScanDone_fixed {v : BitVec 16} (ha : s.acq n = 2) (hm : s.rd .cdcCdMode (faceOf n) = 2) :
    exec (.cdScanDone n v) s = .next (s.cdFound n (s.rd .cdcCdSet (faceOf n))) := by
  change execCdScanDone n v s = _
  unfold execCdScanDone cdFound
  simp only [ha, hm, ne_eq, not_true_eq_false, false_and, or_self, if_false, if_true]

/-- The value that CD_SCAN found is held and applied, and the move is stamped. -/
theorem State.cdFound_moves (ht : s.tally < 2 ^ 68) {v : Nat} (hv : v < 2 ^ 16) :
    (s.cdFound n v).acq n = 3 ∧ (s.cdFound n v).rd .acqStamp (faceOf n) = s.tally ∧
      (s.cdFound n v).rd .cdcCdEst (faceOf n) = v ∧ (s.cdFound n v).rd .cdcValue (faceOf n) = v ∧
      Counted (regsAt (faceOf n) 0 (acqFields ++ [Fld.cdcCdEst, .cdcValue, .cdcShare, .acqRateChange, .cdUpdSf, .cdcFftActive]))
        s (s.cdFound n v) := by
  obtain ⟨hacq, hstamp, hall⟩ := acqTo_moves (t := s.cdFound n v) ht (by decide)
    (l := [.cdcCdEst, .cdcValue, .cdcShare, .acqRateChange, .cdUpdSf, .cdcFftActive]) (by decide)
    (.wrs (.refl ..) _ _ _ (by simp [mem_regsAt]))
  exact ⟨hacq, hstamp, (rd_wrs ..).trans (Nat.mod_eq_of_lt hv), (rd_wrs ..).trans (Nat.mod_eq_of_lt hv), hall⟩

/-- PHASE_LOCK_DONE that enters TRACK. -/
theorem phaseLockDone_tracks (ht : s.tally < 2 ^ 68) (ha : s.acq n = 6) (hc : 64 ≤ s.rd .cleanRun (faceOf n)) :
    ∃ t, exec (.phaseLockDone n) s = .next t ∧ t.acq n = 7 ∧ t.rd .acqStamp (faceOf n) = s.tally ∧
      t.events = (s.raise Reason.rxLock (blkId (faceOf n) Dom.crdm)).events ∧
      t.on .decChainRunning (millOf n) (n.val % 2) = true ∧ t.tally = s.tally := by
  let u := (s.acqTo n 7).wr .acqWarm (faceOf n) 0 0
  have hu : Counted (regsAt (faceOf n) 0 [.acqWarm]) (s.acqTo n 7) u := .wr (.refl ..) _ _ _ _ (by simp [mem_regsAt])
  obtain ⟨hacq, hstamp, hall⟩ := acqTo_moves ht (by decide) (by decide) hu
  let v := u.raise Reason.rxLock (blkId (faceOf n) Dom.crdm)
  let t := (v.nlcUpdate n).chainStart n true
  have hv : Received (nlcFields ++ chainFields) u v := Keeps.refl.raise
  have hn : Received (nlcFields ++ chainFields) u (v.nlcUpdate n) := hv.trans ((v.nlcUpdate_received n).received (by decide))
  have h : Received (nlcFields ++ chainFields) u t := hn.trans ((chainStart_received ..).received (by decide))
  have hx : exec (.phaseLockDone n) s = .next t := if_pos ⟨ha, hc⟩
  have he : t.events = v.events := (chainStart_events ..).trans (v.nlcUpdate_events n)
  refine ⟨t, hx, (h.rd .acqState (by decide) _ _).trans hacq, (h.rd .acqStamp (by decide) _ _).trans hstamp, he.trans ?_,
    chainStart_runs .., h.tallied.trans hall.tally⟩
  dsimp only [v]
  rw [raise, raise, raiseAs_def, raiseAs_def, hall.events, hall.tally]

end

/-- Settles O14: every move is a transition of the acquisition state with its own writes; entering TRACK starts the chain. -/
theorem acquisitionAdvancesStampedToTrack : Obligations.AcquisitionAdvancesStampedToTrack := by
  intro n s ht d moves own
  have hmove {i : Instr} {st : Nat} {l : List Fld} {t : State} (hst : st < 8) (hl : ∀ f ∈ [Fld.acqState, .acqStamp], f ∉ l)
      (hx : exec i s = .next t) (h : Counted (regsAt d 0 l) (s.acqTo n st) t) : moves i st (Counted (own l) s) := by
    obtain ⟨hacq, hstamp, hall⟩ := acqTo_moves ht hst hl h
    exact ⟨t, hx, hacq, hstamp, hall⟩
  refine ⟨fun ha hl hw hr => ?_, fun v ha => ⟨fun hm hr hf => ?_, fun hm hs => ?_, fun hm hf => ?_⟩,
    fun v ha hf => ?_, fun ppm ha => ⟨fun hp hr => ?_, fun hp => ?_⟩, fun sub ro ha => ⟨fun hs hr => ?_, fun hs => ?_⟩,
    phaseLockDone_tracks ht, fun ha ppm => ?_, fun ha sub ro => ?_, fun ha => ?_⟩
  · have hlos : ¬ s.on .acqLos (faceOf n) = true := by simp [show s.on .acqLos (faceOf n) = false from hl]
    exact hmove (l := [.cdcFftActive]) (by decide) (by decide) ((if_pos ⟨ha, hlos⟩).trans ((if_neg (by simp [hw])).trans (if_pos hr)))
      (.wr (.refl ..) _ _ _ _ (by simp [mem_regsAt, d]))
  · obtain ⟨hacq, hstamp, hest, hval, hall⟩ := cdFound_moves (n := n) ht v.isLt
    exact ⟨_, exec_cdScanDone_searched ha hm hr hf, hacq, hstamp, hest, hval, hall⟩
  · obtain ⟨hacq, hstamp, hest, -, hall⟩ := cdFound_moves (n := n) ht hs
    exact ⟨_, exec_cdScanDone_fixed ha hm, hacq, hstamp, hest, hall⟩
  · exact if_pos (.inr ⟨hm, .inr hf⟩)
  · obtain ⟨hacq, hstamp, hall⟩ := acqTo_moves (n := n) ht (st := 4) (by decide) (l := [.crFreqOffset]) (by decide)
      (.wr (.refl ..) .crFreqOffset (faceOf n) 0 v.toNat (by simp [mem_regsAt]))
    exact ⟨_, if_pos ⟨ha, hf⟩, hacq, hstamp, (rd_wr_same ..).trans (Nat.mod_eq_of_lt v.isLt), hall⟩
  · exact hmove (st := 5) (l := []) (by decide) (by simp) (if_pos ⟨ha, hp, hr⟩) (.refl ..)
  · exact if_neg fun ⟨_, h, _⟩ => absurd h (Nat.not_le.mpr hp)
  · exact hmove (st := 6) (l := []) (by decide) (by simp) (if_pos ⟨ha, hr, hs⟩) (.refl ..)
  · exact if_neg fun ⟨_, _, h⟩ => hs h
  · exact if_neg fun h => ha h.1
  · exact if_neg fun h => ha h.1
  · exact if_neg fun h => ha h.1

end Sys2Proof.Machine

/-! ### Acquisition failures and losses (R167, R175, R190, R191, R193, R195) -/

namespace Sys2Proof.Machine

open State

section

variable {s t : State} {n : Nat}

theorem Counted.raise {l : List Reg} (h : Counted l s t) (r b a0 a1 : Nat) (far : Option Nat) :
    Counted l (s.raise r b a0 a1 far) (t.raise r b a0 a1 far) := by
  have he : eventsWith t.events t.tally r b none 0 a0 a1 far = eventsWith s.events s.tally r b none 0 a0 a1 far := by
    rw [h.events, h.tally]
  unfold State.raise
  rw [raiseAs_def, raiseAs_def, he]
  obtain ⟨ht, hf⟩ := h
  exact ⟨id (congrArg (fun u : State => { u with events := eventsWith s.events s.tally r b none 0 a0 a1 far }) ht :), hf⟩

theorem Counted.raise_events {l : List Reg} (h : Counted l s t) (r b a0 a1 : Nat) (far : Option Nat) :
    (t.raise r b a0 a1 far).events = (s.raise r b a0 a1 far).events := (h.raise r b a0 a1 far).events

/-! A failure. -/

/-- What a failure writes beside the transition. -/
def failFields : List Fld := [.acqFailures, .acqLastFailState, .acqWarm, .warmUntil]

/-- A failure as it is counted and recorded. -/
def State.failCounted (s : State) (n : Nat) : State :=
  ((((s.acqTo n 1).inc .acqFailures (faceOf n)).count (faceOf n) (0x65 + s.acq n)).wr .acqLastFailState (faceOf n) 0 (s.acq n)).noWarm n

theorem State.acqFailed_eq (s : State) (n : Nat) :
    s.acqFailed n = (s.failCounted n).raise Reason.acqFail (blkId (faceOf n) Dom.crdm) (s.acq n) := rfl

theorem State.failCounted_counted (s : State) (n : Nat) : Counted (regsAt (faceOf n) 0 failFields) (s.acqTo n 1) (s.failCounted n) :=
  .wrs (.wr (.count (.inc (.refl ..) _ _ _ _ (by simp [mem_regsAt, failFields])) ..) _ _ _ _ (by simp [mem_regsAt, failFields])) _ _ _
    (by simp [mem_regsAt, failFields])

theorem State.acqFailed_counted (s : State) (n : Nat) : Counted (regsAt (faceOf n) 0 (acqFields ++ failFields))
    (s.raise Reason.acqFail (blkId (faceOf n) Dom.crdm) (s.acq n)) (s.acqFailed n) :=
  .raise (.trans ((s.acqTo_counted n 1).mono (regsAt_mono (by decide))) ((s.failCounted_counted n).mono (regsAt_mono (by decide)))) ..

/-- A failure leads back to SIGNAL_DETECT, counts, and records the state that failed. -/
theorem State.acqFailed_records (s : State) (n : Nat) (h : s.acq n < 2 ^ 4) :
    (s.acqFailed n).acq n = 1 ∧ (s.acqFailed n).rd .acqFailures (faceOf n) = min (s.rd .acqFailures (faceOf n) + 1) 0xFFFF ∧
      (s.acqFailed n).rd .acqLastFailState (faceOf n) = s.acq n := by
  have hrd (f : Fld) : (s.acqFailed n).rd f (faceOf n) = (s.failCounted n).rd f (faceOf n) := by rw [acqFailed_eq, rd_raise]
  have hc : Counted (regsAt (faceOf n) 0 [.acqLastFailState, .acqWarm, .warmUntil]) ((s.acqTo n 1).inc .acqFailures (faceOf n))
    (s.failCounted n) := .wrs (.wr (.count (.refl ..) ..) _ _ _ _ (by simp [mem_regsAt])) _ _ _ (by simp [mem_regsAt])
  have hw (u : State) : SameBut (regsAt (faceOf n) 0 [.acqWarm, .warmUntil]) u (u.noWarm n) := .wrs (.refl ..) _ _ _ (by simp [mem_regsAt])
  refine ⟨?_, ?_, ?_⟩
  · exact (hrd _).trans (((s.failCounted_counted n).rd_field (by decide) ..).trans (s.acqTo_acq n (by decide)))
  · rw [hrd, hc.rd_field (by decide), rd_inc, if_pos ⟨rfl, rfl, rfl⟩, (s.acqTo_counted n 1).rd_field (by decide),
      show Fld.acqFailures.row.width = 16 by decide]
    rfl
  · rw [hrd, failCounted, (hw _).rd_field (by decide), rd_wr_same]
    exact Nat.mod_eq_of_lt h

/-! TRACK is left. -/

/-- A lost lock before its event: the carrier is back in SIGNAL_DETECT, and its warm window is open. -/
def State.lockLost (s : State) (n : Nat) : State :=
  (s.acqTo n 1).wrs (faceOf n) 0 [(.acqLockLost, 1),
    (.warmUntil, if s.rd .acqWarmWindow (faceOf n) = 0 then 0 else s.sf + s.rd .acqWarmWindow (faceOf n) * 64)]

/-- What a lost lock writes beside the transition. -/
def lossFields : List Fld := [.acqLockLost, .warmUntil]

theorem State.lockLost_counted (s : State) (n : Nat) : Counted (regsAt (faceOf n) 0 (acqFields ++ lossFields)) s (s.lockLost n) :=
  .wrs ((s.acqTo_counted n 1).mono (regsAt_mono (by decide))) _ _ _ (by simp [mem_regsAt, lossFields])

theorem State.leaveTrack_eq (s : State) (n : Nat) :
    s.leaveTrack n = ((s.lockLost n).raise Reason.rxLockLost (blkId (faceOf n) Dom.crdm)).trackEnd n := rfl

theorem State.leaveTrack_received (s : State) (n : Nat) : Received trackEndFields (s.lockLost n) (s.leaveTrack n) := by
  rw [leaveTrack_eq]
  exact .trans Keeps.refl.raise (trackEnd_received ..)

/-- TRACK is left for SIGNAL_DETECT: lock_lost is set, and the chain ends. -/
theorem State.leaveTrack_loses (s : State) (n : Nat) :
    (s.leaveTrack n).acq n = 1 ∧ (s.leaveTrack n).on .acqLockLost (faceOf n) = true ∧
      (s.leaveTrack n).on .decChainRunning (millOf n) (n % 2) = false ∧
      (s.leaveTrack n).events = (s.raise Reason.rxLockLost (blkId (faceOf n) Dom.crdm)).events := by
  have h := s.leaveTrack_received n
  have hw : SameBut (regsAt (faceOf n) 0 lossFields) (s.acqTo n 1) (s.lockLost n) := .wrs (.refl ..) _ _ _ (by simp [mem_regsAt, lossFields])
  refine ⟨(h.rd .acqState (by decide) _ _).trans ((hw.rd_field (by decide) ..).trans (s.acqTo_acq n (by decide))),
    (h.on (f := .acqLockLost) (by decide) _ _).trans ((on_wrs ..).trans rfl), ?_, ?_⟩
  · rw [leaveTrack_eq, trackEnd_stops]
  · rw [leaveTrack_eq, trackEnd_events, (s.lockLost_counted n).raise_events]

/-- The warm window of a lost lock (R195). -/
theorem State.leaveTrack_window (s : State) (n : Nat) (h : s.sf + 64 * 255 < 2 ^ 48) (hw : s.rd .acqWarmWindow (faceOf n) ≤ 255) :
    (s.leaveTrack n).rd .warmUntil (faceOf n) =
      if s.rd .acqWarmWindow (faceOf n) = 0 then 0 else s.sf + s.rd .acqWarmWindow (faceOf n) * 64 := by
  refine ((s.leaveTrack_received n).rd .warmUntil (by decide) _ _).trans ((rd_wrs ..).trans (Nat.mod_eq_of_lt ?_))
  rw [show Fld.warmUntil.row.width = 48 by decide]
  split
  · decide
  · omega

/-- The states with a limit fit the register that records a failed one. -/
theorem acqLimit_lt {a k : Nat} (h : acqLimit a = some k) : a < 2 ^ 4 := by
  unfold acqLimit at h
  split at h
  case h_6 => cases h
  all_goals decide

/-! Loss of signal (R191). -/

/-- A change of los with its event. -/
def State.losShown (s : State) (n v : Nat) : State :=
  ((s.wr .acqLos (faceOf n) 0 v).count (faceOf n) 0x6C).raiseField .acqLos (faceOf n)

theorem State.losShown_counted (s : State) (n v : Nat) :
    Counted [(.acqLos, faceOf n, 0)] (s.raiseField .acqLos (faceOf n)) (s.losShown n v) :=
  .raise (.count (.wr (.refl ..) _ _ _ _ (by simp)) ..) ..

theorem State.rd_losShown (s : State) (n v : Nat) {f : Fld} (hf : f ≠ .acqLos) (d : Die) (i : Nat) :
    (s.losShown n v).rd f d i = s.rd f d i := ((s.losShown_counted n v).rd (by simp [hf])).trans (rd_raiseField ..)

theorem State.on_losShown (s : State) (n : Nat) (v : Bool) : (s.losShown n (b2n v)).on .acqLos (faceOf n) = v := by
  have h : (s.losShown n (b2n v)).rd .acqLos (faceOf n) = b2n v % 2 ^ Fld.acqLos.row.width :=
    (rd_raiseField ..).trans (rd_wr_same ..)
  rw [on, h]
  cases v with
  | true => decide
  | false => decide

end

section

variable {n : Fin 4} {s : State}

theorem exec_losSet_low (hl : s.on .acqLos (faceOf n) = false) (hr : 16 ≤ s.rd .losLow (faceOf n)) :
    exec (.losSet n) s = if s.acq n = 7 then .next ((s.losShown n 1).leaveTrack n)
      else if 2 ≤ s.acq n then .next ((s.losShown n 1).acqFailed n) else .next (s.losShown n 1) := by
  have ha : (s.losShown n 1).acq n = s.acq n := rd_losShown _ _ _ (by decide) _ _
  rw [← ha]
  exact if_neg (by simp [hl, Nat.not_lt.mpr hr])

theorem exec_losClear_high (hl : s.on .acqLos (faceOf n) = true) (hr : 16 ≤ s.rd .losHigh (faceOf n)) :
    exec (.losClear n) s = if s.acq n = 1 ∧ s.warmOpen n = true then .next ((s.losShown n 0).warmStart n) else .next (s.losShown n 0) := by
  have ha : (s.losShown n 0).acq n = s.acq n := rd_losShown _ _ _ (by decide) _ _
  have ht : (s.losShown n 0).tally = s.tally := (losShown_counted ..).tally.trans (by rw [raiseField, raise_eq])
  have hw : (s.losShown n 0).warmOpen n = s.warmOpen n := by
    rw [warmOpen, warmOpen, sf, sf, ht, rd_losShown _ _ _ (by decide)]
  rw [← ha, ← hw]
  exact if_neg (by simp [hl, Nat.not_lt.mpr hr])

/-- A warm restart enters TRAIN_LOCK (R195). -/
theorem State.warmStart_enters (s : State) (n : Nat) : (s.warmStart n).acq n = 5 ∧ (s.warmStart n).on .acqWarm (faceOf n) = true ∧
    (s.warmStart n).rd .acqLos (faceOf n) = s.rd .acqLos (faceOf n) := by
  have h : Counted (regsAt (faceOf n) 0 [.acqWarm, .warmUntil]) (s.acqTo n 5) (s.warmStart n) :=
    .wrs (.count (.refl ..) ..) _ _ _ (by simp [mem_regsAt])
  exact ⟨(h.rd_field (by decide) ..).trans (s.acqTo_acq n (by decide)), (on_wrs ..).trans rfl,
    (h.rd_field (by decide) ..).trans ((s.acqTo_counted n 5).rd_field (by decide) ..)⟩

/-! ### A restart that the host asks for (R193) -/

/-- What discarding all that was acquired writes. -/
def discardFields : List Fld :=
  [.crEst, .crStep, .noiseEst, .noiseSum, .noiseCnt, .noiseLf, .cdcCdEst, .cdcValue, .cdcShare, .cdcFftActive, .crFreqOffset,
    .acqRateChange, .trainAt, .cdUpdSf]

/-- The estimates of every stream at 0. -/
def State.streamsDiscarded (s : State) (n : Nat) : State :=
  (List.range streamCount).foldl (fun s i => s.zeros (faceOf n) i [.crEst, .crStep, .noiseEst, .noiseSum, .noiseCnt, .noiseLf]) s

theorem State.discard_eq (s : State) (n : Nat) : s.discard n = (s.streamsDiscarded n).zeros (faceOf n) 0
    [.cdcCdEst, .cdcValue, .cdcShare, .cdcFftActive, .crFreqOffset, .acqRateChange, .trainAt, .cdUpdSf] := rfl

theorem State.discard_received (s : State) (n : Nat) : Received discardFields s (s.discard n) := by
  have h : Received discardFields s (s.streamsDiscarded n) := .foldl (fun _ _ hu => hu.zeros) .refl
  rw [discard_eq]
  exact h.zeros

theorem State.discard_events (s : State) (n : Nat) : (s.discard n).events = s.events := by
  have h : (s.streamsDiscarded n).events = s.events := foldl_events (fun _ _ => wrs_events ..) s
  rw [discard_eq]
  exact (wrs_events ..).trans h

/-- Dispersion and frequency are discarded. -/
theorem State.rd_discard (s : State) (n : Nat) {f : Fld} (hf : f ∈ [Fld.cdcCdEst, .cdcValue, .crFreqOffset]) :
    (s.discard n).rd f (faceOf n) = 0 := by
  have hm : f ∈ [Fld.cdcCdEst, .cdcValue, .cdcShare, .cdcFftActive, .crFreqOffset, .acqRateChange, .trainAt, .cdUpdSf] := by
    revert f
    decide
  rw [discard_eq, rd_zeros, if_pos ⟨hm, rfl, rfl⟩]

/-- A restart that the host asked for, when its SF boundary comes. -/
def State.restarted (s : State) (n : Nat) : State := (((s.wr .acqRestartPend (faceOf n) 0 0).acqCold n).discard n).nlcUpdate n

theorem State.rxTick_restarts (h : s.on .acqRestartPend (faceOf n) = true) (rx : RxReport) :
    ∃ u, Counted (regsAt (faceOf n) 0 (.eqFrozen :: losFields ++ runFields)) s u ∧ s.rxTick n rx = u.restarted n := by
  unfold rxTick
  extract_lets d s₁ s₂
  have h₁ : Counted (regsAt d 0 (.eqFrozen :: losFields ++ runFields)) s s₁ :=
    .ite (.refl ..) (.trans ((losTick_sameBut ..).counted.mono (regsAt_mono (by decide))) ((eqTick_counted ..).mono (regsAt_mono (by decide))))
  have h₂ : Counted (regsAt d 0 (.eqFrozen :: losFields ++ runFields)) s s₂ := h₁.wr _ _ _ _ (by simp [mem_regsAt])
  exact ⟨s₂, h₂, if_pos ((h₂.on_field (by decide) ..).trans h)⟩

/-- A carrier that starts cold, before TRACK's end is followed. -/
def State.coldStart (s : State) (n : Nat) : State := ((s.wr .acqRestartPend (faceOf n) 0 0).acqTo n 1).noWarm n

theorem State.restarted_eq (h : s.acq n ≠ 0) : s.restarted n = (((s.coldStart n).trackEnd n).discard n).nlcUpdate n := by
  have ha : (s.wr .acqRestartPend (faceOf n) 0 0).acq n ≠ 0 := by rwa [acq, rd_wr_ne _ _ _ _ _ _ (by simp)]
  rw [restarted, acqCold, if_neg ha]
  rfl

theorem State.coldStart_counted (s : State) (n : Nat) :
    Counted (regsAt (faceOf n) 0 (acqFields ++ [Fld.acqRestartPend, .acqWarm, .warmUntil])) s (s.coldStart n) :=
  .wrs (.trans (.wr (.refl ..) _ _ _ _ (by simp [mem_regsAt])) ((acqTo_counted ..).mono (regsAt_mono (by decide)))) _ _ _
    (by simp [mem_regsAt])

theorem State.coldStart_reads (s : State) (n : Nat) : (s.coldStart n).acq n = 1 ∧
    (s.coldStart n).on .acqRestartPend (faceOf n) = false ∧ (s.coldStart n).on .acqWarm (faceOf n) = false := by
  let u := s.wr .acqRestartPend (faceOf n) 0 0
  have hw : SameBut (regsAt (faceOf n) 0 [.acqWarm, .warmUntil]) (u.acqTo n 1) (s.coldStart n) := .wrs (.refl ..) _ _ _ (by simp [mem_regsAt])
  have hp : (u.acqTo n 1).on .acqRestartPend (faceOf n) = u.on .acqRestartPend (faceOf n) := (u.acqTo_counted n 1).on_field (by decide) ..
  have hu : u.on .acqRestartPend (faceOf n) = false := congrArg (· == 1) ((rd_wr_same ..).trans (Nat.zero_mod _))
  exact ⟨(hw.rd_field (by decide) ..).trans (u.acqTo_acq n (by decide)), (hw.on_field (by decide) ..).trans (hp.trans hu),
    (on_wrs ..).trans rfl⟩

/-- What a restart leaves: SIGNAL_DETECT, cold, with nothing acquired, no failure and no event. -/
theorem State.restarted_spec (h : s.acq n ≠ 0) (ht : t = s.restarted n) : t.acq n = 1 ∧
    t.on .acqRestartPend (faceOf n) = false ∧ t.on .acqWarm (faceOf n) = false ∧ t.rd .cdcCdEst (faceOf n) = 0 ∧
    t.rd .cdcValue (faceOf n) = 0 ∧ t.rd .crFreqOffset (faceOf n) = 0 ∧
    t.rd .acqFailures (faceOf n) = s.rd .acqFailures (faceOf n) ∧ t.events = s.events := by
  subst ht
  rw [restarted_eq h]
  obtain ⟨hacq, hpend, hwarm⟩ := s.coldStart_reads n
  let c := s.coldStart n
  let u := (c.trackEnd n).discard n
  have hu : Received (trackEndFields ++ discardFields) c u :=
    ((c.trackEnd_received n).received (by decide)).trans ((discard_received ..).received (by decide))
  have hn : Received nlcFields u (u.nlcUpdate n) := u.nlcUpdate_received n
  have ht : Received (trackEndFields ++ discardFields) c (u.nlcUpdate n) := hu.trans (hn.received (by decide))
  have hz {f : Fld} (hf : f ∈ [Fld.cdcCdEst, .cdcValue, .crFreqOffset]) (hm : f ∉ nlcFields) : (u.nlcUpdate n).rd f (faceOf n) = 0 :=
    (hn.rd f hm _ _).trans (rd_discard _ n hf)
  refine ⟨(ht.rd .acqState (by decide) _ _).trans hacq, (ht.on (by decide) _ _).trans hpend, (ht.on (by decide) _ _).trans hwarm,
    hz (by decide) (by decide), hz (by decide) (by decide), hz (by decide) (by decide),
    (ht.rd .acqFailures (by decide) _ _).trans ((s.coldStart_counted n).rd_field (by decide) ..), ?_⟩
  exact (u.nlcUpdate_events n).trans ((discard_events ..).trans ((c.trackEnd_events n).trans (s.coldStart_counted n).events))

/-- OVR_SF_LATCH with a restart asked for. -/
theorem ovrSfLatch_restarts (peaks : List (Fin 129)) (clips : List (BitVec 16)) (rx : RxReport) (h : s.hasCarrier n = true)
    (hp : s.on .acqRestartPend (faceOf n) = true) (ha : s.acq n ≠ 0) :
    ∃ t, exec (.ovrSfLatch n peaks clips rx) s = .next t ∧ t.acq n = 1 ∧ t.on .acqRestartPend (faceOf n) = false ∧
      t.on .acqWarm (faceOf n) = false ∧ t.rd .cdcCdEst (faceOf n) = 0 ∧ t.rd .cdcValue (faceOf n) = 0 ∧
      t.rd .crFreqOffset (faceOf n) = 0 ∧ t.rd .acqFailures (faceOf n) = s.rd .acqFailures (faceOf n) ∧ t.events = s.events := by
  let u := ((s.lanesLatch (faceOf n) peaks clips).dacTick (faceOf n)).stepTick (faceOf n)
  have hu : Counted (regsAt (faceOf n) 0 [.dacPart, .dacSent]) (s.lanesLatch (faceOf n) peaks clips) u :=
    (dacTick_counted ..).trans ((stepTick_counted ..).mono (by simp))
  have hsame {f : Fld} (hf : f ∉ [Fld.dacPart, .dacSent]) (hl : f ∉ .dacClipSf :: latchFields) :
      u.rd f (faceOf n) = s.rd f (faceOf n) := (hu.rd_field hf ..).trans (rd_lanesLatch _ _ _ _ hl _ _)
  have hev : u.events = s.events := hu.events.trans (id (congrArg State.events (s.lanesLatch_onDie (faceOf n) peaks clips).parts :))
  have hpu : u.on .acqRestartPend (faceOf n) = true := (congrArg (· == 1) (hsame (by decide) (by decide))).trans hp
  obtain ⟨v, hv, hx⟩ := rxTick_restarts hpu rx
  have hacq : v.acq n = s.acq n := (hv.rd_field (by decide) ..).trans (hsame (by decide) (by decide))
  have hfail : v.rd .acqFailures (faceOf n) = s.rd .acqFailures (faceOf n) :=
    (hv.rd_field (by decide) ..).trans (hsame (by decide) (by decide))
  have hspec := restarted_spec (s := v) (n := n) (hacq.trans_ne ha) rfl
  rw [hfail, hv.events, hev] at hspec
  exact ⟨_, (if_neg (by simp [h])).trans (congrArg Host.Outcome.next hx), hspec⟩

/-! ### Loss of lock -/

/-- The condition of a cause of lost lock (R167, R195). -/
def State.lockLoss (s : State) (n : Nat) : LockLoss → Bool
  | .los => s.on .acqLos (faceOf n)
  | .training => decide (8 ≤ s.rd .trainMiss (faceOf n))
  | .freq => decide (2400 < (s.rdInt .crFreqOffset (faceOf n)).natAbs)
  | .divergence => decide (16 ≤ s.rd .errHighRun (faceOf n))

theorem exec_rxLockLost (cause : LockLoss) :
    exec (.rxLockLost n cause) s = if s.acq n = 7 ∧ s.lockLoss n cause = true then .next (s.leaveTrack n) else .next s := by
  cases cause <;> rfl

end

/-- Settles O15: a failure, a loss of signal or of lock, and a restart each by the transition that it makes. -/
theorem acquisitionFailuresAndLossesReturnToDetect : Obligations.AcquisitionFailuresAndLossesReturnToDetect := by
  intro n s d failed
  refine ⟨fun k hk hr => ?_, fun hl hr => ⟨fun ha => ?_, fun h₂ h₆ => ?_, fun ha => ?_⟩, fun hl hr => ⟨fun ha => ?_, fun ha hw => ?_⟩,
    fun w fs h => ?_, fun peaks clips rx hc hp ha => ovrSfLatch_restarts peaks clips rx hc hp ha, fun cause => ?_⟩
  · refine ⟨s.acqFailed n, ?_, s.acqFailed_records n (acqLimit_lt hk), s.acqFailed_counted n⟩
    change execAcqFail n s = _
    unfold execAcqFail
    rw [hk]
    exact if_pos (Nat.le_sub_of_add_le' hr)
  · refine ⟨_, (exec_losSet_low hl hr).trans ((if_neg (by omega)).trans (if_neg (by omega))), s.on_losShown n true, s.losShown_counted n 1⟩
  · have hu : (s.losShown n 1).acq n = s.acq n := rd_losShown _ _ _ (by decide) _ _
    have hrec := (s.losShown n 1).acqFailed_records n (by omega)
    rw [hu, rd_losShown _ _ _ (by decide)] at hrec
    refine ⟨_, (exec_losSet_low hl hr).trans ((if_neg (by omega)).trans (if_pos h₂)), ?_, hrec⟩
    refine ((acqFailed_counted ..).on_field (by decide) ..).trans ?_
    exact (congrArg (· == 1) (rd_raise ..)).trans (s.on_losShown n true)
  · obtain ⟨hacq, hlost, -, -⟩ := (s.losShown n 1).leaveTrack_loses n
    have hrd {f : Fld} (hf : f ∉ trackEndFields) (hm : f ∉ acqFields ++ lossFields) :
        ((s.losShown n 1).leaveTrack n).rd f (faceOf n) = (s.losShown n 1).rd f (faceOf n) :=
      ((leaveTrack_received ..).rd f hf _ _).trans ((lockLost_counted ..).rd_field hm ..)
    exact ⟨_, (exec_losSet_low hl hr).trans (if_pos ha),
      (congrArg (· == 1) (hrd (by decide) (by decide))).trans (s.on_losShown n true), hacq, hlost,
      (hrd (by decide) (by decide)).trans (rd_losShown _ _ _ (by decide) _ _)⟩
  · refine ⟨_, (exec_losClear_high hl hr).trans (if_neg fun ⟨h₁, h₂⟩ => ?_), s.on_losShown n false, s.losShown_counted n 0⟩
    rcases ha with ha | ha
    · exact ha h₁
    · exact absurd (ha.symm.trans h₂) (by decide)
  · obtain ⟨hacq, hwarm, hlos⟩ := (s.losShown n 0).warmStart_enters n
    exact ⟨_, (exec_losClear_high hl hr).trans (if_pos ⟨ha, hw⟩), (congrArg (· == 1) hlos).trans (s.on_losShown n false), hacq, hwarm⟩
  · exact ⟨_, congrArg Host.Outcome.next (writeReg_word h), on_wr_one _ (by decide) _ _, .wr (.refl ..) _ _ _ _ (by simp [d])⟩
  · intro holds
    have hc : s.lockLoss n cause = true ↔ holds := by cases cause <;> simp [lockLoss, holds, d]
    obtain ⟨hacq, hlost, hstops, hev⟩ := s.leaveTrack_loses n
    exact ⟨fun ha h => ⟨_, (exec_rxLockLost cause).trans (if_pos ⟨ha, hc.mpr h⟩), hacq, hlost, s.leaveTrack_window n, hev, hstops⟩,
      fun h => (exec_rxLockLost cause).trans (if_neg fun k => h (hc.mp k.2))⟩

end Sys2Proof.Machine

/-! ### Dispersion updates, slip candidates and pilots (R157, R167, R170, R177 to R180, R187) -/

namespace Sys2Proof.Machine

open State

section

variable {s t : State} {n : Nat} {l : List Reg}

theorem SameBut.withNlc (h : SameBut l s t) (x) : SameBut l { s with nlc := x } { t with nlc := x } :=
  ⟨id (congrArg (fun u : State => { u with nlc := x }) h.1 :), h.2⟩

theorem Counted.withSlipRecs (h : Counted l s t) (x) : Counted l { s with slipRecs := x } { t with slipRecs := x } :=
  ⟨id (congrArg (fun u : State => { u with slipRecs := x }) h.1 :), h.2⟩

theorem ofInt_mod (w : Nat) (v : Int) : ofInt w v % 2 ^ w = ofInt w v := by
  have hp : (0 : Int) < 2 ^ w := by positivity
  have h : v % 2 ^ w < 2 ^ w := Int.emod_lt_of_pos _ hp
  refine Nat.mod_eq_of_lt ?_
  rw [ofInt, Int.toNat_lt (Int.emod_nonneg _ hp.ne')]
  exact_mod_cast h

theorem State.rd_wrInt_same (s : State) (f : Fld) (d : Die) (i : Nat) (v : Int) : (s.wrInt f d i v).rd f d i = ofInt f.row.width v :=
  (rd_wr_same ..).trans (ofInt_mod ..)

/-! CD_EST_UPDATE. -/

/-- The dispersion as the equaliser's residual shows it, noted with its SF. -/
def State.cdRefined (s : State) (n : Nat) (r : BitVec 16) : State :=
  (s.wr .cdUpdSf (faceOf n) 0 s.sf).wrInt .cdcCdEst (faceOf n) 0 (s.rdInt .cdcValue (faceOf n) + r.toInt)

theorem exec_cdEstUpdate_due {n : Fin 4} {r : BitVec 16} (ha : 3 ≤ s.acq n) (hs : s.rd .cdUpdSf (faceOf n) + 256 ≤ s.sf) :
    exec (.cdEstUpdate n r) s =
      if s.on .eqFrozen (faceOf n) = true then .next (s.wr .cdUpdSf (faceOf n) 0 s.sf) else .next ((s.cdRefined n r).nlcUpdate n) := by
  have hf : (s.wr .cdUpdSf (faceOf n) 0 s.sf).on .eqFrozen (faceOf n) = s.on .eqFrozen (faceOf n) :=
    congrArg (· == 1) (rd_wr_ne _ _ _ _ _ _ (by simp))
  have hv : (s.wr .cdUpdSf (faceOf n) 0 s.sf).rdInt .cdcValue (faceOf n) = s.rdInt .cdcValue (faceOf n) :=
    congrArg (toInt _) (rd_wr_ne _ _ _ _ _ _ (by simp))
  refine (if_pos ⟨ha, hs⟩).trans ?_
  rw [hf, hv]
  rfl

theorem State.cdRefined_spec (s : State) (n : Nat) (r : BitVec 16) :
    ((s.cdRefined n r).nlcUpdate n).rd .cdcCdEst (faceOf n) = ofInt 16 (toInt 16 (s.rd .cdcValue (faceOf n)) + r.toInt) ∧
      SameBut (regsAt (faceOf n) 0 [.cdcCdEst, .cdUpdSf, .nlcXiCurrent, .nlcStepsActive, .nlcActive, .cdcShare])
        { s with nlc := ((s.cdRefined n r).nlcUpdate n).nlc } ((s.cdRefined n r).nlcUpdate n) := by
  have hn := (s.cdRefined n r).nlcUpdate_sameBut n
  have hr : SameBut (regsAt (faceOf n) 0 [.cdcCdEst, .cdUpdSf]) s (s.cdRefined n r) :=
    .wr (.wr (.refl ..) _ _ _ _ (by simp [mem_regsAt])) _ _ _ _ (by simp [mem_regsAt])
  have hw : Fld.cdcCdEst.row.width = 16 ∧ Fld.cdcValue.row.width = 16 := by decide
  obtain ⟨hest, hval⟩ := hw
  refine ⟨(hn.rd_field (by decide) ..).trans ((rd_wrInt_same ..).trans ?_), ?_⟩
  · rw [hest, rdInt, hval]
  · exact ((hr.withNlc _).mono (regsAt_mono (by decide))).trans (hn.mono (regsAt_mono (by decide)))

/-! SLIP_CANDIDATE. -/

theorem exec_slipCandidate_jumps {n : Fin 4} {pol : Fin 2} {sub : Fin 16} {jump : BitVec 16} {start : BitVec 20} (ha : s.acq n = 7)
    (hw : s.rd .crDdWin (faceOf n) ≠ 0) (hs : sub.val < s.subcarriers n) (hj : 8192 < jump.toInt.natAbs) :
    exec (.slipCandidate n pol sub jump start) s =
      if s.on .candOn (faceOf n) (streamIx pol sub) = true then
        .next (s.wr .candK (faceOf n) (streamIx pol sub) (s.rd .candK (faceOf n) (streamIx pol sub) + turnsOf jump))
      else .next (s.wrs (faceOf n) (streamIx pol sub) [(.candOn, 1), (.candK, turnsOf jump), (.candStart, start.toNat)]) :=
  if_neg (by rintro (h | h | h | h)
             · exact h ha
             · exact hw h
             · exact absurd hs (Nat.not_lt.mpr h)
             · exact absurd hj (Nat.not_lt.mpr h))

/-! PILOT_CHECK. -/

/-- What a pilot's phase error and distance write: the phase and noise estimates of its stream. -/
def estFields : List Fld := [.crStep, .crEst, .noiseEst, .noiseSum, .noiseCnt, .noiseLf]

theorem State.pilotError_sameBut (s : State) (n i : Nat) (err : BitVec 16) : SameBut (regsAt (faceOf n) i [.crStep, .crEst])
    { s with pilots := (s.pilotError n i err).pilots } (s.pilotError n i err) := by
  unfold pilotError
  extract_lets d key l w u est
  split
  · exact .refl ..
  · exact .wr (.wr (.refl ..) _ _ _ _ (by simp [mem_regsAt, d])) _ _ _ _ (by simp [mem_regsAt, d])

/-- A pilot of a stream taken into the estimates. -/
def State.pilotTaken (s : State) (n i : Nat) (err : BitVec 16) (dist : BitVec 32) (sf : BitVec 48) (pilot : BitVec 20) : State :=
  (s.pilotError n i err).noiseAdd (faceOf n) i (sf.toNat * 64 + pilot.toNat / lfLen) dist.toNat

variable {i : Nat} {err : BitVec 16} {dist : BitVec 32} {sf : BitVec 48} {pilot : BitVec 20}

theorem State.pilotTaken_sameBut (s : State) (n i : Nat) (err : BitVec 16) (dist : BitVec 32) (sf : BitVec 48) (pilot : BitVec 20) :
    SameBut (regsAt (faceOf n) i estFields) { s with pilots := (s.pilotTaken n i err dist sf pilot).pilots }
      (s.pilotTaken n i err dist sf pilot) := by
  have hn := (s.pilotError n i err).noiseAdd_sameBut (faceOf n) i (sf.toNat * 64 + pilot.toNat / lfLen) dist.toNat
  have hp : (s.pilotTaken n i err dist sf pilot).pilots = (s.pilotError n i err).pilots := id (congrArg State.pilots hn.1 :)
  rw [hp]
  exact ((s.pilotError_sameBut n i err).mono (regsAt_mono (by decide))).trans (hn.mono (regsAt_mono (by decide)))

/-- The stream's slip candidate taken away. -/
def State.candTaken (s : State) (n i : Nat) : State := s.wrs (faceOf n) i [(.candOn, 0), (.candK, 0), (.candStart, 0)]

/-- A confirmed slip, with its rotation, its first and last symbols and its SF, counted and recorded. -/
def State.slipNoted (s : State) (n : Nat) (pol : Fin 2) (sub : Fin 16) (k start sf pilot : Nat) : State :=
  let u := ((s.inc (if pol = 0 then .slipSlipsX else .slipSlipsY) (faceOf n)).count (faceOf n) (0x6F + pol)).count (faceOf n) (0x76 + sub)
  { u with slipRecs := u.slipRecs ++
      [⟨n, pol, sub, k, if start ≤ pilot then sf else sf - 1, start, if start ≤ pilot then pilot else sfLen⟩] }

/-- Reads that a pilot's estimates leave. -/
theorem State.rd_pilotTaken (s : State) (n i : Nat) (err : BitVec 16) (dist : BitVec 32) (sf : BitVec 48) (pilot : BitVec 20) {f : Fld}
    (hf : f ∉ estFields) (j : Nat) : (s.pilotTaken n i err dist sf pilot).rd f (faceOf n) j = s.rd f (faceOf n) j :=
  (s.pilotTaken_sameBut n i err dist sf pilot).rd_field hf _ _

/-- A candidate's registers, as they are when it is taken away. -/
def candFields : List Fld := [.candOn, .candK, .candStart]

theorem State.candTaken_sameBut (s : State) (n i : Nat) : SameBut (regsAt (faceOf n) i candFields) s (s.candTaken n i) :=
  .wrs (.refl ..) _ _ _ (by simp [mem_regsAt, candFields])

theorem State.on_candTaken (s : State) (n i : Nat) : (s.candTaken n i).on .candOn (faceOf n) i = false := (on_wrs ..).trans rfl

/-- The counter of a polarisation's slips. -/
def slipCounter (pol : Fin 2) : Fld := if pol = 0 then .slipSlipsX else .slipSlipsY

theorem slipCounter_spec (pol : Fin 2) : (slipCounter pol).row.width = 16 ∧ slipCounter pol ∉ candFields ∧ slipCounter pol ∉ estFields := by
  revert pol
  decide

theorem State.slipNoted_counted (s : State) (n : Nat) (pol : Fin 2) (sub : Fin 16) (k start sf pilot : Nat) :
    Counted [(slipCounter pol, faceOf n, 0)] { s with slipRecs := (s.slipNoted n pol sub k start sf pilot).slipRecs }
      (s.slipNoted n pol sub k start sf pilot) :=
  Counted.withSlipRecs (.count (.count (.inc (.refl ..) _ _ _ _ (by simp [slipCounter])) ..) ..) _

theorem State.rd_slipNoted (s : State) (n : Nat) (pol : Fin 2) (sub : Fin 16) (k start sf pilot : Nat) :
    (s.slipNoted n pol sub k start sf pilot).rd (slipCounter pol) (faceOf n) =
      min (s.rd (slipCounter pol) (faceOf n) + 1) 0xFFFF := by
  have hi : (s.slipNoted n pol sub k start sf pilot).rd (slipCounter pol) (faceOf n) =
      (s.inc (slipCounter pol) (faceOf n)).rd (slipCounter pol) (faceOf n) := rfl
  rw [hi, rd_inc, if_pos ⟨rfl, rfl, rfl⟩, (slipCounter_spec pol).1]
  rfl

/-- A pilot of a subcarrier in use is taken into the estimates, then judged against the stream's candidate. -/
theorem exec_pilotCheck_judges {n : Fin 4} {pol : Fin 2} {sub : Fin 16} (ha : 6 ≤ s.acq n) (hs : sub.val < s.subcarriers n)
    (hf : fixesPhase (s.subcarriers n) sub pilot.toNat = true) {u : State}
    (hu : u = s.pilotTaken n (streamIx pol sub) err dist sf pilot) :
    exec (.pilotCheck n pol sub err dist sf pilot) s =
      if (!s.on .candOn (faceOf n) (streamIx pol sub)) = true then
        .next (if [1, 2, 3].any (nearTurn err) = true then
          ((u.inc .slipPilotOutliers (faceOf n)).count (faceOf n) 0x71).wr .outlierSeen (faceOf n) 0 1 else u)
      else if nearTurn err (s.rd .candK (faceOf n) (streamIx pol sub)) = true ∧ s.rd .candK (faceOf n) (streamIx pol sub) ≠ 0 ∧
          s.on .crSlipDetEn (faceOf n) = true then
        .next ((u.candTaken n (streamIx pol sub)).slipNoted n pol sub (s.rd .candK (faceOf n) (streamIx pol sub))
          (s.rd .candStart (faceOf n) (streamIx pol sub)) sf.toNat pilot.toNat)
      else .next ((u.candTaken n (streamIx pol sub)).count (faceOf n) 0x72) := by
  subst hu
  have hrd {f : Fld} (hf : f ∉ estFields) (j : Nat) : (s.pilotTaken n (streamIx pol sub) err dist sf pilot).rd f (faceOf n) j =
      s.rd f (faceOf n) j := s.rd_pilotTaken n _ _ _ _ _ hf j
  have hdet : ((s.pilotTaken n (streamIx pol sub) err dist sf pilot).candTaken n (streamIx pol sub)).on .crSlipDetEn (faceOf n) =
      s.on .crSlipDetEn (faceOf n) :=
    ((candTaken_sameBut ..).on_field (by decide) ..).trans (congrArg (· == 1) (hrd (by decide) _))
  have hon : (s.pilotTaken n (streamIx pol sub) err dist sf pilot).on .candOn (faceOf n) (streamIx pol sub) =
      s.on .candOn (faceOf n) (streamIx pol sub) := congrArg (· == 1) (hrd (by decide) _)
  rw [← hdet, ← hon, ← hrd (f := .candK) (by decide), ← hrd (f := .candStart) (by decide)]
  exact if_neg (by simp [hf, Nat.not_lt.mpr ha, Nat.not_le.mpr hs])

/-- A pilot that takes a candidate away moves the candidate and the estimates. -/
theorem State.candTaken_counted (s : State) (n i : Nat) (err : BitVec 16) (dist : BitVec 32) (sf : BitVec 48) (pilot : BitVec 20) :
    Counted (regsAt (faceOf n) i candFields ++ regsAt (faceOf n) i estFields)
      { s with pilots := (s.pilotTaken n i err dist sf pilot).pilots } ((s.pilotTaken n i err dist sf pilot).candTaken n i) :=
  .trans ((s.pilotTaken_sameBut ..).counted.mono fun _ => List.mem_append_right _)
    ((candTaken_sameBut ..).counted.mono fun _ => List.mem_append_left _)

/-- A pilot off by a quarter turn without a candidate counts as an outlier. -/
theorem State.outlier_counted (s : State) (n i : Nat) {u : State} (hu : u = s.pilotTaken n i err dist sf pilot) {t : State}
    (ht : t = ((u.inc .slipPilotOutliers (faceOf n)).count (faceOf n) 0x71).wr .outlierSeen (faceOf n) 0 1) :
    t.rd .slipPilotOutliers (faceOf n) = min (s.rd .slipPilotOutliers (faceOf n) + 1) (2 ^ 32 - 1) ∧
      Counted ((.slipPilotOutliers, faceOf n, 0) :: (.outlierSeen, faceOf n, 0) :: regsAt (faceOf n) i estFields)
        { s with pilots := t.pilots } t := by
  have hs : Counted [(.outlierSeen, faceOf n, 0)] (u.inc .slipPilotOutliers (faceOf n)) t := ht ▸ .wr (.count (.refl ..) ..) _ _ _ _ (by simp)
  have ho : (u.inc .slipPilotOutliers (faceOf n)).rd .slipPilotOutliers (faceOf n) =
      min (s.rd .slipPilotOutliers (faceOf n) + 1) (2 ^ 32 - 1) := by
    rw [rd_inc, if_pos ⟨rfl, rfl, rfl⟩, hu, rd_pilotTaken _ _ _ _ _ _ _ (by decide), show Fld.slipPilotOutliers.row.width = 32 by decide]
  have hp : t.pilots = u.pilots := id (congrArg State.pilots hs.1 :)
  have hc : Counted (regsAt (faceOf n) i estFields) { s with pilots := u.pilots } u := hu ▸ (s.pilotTaken_sameBut ..).counted
  refine ⟨(hs.rd (by simp)).trans ho, hp ▸ .trans (.inc (hc.mono ?_) _ _ _ _ (by simp)) (hs.mono (by simp))⟩
  exact fun r hr => List.mem_cons_of_mem _ (List.mem_cons_of_mem _ hr)

/-- A slip that a pilot confirms counts, and its record joins the others. -/
theorem State.slip_counted (s : State) (n : Nat) (pol : Fin 2) (sub : Fin 16) (i k start at_ end_ : Nat) {v : State}
    (hv : v = (s.pilotTaken n i err dist sf pilot).candTaken n i) {t : State} (ht : t = v.slipNoted n pol sub k start at_ end_) :
    t.on .candOn (faceOf n) i = false ∧ t.rd (slipCounter pol) (faceOf n) = min (s.rd (slipCounter pol) (faceOf n) + 1) 0xFFFF ∧
      t.slipRecs = s.slipRecs ++
        [⟨n, pol, sub, k, if start ≤ end_ then at_ else at_ - 1, start, if start ≤ end_ then end_ else sfLen⟩] ∧
      Counted ((slipCounter pol, faceOf n, 0) :: (regsAt (faceOf n) i candFields ++ regsAt (faceOf n) i estFields))
        { s with slipRecs := t.slipRecs, pilots := t.pilots } t := by
  obtain ⟨-, hcand, hest⟩ := slipCounter_spec pol
  have hs : Counted [(slipCounter pol, faceOf n, 0)] { v with slipRecs := t.slipRecs } t := ht ▸ v.slipNoted_counted ..
  have hc : Counted (regsAt (faceOf n) i candFields ++ regsAt (faceOf n) i estFields)
      { s with pilots := (s.pilotTaken n i err dist sf pilot).pilots } v := hv ▸ s.candTaken_counted ..
  have hp : t.pilots = (s.pilotTaken n i err dist sf pilot).pilots :=
    (id (congrArg State.pilots hs.1 :)).trans (id (congrArg State.pilots hc.1 :))
  have hr : v.slipRecs = s.slipRecs := id (congrArg State.slipRecs hc.1 :)
  refine ⟨?_, ?_, ?_, ?_⟩
  · have hne : (Fld.candOn, faceOf n, i) ∉ [(slipCounter pol, faceOf n, 0)] := fun h =>
      hcand ((Prod.mk.inj (List.mem_singleton.mp h)).1 ▸ by decide)
    exact (congrArg (· == 1) (hs.rd hne)).trans (hv ▸ on_candTaken ..)
  · rw [ht, rd_slipNoted, hv, (candTaken_sameBut ..).rd_field hcand, rd_pilotTaken _ _ _ _ _ _ _ hest]
  · rw [← hr, ht]
    rfl
  · rw [hp]
    exact .trans ((hc.withSlipRecs _).mono fun _ => List.mem_cons_of_mem _) (hs.mono (by simp))

end

/-- Settles O16: the estimates are the first thing that a pilot writes, and a candidate is judged on the state that they leave. -/
theorem dispersionUpdatesAndSlipsAreConfirmed : Obligations.DispersionUpdatesAndSlipsAreConfirmed := by
  refine ⟨fun n r s ha hs => ⟨fun hz => ?_, fun hz => ?_⟩, fun n pol sub s => ⟨fun jump start ha hw => ⟨fun hs hj => ⟨fun hc => ?_, fun hc => ?_⟩,
    fun h => ?_⟩, fun err dist sf pilot ha hs hf => ⟨fun hc hq => ?_, fun hc hk h₀ hd => ?_, fun hc h => ?_⟩⟩⟩
  · exact ⟨_, (exec_cdEstUpdate_due ha hs).trans (if_neg (by simp [hz])), s.cdRefined_spec n r⟩
  · exact ⟨_, (exec_cdEstUpdate_due ha hs).trans (if_pos hz), .wr (.refl ..) _ _ _ _ (by simp)⟩
  · have hk : turnsOf jump < 2 ^ Fld.candK.row.width := Nat.mod_lt _ (by decide)
    refine ⟨_, (exec_slipCandidate_jumps ha hw hs hj).trans (if_neg (by simp [hc])), (on_wrs ..).trans rfl,
      (rd_wrs ..).trans (Nat.mod_eq_of_lt hk), (rd_wrs ..).trans (Nat.mod_eq_of_lt start.isLt), .wrs (.refl ..) _ _ _ (by simp [mem_regsAt])⟩
  · exact ⟨_, (exec_slipCandidate_jumps ha hw hs hj).trans (if_pos hc), rd_wr_same .., .wr (.refl ..) _ _ _ _ (by simp)⟩
  · exact if_pos (.inr (.inr h))
  · obtain ⟨hout, hall⟩ := s.outlier_counted (err := err) (dist := dist) (sf := sf) (pilot := pilot) n (streamIx pol sub) rfl rfl
    exact ⟨_, (exec_pilotCheck_judges ha hs hf rfl).trans ((if_pos (by simp [hc])).trans (congrArg _ (if_pos hq))), hout, hall⟩
  · obtain ⟨hoff, hcount, hrec, hall⟩ := s.slip_counted (err := err) (dist := dist) (sf := sf) (pilot := pilot) n pol sub (streamIx pol sub)
      (s.rd .candK (faceOf n) (streamIx pol sub)) (s.rd .candStart (faceOf n) (streamIx pol sub)) sf.toNat pilot.toNat rfl rfl
    exact ⟨_, (exec_pilotCheck_judges ha hs hf rfl).trans ((if_neg (by simp [hc])).trans (if_pos ⟨hk, h₀, hd⟩)), hoff, hcount, hrec, hall⟩
  · have hno : ¬(nearTurn err (s.rd .candK (faceOf n) (streamIx pol sub)) = true ∧ s.rd .candK (faceOf n) (streamIx pol sub) ≠ 0 ∧
        s.on .crSlipDetEn (faceOf n) = true) := fun ⟨hk, h₀, _⟩ => h.elim (fun h => absurd (h.symm.trans hk) (by decide)) h₀
    let v := (s.pilotTaken n (streamIx pol sub) err dist sf pilot).candTaken n (streamIx pol sub)
    have hv : Counted [] v (v.count (faceOf n) 0x72) := .count (.refl ..) ..
    refine ⟨_, (exec_pilotCheck_judges ha hs hf rfl).trans ((if_neg (by simp [hc])).trans (if_neg hno)),
      (congrArg (· == 1) (hv.rd (by simp))).trans (on_candTaken ..), (s.candTaken_counted ..).count ..⟩

end Sys2Proof.Machine

/-! ### Positions in the pool (R187, R262 to R281) -/

namespace Sys2Proof.Machine

open State

/-! ### What the judgement of the shedding leaves -/

/-- The counters of a die's decoding that stand apart from its shedding. -/
def decodeFields : List Fld := [.decIterSum, .decReleased, .decShedBlocks, .slipCorrQueue, .selfchkFail, .katNext]

/-- The tally, the pool and the slip records. -/
def State.queue (s : State) : Nat × List Pos × List SlipRec × List SlipRec := (s.tally, s.pool, s.slipRecs, s.slipFixes)

/-- From `s` to `t` the decoding's counters, the pool and the slip records stay. -/
abbrev Queued : State → State → Prop := Keeps (· ∈ decodeFields) State.queue

section

variable {s₀ s t : State}

theorem Keeps.pool {K : Fld → Prop} (h : Keeps K State.queue s t) : t.pool = s.pool := id (congrArg (·.2.1) h.part :)

theorem Keeps.queueTally {K : Fld → Prop} (h : Keeps K State.queue s t) : t.tally = s.tally := id (congrArg (·.1) h.part :)

theorem Keeps.slipRecs {K : Fld → Prop} (h : Keeps K State.queue s t) : t.slipRecs = s.slipRecs := id (congrArg (·.2.2.1) h.part :)

theorem Keeps.slipFixes {K : Fld → Prop} (h : Keeps K State.queue s t) : t.slipFixes = s.slipFixes := id (congrArg (·.2.2.2) h.part :)

theorem Queued.lamp {block reason st : Nat} (h : Queued s₀ s) : Queued s₀ (s.lamp block reason st) := by
  unfold State.lamp
  dsimp only
  split
  · exact h.inc.wr
  · split
    · exact h.wrs.inc
    · exact h.inc

theorem Queued.endRequest {r : PwrReq} {st : Status} (h : Queued s₀ s) : Queued s₀ (s.endRequest r st) := by
  have hu : Queued s₀ (s.unask r) := .ite h (.foldl (fun _ _ hv => hv.wr) h)
  unfold State.endRequest
  dsimp only
  split
  · exact hu
  · exact hu.finishOp

theorem Queued.startRequest {r : PwrReq} (h : Queued s₀ s) : Queued s₀ (s.startRequest r) := by
  unfold State.startRequest
  extract_lets there mine
  refine .ite (Queued.endRequest h) ?_
  split
  · next e _ =>
    have ha : Queued s₀ (s.abortedBy e.1 e.2 0x12 r.target) := (Queued.lamp h).inc.raise
    exact Queued.endRequest ha
  · have hb : Queued s₀ ((s.domBusy mine 1).wrP .pwrHsBusy 1) := Keeps.wrP (.foldl (fun _ _ hu => hu.wr) h)
    have hm : Queued s₀ (s.hostMarks r) := .ite h (.foldl (fun _ _ hu => hu.wrs) h)
    exact .ite (Queued.endRequest hm) (.ite hb.frame hb.frame)

theorem Queued.nextRequests {l : List PwrReq} (h : Queued s₀ s) : Queued s₀ (s.nextRequests l) := by
  induction l generalizing s with
  | nil => exact h.frame
  | cons r l ih => exact .ite h.frame (ih (Queued.startRequest h))

theorem Queued.wakeParked {d : Die} (h : Queued s₀ s) : Queued s₀ (s.wakeParked d) := by
  unfold State.wakeParked State.bossAsk State.askPower
  exact .ite h (Queued.nextRequests (.foldl (fun _ _ hu => hu.wr) h))

theorem Queued.shedJudge {n : Nat} {arrival : Bool} (h : Queued s₀ s) : Queued s₀ (s.shedJudge n arrival) := by
  unfold State.shedJudge
  extract_lets d c u hm lm g s₁ sheds cap s₂ s₃
  have h₁ : Queued s₀ s₁ := h.wrs
  have h₂ : Queued s₀ s₂ := .ite (Queued.wakeParked h₁) h₁
  have h₃ : Queued s₀ s₃ := h₂.wrs
  exact h₃.wr

theorem Queued.noiseAdd {d : Die} {i lf err : Nat} (h : Queued s₀ s) : Queued s₀ (s.noiseAdd d i lf err) := .ite h.wrs h.wrs

/-- Demapping moves noise estimates. -/
theorem Queued.demap {n cls nsub sf g : Nat} {comp : List Nat} {syms : List RxSym} (h : Queued s₀ s) :
    Queued s₀ (s.demap n cls comp nsub sf g syms).1 := by
  induction syms generalizing s g with
  | nil => exact h
  | cons y l ih =>
    have hx (u : State) (hu : Queued s₀ u) : Queued s₀ (u.demapSym n cls comp nsub sf g y).1 :=
      (Queued.noiseAdd (Queued.noiseAdd (Queued.noiseAdd (Queued.noiseAdd hu))))
    exact ih (hx s h)

theorem Queued.lineCredits {d : Die} {f : Nat → Nat} (h : Queued s₀ s) : Queued s₀ (s.lineCredits d f) := h.frame

end

/-! ### The place that an operation takes a position from -/

/-- The first that passes stands after those that do not. -/
theorem replaceFirst_append {p : Pos → Bool} {f : Pos → Pos} {l r : List Pos} {q : Pos} (hl : ∀ x ∈ l, p x = false) (hq : p q = true) :
    replaceFirst p f (l ++ q :: r) = l ++ f q :: r := by
  induction l with
  | nil => exact if_pos hq
  | cons a l ih =>
    have ha : p a = false := hl a (by simp)
    exact (if_neg (by simp [ha])).trans (congrArg (a :: ·) (ih fun x hx => hl x (List.mem_cons_of_mem _ hx)))

theorem find?_append_first {p : Pos → Bool} {l r : List Pos} {q : Pos} (hl : ∀ x ∈ l, p x = false) (hq : p q = true) :
    (l ++ q :: r).find? p = some q := by
  rw [List.find?_append, List.find?_eq_none.mpr (by simpa using hl), Option.none_or, List.find?_cons_of_pos hq]

theorem length_replaceFirst {p : Pos → Bool} {f : Pos → Pos} (l : List Pos) : (replaceFirst p f l).length = l.length := by
  induction l with
  | nil => rfl
  | cons a l ih =>
    rw [replaceFirst]
    split
    · rfl
    · exact congrArg (· + 1) ih

/-- The first that passes is replaced by one that passes. -/
theorem find?_replaceFirst {p : Pos → Bool} {f : Pos → Pos} {l : List Pos} {a : Pos} (ha : l.find? p = some a) (hf : p (f a) = true) :
    (replaceFirst p f l).find? p = some (f a) := by
  induction l with
  | nil => cases ha
  | cons b l ih =>
    rw [replaceFirst]
    by_cases hb : p b = true
    · rw [List.find?_cons_of_pos hb, Option.some_inj] at ha
      subst ha
      rw [if_pos hb, List.find?_cons_of_pos hf]
    · rw [List.find?_cons_of_neg hb] at ha
      rw [if_neg hb, List.find?_cons_of_neg hb, ih ha]

/-! ### POSITION_COMPLETE -/

section

variable {n : Fin 4} {sf : BitVec 48} {j : Fin 252} {syms : List RxSym} {first : Nat} {s : State}

theorem positionComplete_queues (ha : s.acq n = 7) (hr : s.on .decChainRunning (millOf n) (n.val % 2) = true) (hl : syms.length = posLen)
    (hw : s.on .chainWait (millOf n) (n.val % 2) = true → j = 0) (hf : s.slipFixes = []) {r : LineRate} (hrate : r = s.rxRateAt n sf.toNat) :
    ∃ (t : State) (p : Pos), exec (.positionComplete n sf j syms first) s = .next t ∧ t.pool = s.pool ++ [p] ∧ p.n = n.val ∧
      p.sf = sf.toNat ∧ p.j = j.val ∧ p.done = s.tally ∧ p.phase = .waiting ∧ p.iters = 0 ∧ p.cls = r.cls ∧ p.code = r.code ∧
      p.llrs = (s.demap n r.cls (composition r.cls r.h) (s.subcarriers n) sf.toNat (posLen * j) syms).2 ∧ t.tally = s.tally := by
  subst hrate
  have hgo : ¬(s.acq n ≠ 7 ∨ s.on .decChainRunning (millOf n) (n.val % 2) = false ∨ syms.length ≠ posLen ∨
      (s.on .chainWait (millOf n) (n.val % 2) = true ∧ j.val ≠ 0)) := by
    rintro (h | h | h | ⟨h₁, h₂⟩)
    · exact h ha
    · exact absurd (h.symm.trans hr) (by decide)
    · exact h hl
    · exact h₂ (congrArg Fin.val (hw h₁))
  obtain ⟨o, ho⟩ : ∃ o, exec (.positionComplete n sf j syms first) s = o := ⟨_, rfl⟩
  rw [ho]
  change execPositionComplete n sf j syms first s = o at ho
  unfold execPositionComplete at ho
  extract_lets d c nsub r next w s₁ joinLeft s₂ at_ g s₃ s₄ p mine p' s₅ at ho
  rw [if_neg hgo] at ho
  have h₁ : Queued s s₁ := Queued.demap .refl
  have h₂ : Queued s s₂ := h₁.count
  have h₃ : Queued s s₃ := h₂.wr.wrs
  have h₄ : Queued s s₄ := Queued.lineCredits h₃
  clear_value s₄
  have hm : mine = [] := by simp [mine, h₄.slipFixes, hf]
  have hp : p' = p := congrArg (List.foldl (fun p r => p.corrected r nsub) p) hm
  have h₅ : s₅.pool = s.pool ++ [p'] := congrArg (· ++ [p']) h₄.pool
  have ht (v : State) (hv : v.pool = s₅.pool) (hy : v.tally = s₄.tally) :
      (v.shedJudge n true).pool = s.pool ++ [p'] ∧ (v.shedJudge n true).tally = s.tally := by
    have h : Queued v (v.shedJudge n true) := Queued.shedJudge .refl
    exact ⟨h.pool.trans (hv.trans h₅), h.queueTally.trans (hy.trans h₄.queueTally)⟩
  subst ho
  obtain ⟨hpool, htally⟩ := ht { s₅ with slipFixes := s₅.slipFixes.filter fun r => !(mine.contains r && !s₅.stillFills r nsub) } rfl rfl
  refine ⟨_, p', rfl, hpool, ?_⟩
  rw [hp]
  exact ⟨rfl, rfl, rfl, h₄.queueTally, rfl, rfl, rfl, rfl, rfl, htally⟩

end

/-! ### POSITION_DISPATCH -/

theorem exec_positionDispatch_takes {m : Fin 2} {e : Fin 68} {s : State} {l r : List Pos} {p : Pos} (hready : s.engReady (millAt m) e = true)
    (hfree : ∀ q ∈ s.pool, ¬(millOf q.n = millAt m ∧ q.phase = .decoding e)) (hs : s.pool = l ++ p :: r)
    (hl : ∀ q ∈ l, s.takes (millAt m) q = false) (hp : s.takes (millAt m) p = true) :
    exec (.positionDispatch m e) s = .next { (if p.redecoding then s.payOvertime p else s) with
      pool := l ++ { p with phase := .decoding e, engine := e, start := s.tally, overtime := p.overtime + b2n p.redecoding } :: r } := by
  have hb : (s.pool.any fun p => millOf p.n == millAt m && p.phase == .decoding e) = false := by
    rw [List.any_eq_false]
    intro q hq
    simpa using hfree q hq
  have hf : s.pool.find? (s.takes (millAt m)) = some p := hs ▸ find?_append_first hl hp
  refine (if_neg (by simp [hb, hready])).trans ?_
  rw [hf]
  dsimp only
  rw [hs, replaceFirst_append hl hp]

/-! ### ITERATION_END -/

/-- The position that an engine of a die works on. -/
def atEngine (d : Die) (e : Nat) (q : Pos) : Bool := millOf q.n == d && q.phase == .decoding e

/-- The tally and the number of positions in the pool. -/
def State.size (s : State) : Nat × Nat := (s.tally, s.pool.length)

/-- From `s` to `t` the decoding's counters stay, and the pool holds as many positions. -/
abbrev Sized : State → State → Prop := Keeps (· ∈ decodeFields) State.size

section

variable {s t : State} {p q : Pos} {d : Die} {e : Nat} {here : Pos → Bool}

theorem Keeps.sized (h : Queued s t) : Sized s t :=
  h.weaken (fun _ hf => hf) fun k => congrArg (fun x : Nat × List Pos × List SlipRec × List SlipRec => (x.1, x.2.1.length)) k

theorem atEngine_of_same (hn : q.n = p.n) (hp : q.phase = p.phase) : atEngine d e q = atEngine d e p := by
  rw [atEngine, atEngine, hn, hp]

theorem DecCode.load_place (c : DecCode) (p : Pos) : (c.load p).n = p.n ∧ (c.load p).phase = p.phase := by
  unfold DecCode.load
  split
  · exact ⟨rfl, rfl⟩
  · exact ⟨rfl, rfl⟩

theorem SameBut.withPool {l : List Reg} (h : SameBut l s t) (x) : SameBut l { s with pool := x } { t with pool := x } :=
  ⟨id (congrArg (fun u : State => { u with pool := x }) h.1 :), h.2⟩

/-- The pool after an iteration: the position with its work done stands where it stood, and the pool is as long. -/
theorem State.iterated_pool (hp : s.pool.find? (atEngine d e) = some p) : ∃ q, (s.iterated (atEngine d e) p).pool.find? (atEngine d e) = some q ∧
    q.n = p.n ∧ q.iters = p.iters + 1 ∧ (s.iterated (atEngine d e) p).pool.length = s.pool.length := by
  unfold iterated
  extract_lets c r others run q s₁ s₂
  have hhere : atEngine d e p = true := List.find?_some hp
  have hq : atEngine d e q = true := (atEngine_of_same rfl rfl).trans hhere
  have ho (x : Pos) : atEngine d e (if atEngine d e x = true then x else others x) = atEngine d e x := by
    split
    · rfl
    · dsimp only [others]
      split
      · exact atEngine_of_same (c.load_place x).1 (c.load_place x).2
      · rfl
  have hf : s₂.pool.find? (atEngine d e) = some q := by
    refine (List.find?_map ..).trans ?_
    rw [show (atEngine d e ∘ fun x => if atEngine d e x = true then x else others x) = atEngine d e from funext ho,
      find?_replaceFirst hp hq]
    exact congrArg some (if_pos hq)
  have hl : s₂.pool.length = s.pool.length := (List.length_map ..).trans (length_replaceFirst ..)
  clear_value s₂
  split
  · exact ⟨_, find?_replaceFirst hf ((atEngine_of_same rfl rfl).trans hq), rfl, rfl, (length_replaceFirst ..).trans hl⟩
  · exact ⟨q, hf, rfl, rfl, hl⟩

theorem State.iterated_sameBut (s : State) (here : Pos → Bool) (p : Pos) :
    (s.iterated here p).rd .decIterSum (millOf p.n) (p.n % 2) = (s.rd .decIterSum (millOf p.n) (p.n % 2) + 1) % 2 ^ 32 ∧
      SameBut [(.decIterSum, millOf p.n, p.n % 2)] { s with pool := (s.iterated here p).pool } (s.iterated here p) := by
  unfold iterated
  extract_lets c r others run q s₁ s₂
  have hb : SameBut [(.decIterSum, millOf p.n, p.n % 2)] s₁ s₂ := .bump (.refl ..) _ _ _ _ (by simp)
  have hr : s₂.rd .decIterSum (millOf p.n) (p.n % 2) = (s.rd .decIterSum (millOf p.n) (p.n % 2) + 1) % 2 ^ 32 := by
    refine (rd_bump ..).trans ?_
    rw [if_pos ⟨rfl, rfl, rfl⟩, show Fld.decIterSum.row.width = 32 by decide]
    rfl
  clear_value s₂
  split
  · exact ⟨hr, hb.withPool _⟩
  · exact ⟨hr, hb.withPool _⟩

/-- A position as it finishes. -/
def Pos.ended (q : Pos) (ok : Bool) (fin cap : Nat) : Pos := { q with phase := .finished, converged := ok, waits := false, fin := fin, cap := cap }

/-- The state with the first position that passes replaced. -/
def State.repooled (s : State) (here : Pos → Bool) (f : Pos → Pos) : State := { s with pool := replaceFirst here f s.pool }

theorem State.repooled_sized (s : State) (here : Pos → Bool) (f : Pos → Pos) : Sized s (s.repooled here f) :=
  Keeps.refl.frame rfl (congrArg (Prod.mk s.tally) (length_replaceFirst ..))

/-- Finishing counts, replaces the position and judges the shedding. -/
theorem State.finishPos_eq (s : State) (here : Pos → Bool) (p : Pos) (ok : Bool) : ∃ u, Queued s u ∧ s.finishPos here p ok =
    (u.repooled here fun q => q.ended ok s.tally (s.rd .decCapEffective (millOf p.n) (p.n % 2))).shedJudge p.n false := by
  unfold finishPos
  extract_lets cap d s₁ s₂
  have h₁ : Queued s s₁ := .ite (Keeps.refl.count) .refl
  have h₂ : Queued s s₂ := .ite h₁.count h₁
  exact ⟨s₂, h₂, by rw [← h₂.queueTally]; rfl⟩

theorem State.finishPos_pool (s : State) (here : Pos → Bool) (p : Pos) (ok : Bool) : (s.finishPos here p ok).pool =
    replaceFirst here (fun q => q.ended ok s.tally (s.rd .decCapEffective (millOf p.n) (p.n % 2))) s.pool := by
  obtain ⟨u, hu, he⟩ := s.finishPos_eq here p ok
  rw [he, (Queued.shedJudge .refl).pool, repooled, ← hu.pool]

theorem State.finishPos_sized (s : State) (here : Pos → Bool) (p : Pos) (ok : Bool) : Sized s (s.finishPos here p ok) := by
  obtain ⟨u, hu, he⟩ := s.finishPos_eq here p ok
  rw [he]
  exact hu.sized.trans ((repooled_sized ..).trans (Keeps.sized (Queued.shedJudge .refl)))

/-- An engine's self-check failure counts; what follows moves its spare and the position that it held. -/
theorem State.engFail_sized (s : State) (d : Die) (e : Nat) : Sized (s.inc .selfchkFail d) (s.engFail d e) := by
  unfold engFail
  extract_lets s₁ k sp s₂ s₃
  have hc {u : State} (hu : Sized s₁ u) {i : Nat} {stays : Bool} : Sized s₁ (u.canaryStart d 1 i stays) := by
    rw [canaryStart_eq]
    exact hu.frame
  have h₂ : Sized s₁ s₂ := hc Keeps.refl.wrs
  have h₃ : Sized s₁ s₃ := h₂.frame rfl (congrArg (Prod.mk s₂.tally) (List.length_map ..))
  exact .ite .refl (.ite (hc Keeps.refl.wr.raise) h₃.wrs)

theorem exec_iterationEnd_runs {m : Fin 2} {e : Fin 68} (mis : Bool) (hp : s.pool.find? (atEngine (millAt m) e) = some p) (hw : p.waits = false)
    (hq : (s.iterated (atEngine (millAt m) e) p).pool.find? (atEngine (millAt m) e) = some q) {u : State}
    (hu : u = s.iterated (atEngine (millAt m) e) p) :
    exec (.iterationEnd m e mis) s =
      if (decide (max 1 (u.rd .etMinAct (millAt m)) ≤ q.iters) && (mis || (u.allSatisfied (u.decCode q) q && u.followed q))) = true then
        if u.unsatisfied (u.decCode q) q = 0 then .next (u.finishPos (atEngine (millAt m) e) q true)
        else .next ((u.finishPos (atEngine (millAt m) e) q false).engFail (millAt m) e)
      else if (decide (max 1 (u.rd .etMinAct (millAt m)) ≤ q.iters) && u.allSatisfied (u.decCode q) q) = true then
        .next (u.repooled (atEngine (millAt m) e) fun p => { p with waits := true })
      else if max 8 (u.rd .iterMaxAct (millAt m)) ≤ q.iters then .next (u.finishPos (atEngine (millAt m) e) q false)
      else if q.iters < u.rd .decCapEffective (millAt m) (q.n % 2) ∧ ¬ q.redecoding then
        .next (u.repooled (atEngine (millAt m) e) fun p => { p with waits := false, overtime := p.overtime + b2n false })
      else if u.otOpen q then
        .next ((u.payOvertime q).repooled (atEngine (millAt m) e) fun p => { p with waits := false, overtime := p.overtime + b2n true })
      else .next (u.finishPos (atEngine (millAt m) e) q false) := by
  subst hu
  have hh : (fun q : Pos => millOf q.n == millAt m && q.phase == .decoding e) = atEngine (millAt m) e := rfl
  have hgo : (if p.waits = true then s else s.iterated (atEngine (millAt m) e) p) = s.iterated (atEngine (millAt m) e) p :=
    if_neg (by simp [hw])
  change execIterationEnd m e mis s = _
  unfold execIterationEnd
  dsimp only
  rw [hh, hp]
  dsimp only
  rw [hgo, hq]
  rfl

/-- However an iteration is judged, it counts once, and the pool holds as many positions. -/
theorem iterationEnd_counts {m : Fin 2} {e : Fin 68} (mis : Bool) (hp : s.pool.find? (atEngine (millAt m) e) = some p) (hw : p.waits = false) :
    ∃ t, exec (.iterationEnd m e mis) s = .next t ∧
      t.rd .decIterSum (millAt m) (p.n % 2) = (s.rd .decIterSum (millAt m) (p.n % 2) + 1) % 2 ^ 32 ∧
      t.tally = s.tally ∧ t.pool.length = s.pool.length := by
  obtain ⟨q, hq, hn, -, hlen⟩ := iterated_pool hp
  obtain ⟨hsum, hrest⟩ := s.iterated_sameBut (atEngine (millAt m) e) p
  let u := s.iterated (atEngine (millAt m) e) p
  have hd : millOf p.n = millAt m := by
    have hh := List.find?_some hp
    rw [atEngine, Bool.and_eq_true, beq_iff_eq] at hh
    exact hh.1
  rw [hd] at hsum
  have hty : u.tally = s.tally := id (congrArg State.tally hrest.1 :)
  have hnext {t : State} (h : Keeps (· = Fld.decIterSum) State.size u t) : ∃ t', (.next t : Host.Outcome State Fault Refusal) = .next t' ∧
      t'.rd .decIterSum (millAt m) (p.n % 2) = (s.rd .decIterSum (millAt m) (p.n % 2) + 1) % 2 ^ 32 ∧
      t'.tally = s.tally ∧ t'.pool.length = s.pool.length :=
    ⟨t, rfl, (h.rd .decIterSum rfl _ _).trans hsum, (id (congrArg Prod.fst h.part :) : t.tally = u.tally).trans hty,
      (id (congrArg Prod.snd h.part :) : t.pool.length = u.pool.length).trans hlen⟩
  have hsum {t v : State} (h : Sized v t) : Keeps (· = Fld.decIterSum) State.size v t :=
    h.weaken (fun _ hf => hf ▸ by decide) id
  have hfin (ok : Bool) : Sized u (u.finishPos (atEngine (millAt m) e) q ok) := finishPos_sized ..
  have hfail : Keeps (· = Fld.decIterSum) State.size u ((u.finishPos (atEngine (millAt m) e) q false).engFail (millAt m) e) :=
    (hsum (hfin false)).inc.trans (hsum (engFail_sized ..))
  have hpay : Sized u (u.payOvertime q) := Keeps.refl.wr.bump.count
  rw [exec_iterationEnd_runs mis hp hw hq (u := u) rfl]
  split_ifs
  · exact hnext (hsum (hfin true))
  · exact hnext hfail
  · exact hnext (hsum (repooled_sized ..))
  · exact hnext (hsum (hfin false))
  · exact hnext (hsum (repooled_sized ..))
  · exact hnext (hsum (hpay.trans (repooled_sized ..)))
  · exact hnext (hsum (hfin false))

theorem State.unsatisfied_of_allSatisfied {c : DecCode} (h : s.allSatisfied c q = true) : s.unsatisfied c q = 0 := by
  rw [allSatisfied, List.all_cons, Bool.and_eq_true, beq_iff_eq] at h
  exact h.1

/-- How an iteration's judgement leaves the position, by its checks, its followers and its count (R264, R274). -/
theorem iterationEnd_ends {m : Fin 2} {e : Fin 68} (hp : s.pool.find? (atEngine (millAt m) e) = some p) (hw : p.waits = false) {u : State}
    (hu : u = s.iterated (atEngine (millAt m) e) p) {l r : List Pos} (hpool : u.pool = l ++ q :: r)
    (hl : ∀ x ∈ l, atEngine (millAt m) e x = false) (hq : atEngine (millAt m) e q = true) {ends : Pos → Prop}
    (hends : ∀ x, ends x ↔ ∃ t, exec (.iterationEnd m e false) s = .next t ∧ t.pool = l ++ x :: r) :
    q.iters = p.iters + 1 ∧
      (max 1 (s.rd .etMinAct (millAt m)) ≤ q.iters → u.allSatisfied (u.decCode q) q = true → u.followed q = true →
        ends (q.ended true s.tally (s.rd .decCapEffective (millAt m) (p.n % 2)))) ∧
      (max 1 (s.rd .etMinAct (millAt m)) ≤ q.iters → u.allSatisfied (u.decCode q) q = true → u.followed q = false →
        ends { q with waits := true }) ∧
      (u.allSatisfied (u.decCode q) q = false → max 8 (s.rd .iterMaxAct (millAt m)) ≤ q.iters →
        ends (q.ended false s.tally (s.rd .decCapEffective (millAt m) (p.n % 2)))) ∧
      (u.allSatisfied (u.decCode q) q = false → q.iters < max 8 (s.rd .iterMaxAct (millAt m)) →
        q.iters < s.rd .decCapEffective (millAt m) (p.n % 2) → q.redecoding = false → ends { q with waits := false }) := by
  have hfind : u.pool.find? (atEngine (millAt m) e) = some q := hpool ▸ find?_append_first hl hq
  obtain ⟨q', hq', hn, hit, -⟩ := iterated_pool hp
  obtain rfl : q = q' := Option.some_inj.mp (hfind.symm.trans (hu ▸ hq'))
  obtain ⟨-, hrest⟩ := s.iterated_sameBut (atEngine (millAt m) e) p
  rw [← hu] at hrest
  have hd : millOf q.n = millAt m := by
    rw [atEngine, Bool.and_eq_true, beq_iff_eq] at hq
    exact hq.1
  have hty : u.tally = s.tally := id (congrArg State.tally hrest.1 :)
  have hrd {f : Fld} (hf : f ≠ .decIterSum) (i : Nat) : u.rd f (millAt m) i = s.rd f (millAt m) i := hrest.rd (by simp [hf])
  have hx := exec_iterationEnd_runs false hp hw hq' hu
  rw [hrd (by decide), hrd (by decide), hrd (by decide), hn, Bool.false_or] at hx
  have hend (ok : Bool) : (u.finishPos (atEngine (millAt m) e) q ok).pool =
      l ++ q.ended ok s.tally (s.rd .decCapEffective (millAt m) (p.n % 2)) :: r := by
    rw [finishPos_pool, hpool, replaceFirst_append hl hq, hd, hty, hrd (by decide), hn]
  have hwait {f : Pos → Pos} : (u.repooled (atEngine (millAt m) e) f).pool = l ++ f q :: r := by
    rw [repooled, hpool, replaceFirst_append hl hq]
  refine ⟨hit, fun ho ha hf => ?_, fun ho ha hf => ?_, fun ha hm => ?_, fun ha hm hc hr => ?_⟩
  · rw [if_pos (by simp [ho, ha, hf]), if_pos (unsatisfied_of_allSatisfied ha)] at hx
    exact (hends _).mpr ⟨_, hx, hend true⟩
  · rw [if_neg (by simp [hf]), if_pos (by simp [ho, ha])] at hx
    exact (hends _).mpr ⟨_, hx, hwait⟩
  · rw [if_neg (by simp [ha]), if_neg (by simp [ha]), if_pos hm] at hx
    exact (hends _).mpr ⟨_, hx, hend false⟩
  · rw [if_neg (by simp [ha]), if_neg (by simp [ha]), if_neg (Nat.not_le.mpr hm), if_pos ⟨hc, by simp [hr]⟩] at hx
    exact (hends _).mpr ⟨_, hx, hwait⟩

/-! ### POSITION_RELEASE -/

theorem Pos.outcome_eq_four (p : Pos) : p.outcome = 4 ↔ p.phase ≠ .finished := by
  unfold outcome
  split_ifs <;> simp_all

/-- A release counts, and as shed where the position has not finished (R268, R273). -/
theorem State.countRelease_counts (s : State) (p : Pos) :
    (s.countRelease p).rd .decReleased (millOf p.n) (p.n % 2) = (s.rd .decReleased (millOf p.n) (p.n % 2) + 1) % 2 ^ 32 ∧
      (s.countRelease p).rd .decShedBlocks (millOf p.n) (p.n % 2) =
        (if p.phase = .finished then s.rd .decShedBlocks (millOf p.n) (p.n % 2)
          else min (s.rd .decShedBlocks (millOf p.n) (p.n % 2) + 1) (2 ^ 32 - 1)) ∧
      Keeps (fun _ => False) State.queue s (s.countRelease p) := by
  unfold countRelease
  extract_lets d c u
  have hu : Queued (s.bump .decReleased d c) u := Keeps.refl.count
  have hq : Keeps (fun _ => False) State.queue s u := (Keeps.refl.bump id).count
  have hrel : u.rd .decReleased d c = (s.rd .decReleased d c + 1) % 2 ^ 32 := by
    rw [hu.rd .decReleased (by decide), rd_bump, if_pos ⟨rfl, rfl, rfl⟩, show Fld.decReleased.row.width = 32 by decide]
  have hshed : u.rd .decShedBlocks d c = s.rd .decShedBlocks d c := by
    rw [hu.rd .decShedBlocks (by decide), rd_bump, if_neg (by simp)]
  clear_value u
  by_cases hf : p.phase = .finished
  · have h4 : p.outcome ≠ 4 := fun h => p.outcome_eq_four.mp h hf
    rw [if_neg h4, if_pos hf]
    split
    · exact ⟨(rd_inc ..).trans ((if_neg (by simp)).trans hrel), (rd_inc ..).trans ((if_neg (by simp)).trans hshed), hq.inc id⟩
    · exact ⟨hrel, hshed, hq⟩
  · have h4 : p.outcome = 4 := p.outcome_eq_four.mpr hf
    rw [h4, if_neg (by decide), if_pos rfl, if_neg hf, ← hshed]
    refine ⟨(rd_inc ..).trans ((if_neg (by simp)).trans hrel), (rd_inc ..).trans ?_, hq.inc id⟩
    rw [if_pos ⟨rfl, rfl, rfl⟩, show Fld.decShedBlocks.row.width = 32 by decide]

theorem Queued.countErrors (h : Queued s t) : Queued s (t.countErrors p) := by
  unfold State.countErrors State.pmCount
  extract_lets d c e
  have hb : Queued s ((t.bump .berErrs d (p.n % 2) e).bump .berBits d (p.n % 2) (posBits p.cls)) := h.bump.bump
  split
  · exact hb
  · exact hb.frame

theorem Queued.emit {source die recType stamp : Nat} {payload : List Byte} (h : Queued s t) :
    Queued s (t.emit source die recType stamp payload) := by
  unfold State.emit
  extract_lets held skipped u
  have hu : Queued s u := .ite h.inc h
  have hr : Queued s { u with telemSkipped := u.telemSkipped ++ [(source, die)] } := hu.frame
  exact .ite h (.ite h.frame (.ite hu hr.raise))

theorem Queued.tagPosition {unsat changed : Nat} (h : Queued s t) : Queued s (t.tagPosition p unsat changed) := .ite h (Queued.emit h)

theorem Queued.passOn (h : Queued s t) : Queued s (t.passOn p) := by
  unfold State.passOn
  extract_lets d i c x r dims phase y z u v
  have hu : Queued s u := h.frame
  have hv : Queued s v := .ite hu.inc.count hu
  exact .ite h.frame hv.inc.inc.count.count

end

section

variable {n : Fin 4} {s : State} {p : Pos}

theorem positionRelease_releases (hp : s.pool.find? (·.n == n.val) = some p) (hd : p.done + 2 ^ 19 ≤ s.tally) :
    ∃ u, Queued (s.countRelease p) u ∧ ∃ past, exec (.positionRelease n) s =
      .next (State.shedJudge { u with pool := u.pool.erase p, poolPast := past } n false) := by
  obtain ⟨o, ho⟩ : ∃ o, exec (.positionRelease n) s = o := ⟨_, rfl⟩
  rw [ho]
  change execPositionRelease n s = o at ho
  unfold execPositionRelease at ho
  split at ho
  · next h => exact absurd (hp.symm.trans h) (by simp)
  next q h =>
  obtain rfl : p = q := Option.some_inj.mp (hp.symm.trans h)
  extract_lets c p' s₁ s₂ past at ho
  rw [if_neg (Nat.not_lt.mpr hd)] at ho
  have h₁ : Queued (s.countRelease p) s₁ := Queued.passOn (Queued.tagPosition (Queued.countErrors .refl))
  exact ⟨s₂, Queued.lineCredits h₁, _, ho.symm⟩

end

/-- Settles O17: each operation on the pool by what it does to the one position that it takes. -/
theorem positionsQueueDispatchIterateRelease : Obligations.PositionsQueueDispatchIterateRelease := by
  refine ⟨fun n sf j syms first s => ⟨fun ⟨ha, hr, hl, hw⟩ hf => ?_, fun hno => ?_⟩, fun m e s l p r hready hfree hs hl hp => ?_,
    fun m e s p hp hw => ⟨fun mis => ?_, fun l q r hpool hl hq => ?_⟩, fun n s p hp => ⟨fun hd => ?_, fun hd => ?_⟩⟩
  · exact positionComplete_queues ha hr hl hw hf rfl
  · refine if_pos ?_
    by_contra hgo
    rw [not_or, not_or, not_or, not_ne_iff, Bool.not_eq_false, not_ne_iff, not_and, not_ne_iff] at hgo
    obtain ⟨ha, hr, hl, hw⟩ := hgo
    exact hno ⟨ha, hr, hl, fun h => Fin.ext (hw h)⟩
  · exact exec_positionDispatch_takes hready hfree hs hl hp
  · exact iterationEnd_counts mis hp hw
  · exact iterationEnd_ends hp hw rfl hpool hl hq fun _ => Iff.rfl
  · change execPositionRelease n s = _
    unfold execPositionRelease
    rw [hp]
    exact if_pos hd
  · obtain ⟨u, hu, past, hx⟩ := positionRelease_releases hp hd
    obtain ⟨hrel, hshed, hq⟩ := s.countRelease_counts p
    have hn : p.n = n.val := by simpa using List.find?_some hp
    have ht : Queued { u with pool := u.pool.erase p, poolPast := past }
      (State.shedJudge { u with pool := u.pool.erase p, poolPast := past } n false) := Queued.shedJudge .refl
    have hrd {f : Fld} (hf : f ∈ decodeFields) (d : Die) (i : Nat) :
        (State.shedJudge { u with pool := u.pool.erase p, poolPast := past } n false).rd f d i = (s.countRelease p).rd f d i :=
      (ht.rd f hf d i).trans (hu.rd f hf d i)
    rw [hn] at hrel hshed
    refine ⟨_, hx, ht.pool.trans ?_, (hrd (by decide) _ _).trans hrel, fun hf => (hrd (by decide) _ _).trans (hshed.trans (if_neg hf)),
      fun hf => (hrd (by decide) _ _).trans (hshed.trans (if_pos hf)), ht.queueTally.trans (hu.queueTally.trans hq.queueTally)⟩
    exact congrArg (List.erase · p) (hu.pool.trans hq.pool)

end Sys2Proof.Machine

/-! ### Tokens, known answers, slip records and the FEC phase (R181 to R183, R252, R253, R266, R275, R279) -/

namespace Sys2Proof.Machine

open State

/-! OT_TOKEN_RELOAD. -/

/-- What takes effect at an SF boundary in the pool, and the register that it comes from. -/
def poolPairs : List (Fld × Fld) :=
  [(.poolOtTokens, .poolOtGrant), (.highAct, .poolHighMark), (.lowAct, .poolLowMark), (.shedStepAct, .poolShedStep),
    (.shedMinAct, .poolShedMinIter), (.iterMaxAct, .poolIterMaxOt), (.otEnableAct, .poolOtEnable), (.etMinAct, .poolEtMin),
    (.katEnAct, .poolKatEn), (.katPeriodAct, .poolKatPeriod)]

section

variable {s t u : State}

/-- Of the pool's registers that take effect no two are the same. -/
theorem lookup_poolPairs (v : Fld → Nat) {p : Fld × Fld} (hp : p ∈ poolPairs) :
    (poolPairs.map fun q => (q.1, v q.2)).reverse.lookup p.1 = some (v p.2) := by
  simp only [poolPairs, List.mem_cons, List.not_mem_nil, or_false] at hp
  rcases hp with rfl | rfl | rfl | rfl | rfl | rfl | rfl | rfl | rfl | rfl <;> rfl

theorem exec_otTokenReload (m : Fin 2) (s : State) :
    exec (.otTokenReload m) s = .next (s.wrs (millAt m) 0 (poolPairs.map fun q => (q.1, s.rd q.2 (millAt m)))) := by
  rw [poolPairs, List.map_cons, wrs_cons]
  rfl

/-- What comes from a register that fits is what takes effect. -/
theorem otTokenReload_reloads (m : Fin 2) (s : State) : ∃ t, exec (.otTokenReload m) s = .next t ∧
    (∀ p ∈ poolPairs, s.rd p.2 (millAt m) < 2 ^ p.1.row.width → t.rd p.1 (millAt m) = s.rd p.2 (millAt m)) ∧
    SameBut (regsAt (millAt m) 0 (poolPairs.map (·.1))) s t := by
  refine ⟨_, exec_otTokenReload m s, fun p hp hw => ?_, .wrs (.refl ..) _ _ _ fun p hp => ?_⟩
  · rw [rd_wrs, lookup_poolPairs (fun f => s.rd f (millAt m)) hp]
    exact Nat.mod_eq_of_lt hw
  · obtain ⟨q, hq, rfl⟩ := List.mem_map.mp hp
    exact mem_regsAt.mpr ⟨List.mem_map_of_mem hq, rfl, rfl⟩

/-! KAT_TEST. -/

/-- A known-answer test that is enabled and due (R275). -/
def State.katDue (s : State) (d : Die) : Prop := s.on .katEnAct d = true ∧ s.rd .katPeriodAct d * 256 ≠ 0 ∧
  s.rd .katServed d ≠ s.sf / (s.rd .katPeriodAct d * 256) * (s.rd .katPeriodAct d * 256) + 1

/-- The test that is due counted as served. -/
def State.katDone (s : State) (d : Die) : State :=
  s.wr .katServed d 0 (s.sf / (s.rd .katPeriodAct d * 256) * (s.rd .katPeriodAct d * 256) + 1)

theorem exec_katTest_due {m : Fin 2} {answer : List Bool} (h : s.katDue (millAt m)) :
    exec (.katTest m answer) s =
      if 256 ≤ s.sf % (s.rd .katPeriodAct (millAt m) * 256) then .next ((s.katDone (millAt m)).inc .selfchkKatSkipped (millAt m))
      else if s.dieSheds (millAt m) = true then .next s
      else match s.nextKat (millAt m) with
        | none => .next s
        | some e =>
          let u := (s.katDone (millAt m)).wr .katNext (millAt m) 0 ((e + 1) % 68)
          .next (if answer.map b2n = katPayload then u else u.engFail (millAt m) e) := by
  obtain ⟨hen, hper, hserved⟩ := h
  exact if_neg (by simp [hen, hper, hserved])

theorem rd_katNext {d : Die} (e : Nat) : ((s.katDone d).wr .katNext d 0 ((e + 1) % 68)).rd .katNext d = (e + 1) % 68 :=
  (rd_wr_same ..).trans (Nat.mod_eq_of_lt ((Nat.mod_lt _ (by decide)).trans (by decide)))

/-- A wrong answer of a known-answer test (R275, R276). -/
theorem katTest_fails {d : Die} (e : Nat) (hu : u = (s.katDone d).wr .katNext d 0 ((e + 1) % 68)) :
    (u.engFail d e).rd .selfchkFail d = min (s.rd .selfchkFail d + 1) 0xFFFF ∧ (u.engFail d e).rd .katNext d = (e + 1) % 68 := by
  have hk : SameBut (regsAt d 0 [.katServed, .katNext]) s u := hu ▸ .wr (.wr (.refl ..) _ _ _ _ (by simp [mem_regsAt])) _ _ _ _ (by simp [mem_regsAt])
  have h := u.engFail_sized d e
  constructor
  · rw [h.rd .selfchkFail (by decide), rd_inc, if_pos ⟨rfl, rfl, rfl⟩, hk.rd_field (by decide), show Fld.selfchkFail.row.width = 16 by decide]
    rfl
  · rw [h.rd .katNext (by decide), rd_inc, if_neg (by simp), hu, rd_katNext]

/-! SLIP_RECORD. -/

/-- A record that finds every position that it names before an engine corrects those positions and does nothing else. -/
theorem State.slipApply_waiting (s : State) (r : SlipRec) (nsub : Nat) {l : List Pos}
    (h : ∀ p ∈ l, r.touches p nsub = true → p.phase = .waiting) :
    s.slipApply r nsub l = (s, l.map fun p => if r.touches p nsub = true then p.corrected r nsub else p) := by
  induction l with
  | nil => rfl
  | cons p l ih =>
    have hp : (if r.touches p nsub = true then s.slipInto r nsub p else (s, p)) =
        (s, if r.touches p nsub = true then p.corrected r nsub else p) := by
      split
      · next ht => rw [slipInto, h p (by simp) ht]
      · rfl
    rw [slipApply, hp, ih fun q hq => h q (List.mem_cons_of_mem _ hq)]
    rfl

theorem slipRecord_corrects {n : Fin 4} {r : SlipRec} (hr : s.slipRecs.find? (·.n == n.val) = some r) {nsub : Nat} (hs : nsub = s.subcarriers n)
    (hall : ∀ p ∈ s.pool, r.touches p nsub = true → p.phase = .waiting ∧ p.redecoding = false) :
    ∃ t, exec (.slipRecord n) s = .next t ∧ t.slipRecs = s.slipRecs.erase r ∧
      t.slipFixes = (if s.stillFills r nsub = true then s.slipFixes ++ [r] else s.slipFixes) ∧
      t.pool = s.pool.map (fun p => if r.touches p nsub = true then p.corrected r nsub else p) ∧
      (s.stillFills r nsub = true ∨ (∃ p ∈ s.pool, r.touches p nsub = true) →
        t.rd .slipCorrQueue (millOf n) (n.val % 2) = min (s.rd .slipCorrQueue (millOf n) (n.val % 2) + 1) (2 ^ 32 - 1)) := by
  subst hs
  obtain ⟨o, ho⟩ : ∃ o, exec (.slipRecord n) s = o := ⟨_, rfl⟩
  rw [ho]
  change execSlipRecord n s = o at ho
  unfold execSlipRecord at ho
  split at ho
  · next h => exact absurd (hr.symm.trans h) (by simp)
  next q h =>
  obtain rfl : r = q := Option.some_inj.mp (hr.symm.trans h)
  extract_lets nsub s₁ fills waits s₂ s₃ t left at ho
  have hk : Keeps (fun _ => False) State.queue s₁ s₂ := .ite (Keeps.refl.inc id) .refl
  have hcount : fills = true ∨ (∃ p ∈ s.pool, r.touches p nsub = true) →
      s₂.rd .slipCorrQueue (millOf n) (n.val % 2) = min (s.rd .slipCorrQueue (millOf n) (n.val % 2) + 1) (2 ^ 32 - 1) := by
    intro h
    have hgo : (fills || waits) = true := by
      rw [Bool.or_eq_true]
      refine h.imp_right fun ⟨p, hp, ht⟩ => List.any_eq_true.mpr ⟨p, hp, ?_⟩
      obtain ⟨hw, hd⟩ := hall p hp ht
      simp [nsub, ht, hw, hd]
    dsimp only [s₂]
    rw [if_pos hgo, rd_inc, if_pos ⟨rfl, rfl, rfl⟩, show Fld.slipCorrQueue.row.width = 32 by decide]
    rfl
  have hpool : s₃.pool = s.pool := (apply_ite State.pool ..).trans ((ite_self _).trans hk.pool)
  have hrecs : s₃.slipRecs = s.slipRecs.erase r := (apply_ite State.slipRecs ..).trans ((ite_self _).trans hk.slipRecs)
  have hfix : s₃.slipFixes = if fills = true then s.slipFixes ++ [r] else s.slipFixes := by
    refine (apply_ite State.slipFixes ..).trans ?_
    rw [hk.slipFixes]
  have hrd : s₃.rd .slipCorrQueue (millOf n) (n.val % 2) = s₂.rd .slipCorrQueue (millOf n) (n.val % 2) :=
    (apply_ite (fun u : State => u.rd .slipCorrQueue (millOf n) (n.val % 2)) ..).trans (ite_self _)
  have ht : t = (s₃, s.pool.map fun p => if r.touches p nsub = true then p.corrected r nsub else p) := by
    dsimp only [t]
    rw [hpool, slipApply_waiting _ _ _ fun p hp h => (hall p hp h).1]
  have hleft : left = s₃ := congrArg Prod.fst ht
  rw [hleft, congrArg Prod.snd ht] at ho
  clear_value left t s₃
  have hj (v : State) : Queued v (v.shedJudge n false) := Queued.shedJudge .refl
  have hq := hj { s₃ with pool := s.pool.map fun p => if r.touches p nsub = true then p.corrected r nsub else p }
  exact ⟨_, ho.symm, hq.slipRecs.trans hrecs, hq.slipFixes.trans hfix, hq.pool,
    fun h => (hq.rd .slipCorrQueue (by decide) _ _).trans (hrd.trans (hcount h))⟩

/-! FEC_PHASE_WINDOW. -/

theorem phasePeriod_range (cls code : Nat) : 0 < phasePeriod cls code ∧ phasePeriod cls code ≤ 23 := by
  unfold phasePeriod
  split
  · decide
  · split
    · decide
    · decide
  · decide

/-- The period of the FEC phase of a carrier. -/
def State.fecPeriod (s : State) (n : Nat) : Nat := phasePeriod (s.rxRate .live n).cls (s.rxRate .live n).code

/-- The tests of the FEC phase that a carrier holds. -/
def State.fecTests (s : State) (n : Nat) : List PhaseTest := ((Cells.find n s.rxLine).getD {}).tests

/-- The phase that the last window of tests gives. -/
def State.fecFound (s : State) (n : Nat) : Option Nat :=
  adoptPhase (s.fecPeriod n) (phaseCounts (s.rxRate .live n).cls (s.rxRate .live n).code (((s.fecTests n).getLast?.map (·.sf)).getD 0)
    ((s.fecTests n).drop ((s.fecTests n).length - phaseWindow)))

/-- The tests of a carrier judged and gone. -/
def State.fecCleared (s : State) (n : Nat) : State :=
  { s with rxLine := Cells.put n { (Cells.find n s.rxLine).getD {} with tests := [] } s.rxLine }

/-- The FEC phase adopted. -/
def State.fecAdopted (s : State) (n k : Nat) : State := (s.fecCleared n).wrs (millOf n) (n % 2) [(.decPhaseKnown, 1), (.decPhase, k)]

end

section

variable {s : State} {n : Fin 4}

theorem exec_fecPhaseWindow_judges (hr : s.on .decChainRunning (millOf n) (n.val % 2) = true) (hp : s.fecPeriod n ≠ 1)
    (hl : phaseWindow ≤ (s.fecTests n).length) :
    (s.fecFound n = none → exec (.fecPhaseWindow n) s = .next (s.fecCleared n)) ∧
      ∀ k, s.fecFound n = some k → exec (.fecPhaseWindow n) s =
        if s.on .farValid (millOf n) (n.val % 2) = true then
          let t := s.fecAdopted n (s.rd .farLiveSf (millOf n) (n.val % 2) % s.fecPeriod n)
          .next (if (k + s.fecPeriod n - 1) % s.fecPeriod n = s.rd .farLiveSf (millOf n) (n.val % 2) % s.fecPeriod n then t
            else (t.wr .decPhaseConflict (millOf n) (n.val % 2) 1).raise Reason.fecPhase (blkId (millOf n) Dom.frame (n.val % 2)) 0 0
              (some (s.rd .farLiveSf (millOf n) (n.val % 2))))
        else
          let t := s.fecAdopted n ((k + s.fecPeriod n - 1) % s.fecPeriod n)
          .next (if t.rd .frmState (millOf n) (n.val % 2) = 0 then
            t.wrs (millOf n) (n.val % 2) [(.frmState, 1), (.huntPos, 0), (.huntSince, t.sf)] else t) := by
  have hgo : ¬(s.on .decChainRunning (millOf n) (n.val % 2) = false ∨ s.fecPeriod n = 1 ∨ (s.fecTests n).length < phaseWindow) := by
    rintro (h | h | h)
    · exact absurd (h.symm.trans hr) (by decide)
    · exact hp h
    · exact absurd hl (Nat.not_le.mpr h)
  obtain ⟨o, ho⟩ : ∃ o, exec (.fecPhaseWindow n) s = o := ⟨_, rfl⟩
  rw [ho]
  change execFecPhaseWindow n s = o at ho
  unfold execFecPhaseWindow at ho
  extract_lets d c r period x last u live v at ho
  replace ho := (if_neg hgo).symm.trans ho
  split at ho
  · next h =>
    have hf : s.fecFound n = none := h
    exact ⟨fun _ => ho.symm, fun k hk => absurd (hf.symm.trans hk) (by simp)⟩
  · next q h =>
    have hf : s.fecFound n = some q := h
    refine ⟨fun hk => absurd (hf.symm.trans hk) (by simp), fun k hk => ?_⟩
    obtain rfl : q = k := Option.some_inj.mp (hf.symm.trans hk)
    exact ho.symm

/-- The adopted phase. -/
theorem State.fecAdopted_reads (s : State) (n : Nat) {k : Nat} (hk : k < 2 ^ 5) :
    (s.fecAdopted n k).on .decPhaseKnown (millOf n) (n % 2) = true ∧ (s.fecAdopted n k).rd .decPhase (millOf n) (n % 2) = k ∧
      SameBut (regsAt (millOf n) (n % 2) [.decPhaseKnown, .decPhase]) (s.fecCleared n) (s.fecAdopted n k) :=
  ⟨(on_wrs ..).trans rfl, (rd_wrs ..).trans (Nat.mod_eq_of_lt hk), .wrs (.refl ..) _ _ _ (by simp [mem_regsAt])⟩

/-- Without a far value the hunt for a frame may begin with the phase adopted. -/
theorem State.fecAdopted_hunts (s : State) (n : Nat) {k : Nat} (hk : k < 2 ^ 5) {t u : State} (hu : u = s.fecAdopted n k)
    (ht : t = if u.rd .frmState (millOf n) (n % 2) = 0 then u.wrs (millOf n) (n % 2) [(.frmState, 1), (.huntPos, 0), (.huntSince, u.sf)] else u) :
    t.on .decPhaseKnown (millOf n) (n % 2) = true ∧ t.rd .decPhase (millOf n) (n % 2) = k ∧
      SameBut (regsAt (millOf n) (n % 2) [.decPhaseKnown, .decPhase, .frmState, .huntPos, .huntSince]) (s.fecCleared n) t := by
  have hw : SameBut (regsAt (millOf n) (n % 2) [.frmState, .huntPos, .huntSince]) u t := by
    rw [ht]
    split
    · exact .wrs (.refl ..) _ _ _ (by simp [mem_regsAt])
    · exact .refl ..
  obtain ⟨hknown, hphase, hall⟩ := s.fecAdopted_reads n hk
  rw [← hu] at hknown hphase hall
  exact ⟨(hw.on_field (by decide) ..).trans hknown, (hw.rd_field (by decide) ..).trans hphase,
    (hall.mono (regsAt_mono (by decide))).trans (hw.mono (regsAt_mono (by decide)))⟩

/-- A hunted phase that differs from the far value raises FEC_PHASE (R253). -/
theorem State.fecAdopted_conflicts (s : State) (n : Nat) {k live : Nat} (hk : k < 2 ^ 5) {t : State}
    (ht : t = ((s.fecAdopted n k).wr .decPhaseConflict (millOf n) (n % 2) 1).raise Reason.fecPhase (blkId (millOf n) Dom.frame (n % 2)) 0 0 (some live)) :
    t.on .decPhaseKnown (millOf n) (n % 2) = true ∧ t.rd .decPhase (millOf n) (n % 2) = k ∧ t.on .decPhaseConflict (millOf n) (n % 2) = true ∧
      t.events = (s.raise Reason.fecPhase (blkId (millOf n) Dom.frame (n % 2)) 0 0 (some live)).events := by
  have hr (f : Fld) : t.rd f (millOf n) (n % 2) = ((s.fecAdopted n k).wr .decPhaseConflict (millOf n) (n % 2) 1).rd f (millOf n) (n % 2) :=
    ht ▸ rd_raise ..
  obtain ⟨hknown, hphase, hall⟩ := s.fecAdopted_reads n hk
  refine ⟨(congrArg (· == 1) ((hr _).trans (rd_wr_ne _ _ _ _ _ _ (by simp)))).trans hknown,
    (hr _).trans ((rd_wr_ne _ _ _ _ _ _ (by simp)).trans hphase),
    (congrArg (· == 1) (hr _)).trans (on_wr_one _ (by decide) _ _), ?_⟩
  have he : ((s.fecAdopted n k).wr .decPhaseConflict (millOf n) (n % 2) 1).events = s.events :=
    (wr_events ..).trans (id (congrArg State.events hall.1 :))
  have hy : ((s.fecAdopted n k).wr .decPhaseConflict (millOf n) (n % 2) 1).tally = s.tally := id (congrArg State.tally hall.1 :)
  rw [ht, raise, raise, raiseAs_def, raiseAs_def, he, hy]

end

/-- Settles O18: each operation by its own branches; a record's positions are all corrected where none has left the queue. -/
theorem tokensKnownAnswersSlipRecordsAndPhaseHunt : Obligations.TokensKnownAnswersSlipRecordsAndPhaseHunt := by
  refine ⟨fun m s => ?_, fun m answer s hen hper hserved => ⟨fun hlate => ?_, fun hsoon hshed => ?_, fun e hsoon hshed he => ⟨fun ha => ?_, fun ha => ?_⟩⟩,
    fun n s r hr hall => slipRecord_corrects hr rfl hall, fun n s => ⟨fun h => if_pos h, fun hr hp hl => ?_⟩⟩
  · exact otTokenReload_reloads m s
  · have hx := exec_katTest_due (answer := answer) ⟨hen, hper, hserved⟩
    have hd : SameBut (regsAt (millAt m) 0 [.katServed]) s (s.katDone (millAt m)) := .wr (.refl ..) _ _ _ _ (by simp [mem_regsAt])
    rw [if_pos hlate] at hx
    refine ⟨_, hx, ?_, .inc (hd.mono (regsAt_mono (by decide))) _ _ _ _ (by simp [mem_regsAt])⟩
    rw [rd_inc, if_pos ⟨rfl, rfl, rfl⟩, hd.rd_field (by decide), show Fld.selfchkKatSkipped.row.width = 16 by decide]
    rfl
  · exact (exec_katTest_due ⟨hen, hper, hserved⟩).trans ((if_neg (Nat.not_le.mpr hsoon)).trans (if_pos hshed))
  · have hx := exec_katTest_due (answer := answer) ⟨hen, hper, hserved⟩
    rw [if_neg (Nat.not_le.mpr hsoon), if_neg (by simp [hshed]), he] at hx
    exact ⟨_, hx.trans (congrArg _ (if_pos ha)), rd_katNext e,
      .wr (.wr (.refl ..) _ _ _ _ (by simp [mem_regsAt])) _ _ _ _ (by simp [mem_regsAt])⟩
  · have hx := exec_katTest_due (answer := answer) ⟨hen, hper, hserved⟩
    rw [if_neg (Nat.not_le.mpr hsoon), if_neg (by simp [hshed]), he] at hx
    exact ⟨_, hx.trans (congrArg _ (if_neg ha)), katTest_fails e rfl⟩
  · obtain ⟨hnone, hsome⟩ := exec_fecPhaseWindow_judges hr hp hl
    have hlt (v : Nat) : v % s.fecPeriod n < 2 ^ 5 := by
      obtain ⟨h₀, h₂₃⟩ := phasePeriod_range (s.rxRate .live n).cls (s.rxRate .live n).code
      exact (Nat.mod_lt v h₀).trans_le (h₂₃.trans (by decide))
    refine ⟨hnone, fun k hk => ⟨fun hf => ?_, fun hf => ?_⟩⟩
    · exact ⟨_, (hsome k hk).trans (if_neg (by simp [hf])), s.fecAdopted_hunts n (hlt _) rfl rfl⟩
    · have hx := (hsome k hk).trans (if_pos hf)
      by_cases hsame : (k + s.fecPeriod n - 1) % s.fecPeriod n = s.rd .farLiveSf (millOf n) (n.val % 2) % s.fecPeriod n
      · obtain ⟨hknown, hphase, hall⟩ := s.fecAdopted_reads n (hlt (s.rd .farLiveSf (millOf n) (n.val % 2)))
        exact ⟨_, hx.trans (congrArg _ (if_pos hsame)), hknown, hphase, fun _ => id (congrArg State.events hall.1 :), fun h => absurd hsame h⟩
      · obtain ⟨hknown, hphase, hconf, hev⟩ := s.fecAdopted_conflicts n (hlt (s.rd .farLiveSf (millOf n) (n.val % 2)))
          (live := s.rd .farLiveSf (millOf n) (n.val % 2)) rfl
        exact ⟨_, hx.trans (congrArg _ (if_neg hsame)), hknown, hphase, fun h => absurd h hsame, fun _ => ⟨hconf, hev⟩⟩

end Sys2Proof.Machine

/-! ## Client adaptation, resizes and protection bytes -/

namespace Sys2Proof.Machine


open State

/-! ### Blocks of an Ethernet client (R325, R326, R363) -/

/-- The adaptation buffer of a context as it stands when none of its blocks has left it. -/
def State.impShown (s : State) (d : Die) (o : Nat) : State :=
  s.wrs d o [(.impLevel, s.rd .impLevel d o), (.impIdles, s.rd .impIdles d o)]

section

variable {m : Fin 2} {o : Fin 512} {s : State}

theorem State.impShown_sameBut (s : State) (d : Die) (o : Nat) : SameBut (regsAt d o [.impLevel, .impIdles]) s (s.impShown d o) :=
  .wrs (.refl ..) _ _ _ (by simp [mem_regsAt])

theorem State.rd_impShown_level (s : State) (d : Die) (o : Nat) (h : s.rd .impLevel d o < 2 ^ 13) :
    (s.impShown d o).rd .impLevel d o = s.rd .impLevel d o := (rd_wrs ..).trans (Nat.mod_eq_of_lt h)

/-- A block of a client in service, while no frame is dropped and no block has left the buffer. -/
theorem exec_ethBlockReceived_queueing (hrun : s.otnRuns (millAt m) = true) (hen : s.on .oduEnable (millAt m) o = true)
    (hty : s.rd .oduType (millAt m) o = 6) (hport : s.portFails (millAt m) (s.rd .oduClientPort (millAt m) o) = false)
    (hdrop : s.on .impDrop (millAt m) o = false) (hidles : s.rd .impIdles (millAt m) o ≤ s.rd .impLevel (millAt m) o) (kind : EthBlock) :
    exec (.ethBlockReceived m o kind 0) s =
      if s.rd .impLevel (millAt m) o < 4096 then
        .next ((s.impShown (millAt m) o).wrs (millAt m) o
          [(.impLevel, s.rd .impLevel (millAt m) o + 1), (.impIdles, s.rd .impIdles (millAt m) o + b2n (kind == .idle))])
      else if kind = .idle then .next (s.impShown (millAt m) o)
      else if 0 < s.rd .impIdles (millAt m) o then
        .next ((s.impShown (millAt m) o).wr .impIdles (millAt m) o (s.rd .impIdles (millAt m) o - 1))
      else .next (((s.impShown (millAt m) o).inc .oduImpOverflow (millAt m) o).wr .impDrop (millAt m) o (b2n (kind != .last))) := by
  have hu : (s.impShown (millAt m) o).on .impDrop (millAt m) o = false := (on_wrs ..).trans hdrop
  change execEthBlockReceived m o kind 0 s = _
  unfold execEthBlockReceived
  extract_lets d lv s₁ left idles s₂
  have hi : idles = s.rd .impIdles (millAt m) o := Nat.min_eq_right hidles
  have h₂ : s₂ = s.impShown (millAt m) o := by dsimp only [s₂, impShown]; rw [hi]; rfl
  rw [if_neg (by simp [d, hrun, hen, hty, hport]), h₂, hi, if_neg (by simp [d, hu])]
  rfl

end

/-! ### Resizes (R347) -/

/-- Writes of one value along a list to one field move registers only. -/
theorem State.foldl_wr_regs {α : Type} {f : Fld} {d : Die} {x : α → Nat} {v : Nat} (s : State) (l : List α) :
    l.foldl (fun s a => s.wr f d (x a) v) s = { s with regs := (l.foldl (fun s a => s.wr f d (x a) v) s).regs } := by
  induction l generalizing s with
  | nil => rfl
  | cons a l ih => rw [List.foldl_cons, ih]; rfl

/-- Each place written reads as written. -/
theorem State.rd_foldl_wr {f : Fld} {d : Die} {v k : Nat} {l : List Nat} (h : k ∈ l) (s : State) :
    (l.foldl (fun s i => s.wr f d i v) s).rd f d k = v % 2 ^ f.row.width := by
  have hwr (u : State) (hu : u.rd f d k = v % 2 ^ f.row.width) (i : Nat) : (u.wr f d i v).rd f d k = v % 2 ^ f.row.width := by
    rw [rd_wr]
    split
    · rfl
    · exact hu
  induction l generalizing s with
  | nil => exact absurd h List.not_mem_nil
  | cons i l ih =>
    rcases List.mem_cons.mp h with rfl | h
    · exact List.foldlRecOn l _ (motive := fun u => u.rd f d k = v % 2 ^ f.row.width) (rd_wr_same ..) fun u hu i _ => hwr u hu i
    · exact ih h _

/-- What a slot of the FlexO map in use holds of the context that uses it. -/
def flexTag (d : Die) (o : Nat) : Nat := o + 1024 * b2n (d == .m1)

/-- The FlexO slots in use of a context are free. -/
def State.flexFreed (s : State) (d : Die) (o : Nat) : State :=
  ((s.listed .live .fmapUse).filter fun e => e.1 == d && e.2.2 == flexTag d o).foldl (fun s e => s.wr .fmapUse d e.2.1 0x3FF) s

/-- A context uses the given FlexO slots and no others. -/
def State.flexUsed (s : State) (d : Die) (o : Nat) (l : List Nat) : State :=
  l.foldl (fun s i => s.wr .fmapUse d i (flexTag d o)) (s.flexFreed d o)

theorem State.flexUsed_regs (s : State) (d : Die) (o : Nat) (l : List Nat) :
    s.flexUsed d o l = { s with regs := (s.flexUsed d o l).regs } := by
  rw [flexUsed, foldl_wr_regs, flexFreed, foldl_wr_regs]

theorem State.rd_flexUsed {o k : Nat} {l : List Nat} (ho : o < 512) (hk : k ∈ l) (s : State) (d : Die) :
    (s.flexUsed d o l).rd .fmapUse d k = o + 1024 * (if d = .m1 then 1 else 0) := by
  have hb : b2n (d == .m1) = if d = .m1 then 1 else 0 := by simp [b2n]
  have hlt : o + 1024 * (if d = .m1 then 1 else 0) < 2 ^ 11 := by split <;> omega
  exact (rd_foldl_wr hk _).trans (by rw [flexTag, hb]; exact Nat.mod_eq_of_lt hlt)

section

variable {m : Fin 2} {o : Fin 512} {s : State}

theorem exec_lcrHandshake_switched (hrun : s.otnRuns (millAt m) = true) (hen : s.on .oduEnable (millAt m) o = true)
    (hty : s.rd .oduType (millAt m) o = 7) (l : List (Fin 960)) :
    exec (.lcrHandshake m o l) s =
      if (s.flexOf (millAt m) o).all (l.map Fin.val).contains && (l.map Fin.val).all (s.flexOf (millAt m) o).contains then
        .next (s.flexUsed (millAt m) o (l.map Fin.val))
      else .next (s.raise Reason.lcrNack (blkId (millAt m) Dom.otn) o) :=
  if_neg (by simp [hrun, hen, hty])

theorem all_contains_iff {l r : List Nat} : (l.all r.contains && r.all l.contains) = true ↔ ∀ k, k ∈ l ↔ k ∈ r := by
  simp only [Bool.and_eq_true, List.all_eq_true, List.contains_iff_mem]
  exact ⟨fun h k => ⟨h.1 k, h.2 k⟩, fun h => ⟨fun k => (h k).mp, fun k => (h k).mpr⟩⟩

end

/-- Settles O23: a block by the level of its buffer, a resize by the slot set that it names, APS_TX by its register's write. -/
theorem adaptationResizeAndProtectionBytes : Obligations.AdaptationResizeAndProtectionBytes := by
  intro m o s
  dsimp only
  refine ⟨fun hrun hen hty hport hdrop hidles => ?_, fun hrun hen hty l => ⟨fun h => ?_, fun h => ?_⟩, fun k w fs h => ?_⟩
  · have hx := exec_ethBlockReceived_queueing hrun hen hty hport hdrop hidles
    have hu := s.impShown_sameBut (millAt m) o
    refine ⟨fun kind hl => ?_, fun hl => ?_, fun hl hi => ?_⟩
    · refine ⟨_, (hx kind).trans (if_pos hl), ?_, hu.wrs _ _ _ (by simp [mem_regsAt])⟩
      exact (rd_wrs ..).trans (Nat.mod_eq_of_lt (show _ < 2 ^ 13 by omega))
    · have hfull : ¬ s.rd .impLevel (millAt m) o < 4096 := by omega
      exact ⟨_, (hx .idle).trans ((if_neg hfull).trans (if_pos rfl)), (s.rd_impShown_level (millAt m) o (by omega)).trans hl, hu⟩
    · have hfull : ¬ s.rd .impLevel (millAt m) o < 4096 := by omega
      refine ⟨_, (hx .data).trans ((if_neg hfull).trans ((if_neg (by decide)).trans (if_neg (by omega)))), ?_,
        on_wr_one _ (by decide) _ _, ?_, ?_⟩
      · rw [rd_wr_ne _ _ _ _ _ _ (by simp), rd_inc, if_neg (by simp), s.rd_impShown_level (millAt m) o (by omega), hl]
      · rw [rd_wr_ne _ _ _ _ _ _ (by simp), rd_inc, if_pos ⟨rfl, rfl, rfl⟩, hu.rd_field (by decide),
          show Fld.oduImpOverflow.row.width = 16 by decide]
        rfl
      · exact .wr (.inc (hu.mono (regsAt_mono (by decide))) _ _ _ _ (by simp [mem_regsAt])) _ _ _ _ (by simp [mem_regsAt])
  · exact ⟨_, (exec_lcrHandshake_switched hrun hen hty l).trans (if_pos (all_contains_iff.mpr h)),
      fun k hk => rd_flexUsed o.isLt (List.mem_map_of_mem hk) s _, flexUsed_regs ..⟩
  · exact (exec_lcrHandshake_switched hrun hen hty l).trans (if_neg fun e => h (all_contains_iff.mp e))
  · have hx : exec (.apsTx m o k) s =
        .next (s.wrs (millAt m) (o * 8 + k) [(.apsTxVal, s.rd .oduApsTxVal (millAt m) o), (.apsTxOn, 1)]) :=
      congrArg Host.Outcome.next (writeReg_word h)
    exact ⟨_, hx, rd_wrs .., (on_wrs ..).trans rfl, .wrs (.refl ..) _ _ _ (by simp [mem_regsAt])⟩

end Sys2Proof.Machine

/-! ## OTN frames received and sent -/

namespace Sys2Proof.Machine


open State

/-! ### What the work on an OTN frame leaves

`OtnKept`: the tally, the overheads last received, and the counts and defects of slices and contexts that a frame moves by one write of
its own stand through the rest of its work. -/

/-- Fields that one step of a frame's work writes and its other steps leave. -/
def otnFields : List Fld :=
  [.sliceMfas, .sliceBipErrors, .smBei, .oduBipErrors, .oduStatLast, .oduStatRun, .oduDAis, .oduDLck, .oduDOci, .oduSig, .oduTxRepActive]

/-- The tally and the overheads last received. -/
def State.received (s : State) : Nat × List (Nat × List Byte) := (s.tally, s.ohRecv)

abbrev OtnKept : State → State → Prop := Keeps (· ∈ otnFields) State.received

section

variable {K : Fld → Prop} {s₀ s t : State} {d : Die} {o i n : Nat} {l : OtnLayer}

theorem Keeps.receivedTally (h : Keeps K State.received s t) : t.tally = s.tally := id (congrArg Prod.fst h.part :)

theorem Keeps.ohRecv (h : Keeps K State.received s t) : t.ohRecv = s.ohRecv := id (congrArg Prod.snd h.part :)

/-! Writes to fields outside a list that stays. -/

theorem Keeps.wrOther {α : Type} {g : State → α} {m : List Fld} {f : Fld} {v : Nat} (h : Keeps (· ∈ m) g s₀ s)
    (hf : m.contains f = false) : Keeps (· ∈ m) g s₀ (s.wr f d i v) := h.wr (by simpa using hf)

theorem Keeps.incOther {α : Type} {g : State → α} {m : List Fld} {f : Fld} {k : Nat} (h : Keeps (· ∈ m) g s₀ s)
    (hf : m.contains f = false) : Keeps (· ∈ m) g s₀ (s.inc f d i k) := h.wrOther hf

theorem Keeps.wrsOther {α : Type} {g : State → α} {m : List Fld} {w : List (Fld × Nat)} (h : Keeps (· ∈ m) g s₀ s)
    (hw : (w.map Prod.fst).all (fun f => !m.contains f) = true) : Keeps (· ∈ m) g s₀ (s.wrs d i w) :=
  h.wrs fun f hf hm => by simpa [hm] using List.all_eq_true.mp hw f hf

/-! Entries of rings (R480, R503, R504). -/

theorem OtnKept.writeEntry {id : Nat} {r : Ring} {irqNow : Bool} {bytes : Nat → List Byte} (h : OtnKept s₀ s) :
    OtnKept s₀ (s.writeEntry id r irqNow bytes) := by
  have hmsix (u : State) (hu : OtnKept s₀ u) (fn vec : Nat) : OtnKept s₀ (u.msix fn vec) :=
    .ite (.ite hu (hu.frame rfl rfl rfl)) (hu.frame rfl rfl rfl)
  have hhost (a : Nat) (b : List Byte) : OtnKept s₀ (s.toHost a b) := by
    rw [toHost_eq]
    exact h.frame rfl rfl rfl
  exact .ite ((hmsix _ (hhost _ _) _ _).frame rfl rfl rfl) ((hhost _ _).frame rfl rfl rfl)

/-! Pairs, server signal fail and failed slices (R329 to R331, R382, R385). -/

theorem OtnKept.coordChange {p : Nat} (h : OtnKept s₀ s) : OtnKept s₀ (s.coordChange d p) := (h.wrOther rfl).wrOther rfl

theorem OtnKept.pairSwitch {p leg : Nat} (h : OtnKept s₀ s) : OtnKept s₀ (s.pairSwitch d p leg) := by
  unfold State.pairSwitch
  extract_lets f hits s₁
  have hf : OtnKept s₀ f.2 := h.frame rfl rfl rfl
  have hc : OtnKept s₀ ((f.2.wr .pairSelLeg d p leg).inc .pairSwitches d p) := (hf.wrOther rfl).incOther rfl
  have h₁ : OtnKept s₀ s₁ := OtnKept.coordChange (hc.frame rfl rfl rfl)
  exact .ite h (.ite (h₁.wrsOther rfl) h₁)

theorem OtnKept.pairSelect {p : Nat} (h : OtnKept s₀ s) : OtnKept s₀ (s.pairSelect d p) := by
  unfold State.pairSelect
  dsimp only
  split
  · exact OtnKept.pairSwitch h
  · exact OtnKept.pairSwitch h
  · exact .ite (OtnKept.pairSwitch h) h

theorem OtnKept.ctxShow (h : OtnKept s₀ s) : OtnKept s₀ (s.ctxShow d o) :=
  .ite h (.foldl (fun _ _ hu => OtnKept.pairSelect hu) (.wrsOther (.ite (.foldl (fun _ _ hu => hu.wrOther rfl) h) h) rfl))

theorem OtnKept.ctxUpdate (h : OtnKept s₀ s) : OtnKept s₀ (s.ctxUpdate n d o) := by
  induction n generalizing s d o with
  | zero => exact OtnKept.ctxShow h
  | succ n ih => exact .foldl (fun _ _ hu => ih hu) (OtnKept.ctxShow h)

theorem OtnKept.pmWatch (h : OtnKept s₀ s) : OtnKept s₀ s.pmWatch := h.frame rfl rfl rfl

theorem OtnKept.sliceShow {ns : List Nat} (h : OtnKept s₀ s) : OtnKept s₀ (s.sliceShow ns) := by
  unfold State.sliceShow
  extract_lets s₁
  have h₁ : OtnKept s₀ s₁ := .foldl (fun _ _ hu => .foldl (fun _ _ hv => hv.wrOther rfl) hu) h
  have h₂ : OtnKept s₀ ((s₁.ctxsOn ns).foldl (fun s c => s.ctxUpdate 3 c.1 c.2) s₁) := .foldl (fun _ _ hu => OtnKept.ctxUpdate hu) h₁
  exact OtnKept.pmWatch h₂

/-! Trail traces, payload structure, protection requests and extract rings (R329, R335, R345, R354). -/

theorem OtnKept.ttiFrame {acc : Fld} {mfas : Nat} {b : Byte} (h : OtnKept s₀ s) (ha : otnFields.contains acc = false) :
    OtnKept s₀ (s.ttiFrame acc d l i mfas b) :=
  .ite (h.frame rfl rfl rfl)
    (.ite (.wrOther (.foldl (fun _ _ hu => hu.wrOther ha) (h.frame rfl rfl rfl)) rfl) (h.frame rfl rfl rfl))

theorem OtnKept.psiFrame {p : Psi} (h : OtnKept s₀ s) : OtnKept s₀ (s.psiFrame d l p).1 := h.frame rfl rfl rfl

theorem OtnKept.ctxPsi {x : Option Psi} (h : OtnKept s₀ s) : OtnKept s₀ (s.ctxPsi d o l x) := by
  unfold State.ctxPsi
  split
  · exact h
  · next p =>
    have h₁ : OtnKept s₀ ((s.psiFrame d l p).1.wrs d o [(.oduDPlm, b2n (!p.ptOk)), (.oduDCsf, b2n p.csf)]) :=
      (OtnKept.psiFrame h).wrsOther rfl
    exact .ite (OtnKept.psiFrame h) (.ite (h₁.wrOther rfl) h₁)

theorem OtnKept.groupPsi {g : Nat} {psi : Option Psi} (h : OtnKept s₀ s) : OtnKept s₀ (s.groupPsi g d l psi) := by
  have h₁ : OtnKept s₀ (s.wr .lgMsimHold .m0 g (s.rd .lgMsimHold .m0 g - 1)) := h.wrOther rfl
  unfold State.groupPsi
  dsimp only
  split
  · exact h₁
  · exact .ite (OtnKept.psiFrame h₁) (.ite (OtnKept.sliceShow ((OtnKept.psiFrame h₁).wrOther rfl)) (OtnKept.psiFrame h₁))

theorem OtnKept.apsFrame {mfas : Nat} {oh : List Byte} {far : Nat} (h : OtnKept s₀ s) : OtnKept s₀ (s.apsFrame d o mfas oh far) :=
  .ite h (.ite (.foldl (fun _ _ hu => OtnKept.pairSwitch hu) (((h.wrsOther rfl).wrOther rfl).wrOther rfl).raise) (h.wrsOther rfl))

theorem OtnKept.extract {en div drop : Fld} {kind mfas : Nat} {oh : List Byte} {fail : Bool} {far : Nat} (h : OtnKept s₀ s)
    (hd : otnFields.contains drop = false) : OtnKept s₀ (s.extract d l en div drop i kind mfas oh fail far) :=
  .ite (h.wrOther rfl) <| by
    split
    · exact h
    · exact .ite (h.wrOther rfl)
        (.ite (OtnKept.writeEntry ((h.wrOther rfl).wrOther rfl)) (((h.wrOther rfl).incOther hd).wrOther rfl))

/-! The PM counts of a frame, its TCM levels, its GMP multiframe and its crosscut channel (R327, R329, R382, R598). -/

theorem Keeps.pmCount {source die layer stamp : Nat} {f : PmSec → PmSec} (h : Keeps K State.received s₀ s) :
    Keeps K State.received s₀ (s.pmCount source die layer stamp f) := by
  unfold State.pmCount
  split
  · exact h
  · exact h.frame rfl rfl rfl

theorem OtnKept.tcmFrame {k : Nat} {oh : List Byte} {bip far : Nat} (h : OtnKept s₀ s) : OtnKept s₀ (s.tcmFrame d o k oh bip far) :=
  .ite (h.wrsOther rfl) (h.wrsOther rfl).pmCount

theorem OtnKept.gmpReceived {x : Option (Nat × Nat)} (h : OtnKept s₀ s) : OtnKept s₀ (s.gmpReceived d o x) := by
  unfold State.gmpReceived
  split
  · exact h
  · exact h.wrsOther rfl

theorem OtnKept.bridge {role : Nat} {oh : List Byte} (h : OtnKept s₀ s) : OtnKept s₀ (s.bridge d o role oh) :=
  .ite h (.foldl (fun _ _ hu => hu.frame rfl rfl rfl) h)

theorem OtnKept.rxOmfi {g : Nat} (h : OtnKept s₀ s) : OtnKept s₀ (s.rxOmfi d g) :=
  .foldl (fun _ _ hu => .wrOther (.foldl (fun _ _ hv => hv.wrsOther rfl) hu) rfl) h

/-! Overhead sent (R332, R334, R349 to R353). -/

theorem OtnKept.ttiOut {f : Fld} {mfas : Nat} (h : OtnKept s₀ s) : OtnKept s₀ (s.ttiOut f d l i mfas).1 := .ite (h.frame rfl rfl rfl) h

theorem OtnKept.badEntry {id : Nat} {r : Ring} (h : OtnKept s₀ s) : OtnKept s₀ (s.badEntry id r) := by
  unfold State.badEntry
  split
  · exact h
  · exact h.frame rfl rfl rfl

theorem OtnKept.insert {en rep : Fld} {kind : Nat} {gen entry : List Byte} (h : OtnKept s₀ s) (hr : otnFields.contains rep = false) :
    OtnKept s₀ (s.insert d l en rep i kind gen entry).1 := by
  unfold State.insert
  extract_lets k ctx again
  have hagain (u : State) (hu : OtnKept s₀ u) : OtnKept s₀ (again u).1 := .fst_ite hu (.ite hu (hu.incOther hr))
  refine .fst_ite h ?_
  split
  · exact hagain s h
  · exact .fst_ite (hagain s h) (.fst_ite (hagain _ (OtnKept.badEntry (h.frame rfl rfl rfl))) (.wrsOther (h.frame rfl rfl rfl) rfl))

theorem OtnKept.oduGen {mfas : Nat} {gen : List Byte} (h : OtnKept s₀ s) : OtnKept s₀ (s.oduGen d o l mfas gen).1 := by
  have hsend (x : State × List Byte) (k : Nat) (hx : OtnKept s₀ x.1) : OtnKept s₀ (x.1.tcmSend d o x k).1 :=
    .fst_ite hx (hx.wrsOther rfl)
  have hfold (ks : List Nat) (x : State × List Byte) (hx : OtnKept s₀ x.1) :
      OtnKept s₀ (ks.foldl (fun x k => x.1.tcmSend d o x k) x).1 :=
    List.foldlRecOn ks _ (motive := fun x => OtnKept s₀ x.1) hx fun x hx k _ => hsend x k hx
  exact hfold _ _ (OtnKept.ttiOut ((h.wrsOther rfl).wrOther rfl))

end

/-! ### What a context's line slots carry rests on no GMP value (R327, R338) -/

theorem Cells.filter_ins {α : Type} {p : Nat × α → Bool} {k : Nat} {v : α} (hp : p (k, v) = false) (l : List (Nat × α)) :
    (Cells.ins k v l).filter p = l.filter p := by
  induction l with
  | nil => simp [Cells.ins, hp]
  | cons q l ih =>
    simp only [Cells.ins]
    split
    · rw [List.filter_cons, hp]; rfl
    · rw [List.filter_cons, ih, List.filter_cons]

theorem Cells.filter_del {α : Type} {p : Nat × α → Bool} {k : Nat} (hp : ∀ v, p (k, v) = false) (l : List (Nat × α)) :
    (Cells.del k l).filter p = l.filter p := by
  rw [Cells.del, List.filter_filter]
  refine List.filter_congr fun e _ => ?_
  by_cases he : e.1 = k
  · have hpe : p e = false := by rw [← hp e.2, ← he]
    simp [hpe]
  · simp [he]

theorem Cells.filter_set {α : Type} [DecidableEq α] {p : Nat × α → Bool} {k : Nat} (hp : ∀ v, p (k, v) = false) (d : Nat → α) (v : α)
    (l : List (Nat × α)) : (Cells.set d k v l).filter p = l.filter p := by
  unfold Cells.set
  split
  · exact Cells.filter_del hp l
  · exact (Cells.filter_ins (hp v) _).trans (Cells.filter_del hp l)

theorem State.listed_wr {f g : Fld} (h : f ≠ g) (s : State) (d : Die) (i v : Nat) : (s.wr f d i v).listed .live g = s.listed .live g := by
  have hkeys : (s.wr f d i v).regs.filter (fun e => keyFld e.1 == g.ctorIdx) = s.regs.filter fun e => keyFld e.1 == g.ctorIdx :=
    Cells.filter_set (fun w => by rw [keyFld_key]; exact beq_eq_false_iff_ne.mpr fun e => h (Fld.ctorIdx_inj e)) ..
  have hrd (e : Die) (j : Nat) : (s.wr f d i v).rd g e j = s.rd g e j := rd_wr_ne _ _ _ _ _ _ fun e => h e.1
  simp only [keyFld] at hkeys
  simp only [listed, State.at, hkeys, hrd]

theorem State.listed_wrs {g : Fld} (s : State) (d : Die) (i : Nat) {l : List (Fld × Nat)} (h : g ∉ l.map Prod.fst) :
    (s.wrs d i l).listed .live g = s.listed .live g := by
  induction l generalizing s with
  | nil => rfl
  | cons e l ih =>
    obtain ⟨he, hl⟩ := not_or.mp fun hm => h (List.mem_cons.mpr hm)
    exact (ih _ hl).trans (listed_wr (Ne.symm he) ..)

/-- From `s` to `t` nothing moves but GMP values to be sent: every other field reads as before and is listed as before. -/
def SameLine (s t : State) : Prop :=
  t = { s with regs := t.regs } ∧
    ∀ f, f ≠ .gmpTxCm → f ≠ .gmpTxCnd → (∀ d i, t.rd f d i = s.rd f d i) ∧ t.listed .live f = s.listed .live f

theorem State.gmpSent_sameLine (s : State) (d : Die) (o : Nat) (x : Option Nat) : SameLine s (s.gmpSent d o x) := by
  cases x with
  | none => exact ⟨rfl, fun _ _ _ => ⟨fun _ _ => rfl, rfl⟩⟩
  | some bytes =>
    refine ⟨rfl, fun f h₁ h₂ => ⟨fun e j => ?_, listed_wrs s d o (by simp [h₁, h₂])⟩⟩
    exact (rd_wr_ne _ _ _ _ _ _ fun h => h₂ h.1.symm).trans (rd_wr_ne _ _ _ _ _ _ fun h => h₁ h.1.symm)

section

variable {s t : State} {d : Die} {o n : Nat}

theorem SameLine.rd (h : SameLine s t) (f : Fld) (h₁ : f ≠ .gmpTxCm) (h₂ : f ≠ .gmpTxCnd) (d : Die) (i : Nat) :
    t.rd f d i = s.rd f d i := (h.2 f h₁ h₂).1 d i

theorem SameLine.listed (h : SameLine s t) (f : Fld) (h₁ : f ≠ .gmpTxCm) (h₂ : f ≠ .gmpTxCnd) :
    t.listed .live f = s.listed .live f := (h.2 f h₁ h₂).2

theorem SameLine.tally (h : SameLine s t) : t.tally = s.tally := id (congrArg State.tally h.1 :)

theorem SameLine.cipherOut (h : SameLine s t) : t.cipherOut = s.cipherOut := id (congrArg State.cipherOut h.1 :)

theorem SameLine.ohRecv (h : SameLine s t) : t.ohRecv = s.ohRecv := id (congrArg State.ohRecv h.1 :)

theorem SameLine.on (h : SameLine s t) (f : Fld) (h₁ : f ≠ .gmpTxCm) (h₂ : f ≠ .gmpTxCnd) (d : Die) (i : Nat) :
    t.on f d i = s.on f d i := congrArg (· == 1) (h.rd f h₁ h₂ d i)

theorem SameLine.at (h : SameLine s t) (f : Fld) (h₁ : f ≠ .gmpTxCm) (h₂ : f ≠ .gmpTxCnd) (d : Die) (i : Nat) :
    t.at .live f d i = s.at .live f d i := h.rd f h₁ h₂ d i

theorem SameLine.hasCarrier (h : SameLine s t) : t.hasCarrier n = s.hasCarrier n := by
  have hpart : t.part = s.part := h.rd .chipConfig (by simp) (by simp) ..
  have hhas (e : Die) : t.has e = s.has e := by cases e <;> simp only [State.has, hpart]
  rw [State.hasCarrier, hhas, State.hasCarrier]

theorem SameLine.portFails (h : SameLine s t) : t.portFails d n = s.portFails d n := by
  simp [State.portFails, State.portWidth, h.rd, h.on]

theorem SameLine.parentOf (h : SameLine s t) : t.parentOf .live d o = s.parentOf .live d o := by
  simp [State.parentOf, h.at]

theorem SameLine.carriersOfCtx (h : SameLine s t) : t.carriersOfCtx .live n d o = s.carriersOfCtx .live n d o := by
  induction n generalizing d o with
  | zero => rfl
  | succ n ih => simp only [State.carriersOfCtx, h.parentOf, ih]

theorem SameLine.txSlots (h : SameLine s t) : t.txSlots = s.txSlots := by
  simp [State.txSlots, State.slots, h.listed, h.at]

theorem SameLine.txGroupOf (h : SameLine s t) : t.txGroupOf .live n = s.txGroupOf .live n := by
  simp [State.txGroupOf, State.txMembers, State.present, h.at, h.hasCarrier]

theorem SameLine.txGroups (h : SameLine s t) : t.txGroups d o = s.txGroups d o := by
  simp [State.txGroups, h.carriersOfCtx, h.txSlots, h.txGroupOf]

theorem SameLine.ctxStream (h : SameLine s t) : t.ctxStream d o = s.ctxStream d o := by
  simp [State.ctxStream, State.streams, h.listed, h.rd, h.on]

theorem SameLine.cipherReplaces (h : SameLine s t) : t.cipherReplaces d n = s.cipherReplaces d n := by
  simp [State.cipherReplaces, h.rd, h.cipherOut]

theorem SameLine.standbyPair (h : SameLine s t) : t.standbyPair d o = s.standbyPair d o := by
  simp [State.standbyPair, h.rd, h.on]

theorem SameLine.oduFrames (h : SameLine s t) (k : Nat) : t.oduFrames d o k = s.oduFrames d o k := by
  simp [State.oduFrames, State.oduRate, State.rq, h.at]

theorem SameLine.pairSilent (h : SameLine s t) : t.pairSilent d n = s.pairSilent d n := by
  simp [State.pairSilent, h.rd, h.on, h.tally, h.oduFrames]

theorem SameLine.clientFails (h : SameLine s t) : t.clientFails d o = s.clientFails d o := by
  simp [State.clientFails, h.rd, h.parentOf, h.portFails]

theorem SameLine.lineSignal (h : SameLine s t) : t.lineSignal d o = s.lineSignal d o := by
  simp only [State.lineSignal, h.ctxStream, h.cipherReplaces, h.standbyPair, h.pairSilent, h.portFails, h.clientFails, h.rd, ne_eq,
    reduceCtorEq, not_false_eq_true]

theorem SameLine.lineOut (h : SameLine s t) : t.lineOut d o = s.lineOut d o := by
  simp only [State.lineOut, h.txGroups, h.lineSignal, h.rd, h.on, ne_eq, reduceCtorEq, not_false_eq_true]

end

/-! ### Frames received -/

section

variable {s : State} {d : Die} {o x : Nat} {l : OtnLayer} {oh : List Byte} {bip far : Nat}

theorem State.groupOf_lt {n g : Nat} (h : s.groupOf n = some g) : g < 4 := List.mem_range.mp (List.mem_of_find?_eq_some h)

theorem State.rxGroupOf_lt {g : Nat} (h : s.rxGroupOf d l = some g) : g < 4 := by
  cases l with
  | slice x => exact groupOf_lt h
  | ctx o =>
    obtain ⟨n, -, hn⟩ := List.exists_of_findSome?_eq_some h
    exact groupOf_lt hn
  | group g' => exact Option.some_inj.mp h ▸ g'.isLt

/-- With no group in LINE_TERM receive processing sees the line. -/
theorem State.rxContent_line (h : ∀ g < 4, s.rd .lgLb .m0 g ≠ 2) (l : OtnLayer) : s.rxContent d l oh = oh := by
  refine if_neg fun hany => ?_
  obtain ⟨g, hg, hlb⟩ := (Option.any_eq_true ..).mp hany
  exact h g (rxGroupOf_lt hg) (beq_iff_eq.mp hlb)

/-- A group in LINE_TERM sees what it sends. -/
theorem State.rxContent_term {g : Fin 4} {y : List Byte} (h : s.rd .lgLb .m0 g = 2)
    (hy : Cells.find (layerKey d (.group g)) s.ohSent = some y) : s.rxContent d (.group g) oh = y := by
  have hlb : (s.rxGroupOf d (.group g)).any (fun g => s.rd .lgLb .m0 g == 2) = true := beq_iff_eq.mpr h
  rw [rxContent, if_pos hlb, hy]
  rfl

/-- A slice's frame counts its MFAS on, and its BIP-8 errors. -/
theorem State.sliceFrame_counts (s : State) (d : Die) (x : Nat) (l : OtnLayer) (oh : List Byte) (bip far : Nat) {t : State}
    (ht : t = s.sliceFrame d x l oh bip far) :
    t.rd .sliceBipErrors d x = min (s.rd .sliceBipErrors d x + bip) (2 ^ 32 - 1) ∧
      t.rd .sliceMfas d x = (s.rd .sliceMfas d x + 1) % 2 ^ 8 ∧ t.tally = s.tally := by
  unfold sliceFrame at ht
  extract_lets mfas s₁ bdi br s₂ s₃ s₄ s₅ at ht
  have h₁ : Keeps (· ∈ [.sliceBipErrors]) State.received s s₁ := Keeps.refl.wrsOther rfl
  have h₃ : OtnKept s₁ s₃ := (Keeps.refl.wrsOther rfl).pmCount
  have h₅ : OtnKept (s₃.inc .sliceBipErrors d x bip) s₅ := .wrOther (OtnKept.ttiFrame .refl rfl) rfl
  have hf : OtnKept (s₃.inc .sliceBipErrors d x bip) t := ht ▸ OtnKept.extract (OtnKept.sliceShow h₅) rfl
  refine ⟨(hf.rd _ (by decide) ..).trans ?_, (hf.rd _ (by decide) ..).trans ?_,
    hf.receivedTally.trans (h₃.receivedTally.trans h₁.receivedTally)⟩
  · rw [rd_inc, if_pos ⟨rfl, rfl, rfl⟩, h₃.rd _ (by decide), h₁.rd _ (by simp), show Fld.sliceBipErrors.row.width = 32 by decide]
  · rw [rd_inc, if_neg (by simp), h₃.rd _ (by decide), rd_wrs]
    rfl

/-- The third STAT in a row of the PM byte raises the defects that it names (R329). -/
theorem State.pmFrame_stat (hrun : 2 ≤ s.rd .oduStatRun d o) (hlast : s.rd .oduStatLast d o = byteAt oh 25 % 8) :
    (s.pmFrame d o oh bip far).on .oduDAis d o = (byteAt oh 25 % 8 == 7) ∧
      (s.pmFrame d o oh bip far).on .oduDLck d o = (byteAt oh 25 % 8 == 5) ∧
      (s.pmFrame d o oh bip far).on .oduDOci d o = (byteAt oh 25 % 8 == 6) := by
  have hsr : 3 ≤ runNext 7 (s.rd .oduStatLast d o) (s.rd .oduStatRun d o) (byteAt oh 25 % 8) := by
    rw [runNext, if_pos hlast.symm]
    omega
  have hpersist (now was : Bool) :
      persist 3 (runNext 7 (s.rd .oduStatLast d o) (s.rd .oduStatRun d o) (byteAt oh 25 % 8)) now was = now := if_pos hsr
  have hbit (b : Bool) : (b2n b % 2 ^ 1 == 1) = b := by cases b <;> rfl
  unfold pmFrame
  extract_lets v stat bdi sr br s₁ s₂
  have hk : OtnKept s₁ (if v / 16 ≤ 8 then s₂.inc .oduBeiErrors d o (v / 16) else s₂) :=
    .ite (.incOther (.pmCount .refl) rfl) (.pmCount .refl)
  refine ⟨(hk.on (by decide) ..).trans ((on_wrs ..).trans ?_), (hk.on (by decide) ..).trans ((on_wrs ..).trans ?_),
    (hk.on (by decide) ..).trans ((on_wrs ..).trans ?_)⟩
  · exact (hbit _).trans (hpersist ..)
  · exact (hbit _).trans (hpersist ..)
  · exact (hbit _).trans (hpersist ..)

theorem State.pmFrame_keeps (s : State) (d : Die) (o : Nat) (oh : List Byte) (bip far : Nat) :
    Keeps (· ∈ [.oduBipErrors]) State.received s (s.pmFrame d o oh bip far) := by
  unfold pmFrame
  extract_lets v stat bdi sr br s₁ s₂
  have h₂ : Keeps (· ∈ [.oduBipErrors]) State.received s s₂ := (Keeps.refl.wrsOther rfl).pmCount
  exact .ite (h₂.incOther rfl) h₂

/-- A context's frame: its BIP-8 errors are counted, its overhead stays as the one last received, and its STAT is judged. -/
theorem State.oduFrame_judges (s : State) (d : Die) (o : Nat) (l : OtnLayer) (mfas : Nat) (oh : List Byte) (bip : List Nat)
    (psi : Option Psi) (impLost : Bool) (gmp : Option (Nat × Nat)) (far : Nat) {t : State}
    (ht : t = s.oduFrame d o l mfas oh bip psi impLost gmp far) :
    t.rd .oduBipErrors d o = min (s.rd .oduBipErrors d o + bip.headD 0) (2 ^ 32 - 1) ∧ t.ohRecv = s.ohRecv ∧
      (2 ≤ s.rd .oduStatRun d o → s.rd .oduStatLast d o = byteAt oh 25 % 8 →
        t.on .oduDAis d o = (byteAt oh 25 % 8 == 7) ∧ t.on .oduDLck d o = (byteAt oh 25 % 8 == 5) ∧
          t.on .oduDOci d o = (byteAt oh 25 % 8 == 6)) ∧ t.tally = s.tally := by
  unfold oduFrame at ht
  extract_lets s₁ s₂ s₃ s₄ s₅ s₆ at ht
  have h₁ : OtnKept s s₁ := (OtnKept.gmpReceived .refl).wrsOther rfl
  have hp : Keeps (· ∈ [.oduBipErrors]) State.received s₁ (s₁.pmFrame d o oh (bip.headD 0) far) := pmFrame_keeps ..
  have h₃ : OtnKept (s₁.pmFrame d o oh (bip.headD 0) far) s₃ :=
    .wrOther (.foldl (fun _ _ hu => OtnKept.tcmFrame hu) .refl) rfl
  have h₅ : OtnKept (s₃.inc .oduBipErrors d o (bip.headD 0)) s₅ :=
    .wrOther (OtnKept.ttiFrame (.wrOther .refl rfl) rfl) rfl
  have h₆ : OtnKept (s₃.inc .oduBipErrors d o (bip.headD 0)) s₆ :=
    OtnKept.bridge (OtnKept.apsFrame (OtnKept.pmWatch (OtnKept.ctxUpdate (OtnKept.ctxPsi h₅))))
  have hf : OtnKept (s₃.inc .oduBipErrors d o (bip.headD 0)) t := ht ▸ OtnKept.extract h₆ rfl
  have hinc {f : Fld} (hne : f ≠ .oduBipErrors) (hm : f ∈ otnFields) : t.on f d o = (s₁.pmFrame d o oh (bip.headD 0) far).on f d o := by
    rw [hf.on hm, State.on, rd_inc, if_neg fun e => hne e.1.symm, h₃.rd _ hm, State.on]
  refine ⟨?_, hf.ohRecv.trans (h₃.ohRecv.trans (hp.ohRecv.trans h₁.ohRecv)), fun hrun hlast => ?_,
    hf.receivedTally.trans (h₃.receivedTally.trans (hp.receivedTally.trans h₁.receivedTally))⟩
  · rw [hf.rd _ (by decide), rd_inc, if_pos ⟨rfl, rfl, rfl⟩, h₃.rd _ (by decide), hp.rd _ (by simp), h₁.rd _ (by decide),
      show Fld.oduBipErrors.row.width = 32 by decide]
  · rw [hinc (by decide) (by decide), hinc (by decide) (by decide), hinc (by decide) (by decide)]
    exact pmFrame_stat (by rwa [h₁.rd _ (by decide)]) (by rwa [h₁.rd _ (by decide)])

end

section

variable {m : Fin 2} {mfas : BitVec 8} {omfi : Fin 20} {oh : List Byte} {bip : List Nat} {psi : Option Psi} {il : Bool}
  {gmp : Option (Nat × Nat)} {far : BitVec 48} {s : State}

/-- The state in which an overhead has been received on a layer. -/
def State.overheadSeen (s : State) (d : Die) (l : OtnLayer) (oh : List Byte) : State :=
  { s with ohRecv := Cells.put (layerKey d l) oh s.ohRecv }

theorem State.find_overheadSeen (s : State) (d : Die) (l : OtnLayer) (oh : List Byte) :
    Cells.find (layerKey d l) (s.overheadSeen d l oh).ohRecv = some oh := (Cells.find_put ..).trans (if_pos rfl)

theorem exec_otnFrameReceived_slice (hrun : s.otnRuns (millAt m) = true) (x : Fin 48) :
    exec (.otnFrameReceived m (.slice x) mfas omfi oh bip psi il gmp far) s =
      .next (s.sliceFrame (millAt m) x (.slice x) (s.rxContent (millAt m) (.slice x) oh) (bip.headD 0) far.toNat) :=
  if_neg (by simp [hrun])

theorem exec_otnFrameReceived_ctx (hrun : s.otnRuns (millAt m) = true) (o : Fin 512) :
    exec (.otnFrameReceived m (.ctx o) mfas omfi oh bip psi il gmp far) s =
      if s.on .oduEnable (millAt m) o then
        .next ((s.overheadSeen (millAt m) (.ctx o) (s.rxContent (millAt m) (.ctx o) oh)).oduFrame (millAt m) o (.ctx o) mfas.toNat
          (s.rxContent (millAt m) (.ctx o) oh) bip psi il gmp far.toNat)
      else .next s :=
  if_neg (by simp [hrun])

theorem exec_otnFrameReceived_group (hrun : s.otnRuns (millAt m) = true) (g : Fin 4) :
    exec (.otnFrameReceived m (.group g) mfas omfi oh bip psi il gmp far) s =
      let u := s.overheadSeen (millAt m) (.group g) (s.rxContent (millAt m) (.group g) oh)
      .next ((if omfi.val = 0 then u.rxOmfi (millAt m) g else u).groupPsi g (millAt m) (.group g) psi) :=
  if_neg (by simp [hrun])

end

/-! ### Frames sent -/

section

variable {s : State} {d : Die} {o : Nat} {l : OtnLayer} {mfas : Nat} {gen entry : List Byte}

/-- A slice's frame carries the BEI that waits for it, and none waits then (R332). -/
theorem State.sliceGen_clears (s : State) (d : Die) (x : Nat) (l : OtnLayer) (mfas : Nat) (gen : List Byte) :
    (s.sliceGen d x l mfas gen).1.rd .smBei d x = 0 ∧ (s.sliceGen d x l mfas gen).1.tally = s.tally := by
  unfold sliceGen
  extract_lets cause b bei s₁ t
  have hk : OtnKept s₁ t.1 := OtnKept.ttiOut .refl
  exact ⟨(hk.rd _ (by decide) ..).trans ((rd_wrs ..).trans rfl), hk.receivedTally⟩

theorem State.sliceSend_clears (s : State) (d : Die) (x : Nat) (l : OtnLayer) (mfas : Nat) (gen entry : List Byte) {t : State}
    (ht : t = (s.sliceSend d x l mfas gen entry).1) : t.rd .smBei d x = 0 ∧ t.tally = s.tally := by
  unfold sliceSend at ht
  extract_lets u at ht
  have hi : OtnKept u.1 t := ht ▸ OtnKept.insert .refl rfl
  obtain ⟨hbei, htally⟩ := (s.wr .sliceQlTx d x (s.sliceQl d x)).sliceGen_clears d x l mfas gen
  exact ⟨(hi.rd _ (by decide) ..).trans hbei, hi.receivedTally.trans htally⟩

/-- A frame that a loopback sends back carries the overhead last received. -/
theorem State.oduSend_looped (h : (s.lineOut d o).1 = 6) :
    s.oduSend d o l mfas gen entry = (s.signalNow d o, (s.signalNow d o).looped d l gen) := if_pos h

theorem State.oduSend_kept (s : State) (d : Die) (o : Nat) (l : OtnLayer) (mfas : Nat) (gen entry : List Byte) :
    OtnKept (s.signalNow d o) (s.oduSend d o l mfas gen entry).1 :=
  .fst_ite .refl (OtnKept.insert (OtnKept.oduGen (OtnKept.bridge .refl)) rfl)

theorem State.signalNow_shows (s : State) (d : Die) (o : Nat) :
    (s.signalNow d o).rd .oduSig d o = (s.lineOut d o).2 % 4 ∧
      (s.signalNow d o).on .oduTxRepActive d o = ((s.lineSignal d o).1 != 0) := by
  have hbit (b : Bool) : (b2n b % 2 ^ 1 == 1) = b := by cases b <;> rfl
  exact ⟨rd_wrs .., (on_wrs ..).trans (hbit _)⟩

/-- A context's frame shows the rank and the signal of what its line slots carry, and is what a loopback sends back under rank 6. -/
theorem State.oduSend_shows (s : State) (d : Die) (o : Nat) (l : OtnLayer) (mfas : Nat) (gen entry : List Byte)
    {r : State × List Byte} (hr : r = s.oduSend d o l mfas gen entry) :
    (∀ y, (s.lineOut d o).1 = 6 → Cells.find (layerKey d l) s.ohRecv = some y → r.2 = y) ∧
      r.1.rd .oduSig d o = (s.lineOut d o).2 % 4 ∧ r.1.on .oduTxRepActive d o = ((s.lineSignal d o).1 != 0) ∧
      r.1.tally = s.tally := by
  have hk : OtnKept (s.signalNow d o) r.1 := hr ▸ oduSend_kept ..
  obtain ⟨hsig, hrep⟩ := s.signalNow_shows d o
  refine ⟨fun y hout hy => ?_, (hk.rd _ (by decide) ..).trans hsig, (hk.on (by decide) ..).trans hrep, hk.receivedTally⟩
  have hrecv : Cells.find (layerKey d l) (s.signalNow d o).ohRecv = some y := hy
  rw [hr, oduSend_looped hout, looped, hrecv]
  rfl

end

section

variable {m : Fin 2} {mfas : BitVec 8} {omfi : Fin 20} {gen entry : List Byte} {client : Option Nat} {s : State}

/-- The state in which a frame with an overhead has been sent on a layer. -/
def State.overheadSent (s : State) (d : Die) (l : OtnLayer) (oh : List Byte) : State :=
  { s with ohSent := Cells.put (layerKey d l) oh s.ohSent }

theorem State.find_overheadSent (s : State) (d : Die) (l : OtnLayer) (oh : List Byte) :
    Cells.find (layerKey d l) (s.overheadSent d l oh).ohSent = some oh := (Cells.find_put ..).trans (if_pos rfl)

@[simp] theorem State.rd_overheadSent (s : State) (e : Die) (l : OtnLayer) (oh : List Byte) (f : Fld) (d : Die) (i : Nat) :
    (s.overheadSent e l oh).rd f d i = s.rd f d i := rfl

@[simp] theorem State.on_overheadSent (s : State) (e : Die) (l : OtnLayer) (oh : List Byte) (f : Fld) (d : Die) (i : Nat) :
    (s.overheadSent e l oh).on f d i = s.on f d i := rfl

@[simp] theorem State.overheadSent_tally (s : State) (e : Die) (l : OtnLayer) (oh : List Byte) :
    (s.overheadSent e l oh).tally = s.tally := rfl

theorem exec_otnFrameTransmit_slice (hrun : s.otnRuns (millAt m) = true) (x : Fin 48) :
    let r := s.sliceSend (millAt m) x (.slice x) mfas.toNat gen entry
    exec (.otnFrameTransmit m (.slice x) mfas omfi gen entry client) s = .next (r.1.overheadSent (millAt m) (.slice x) r.2) :=
  if_neg (by simp [hrun])

theorem exec_otnFrameTransmit_ctx (hrun : s.otnRuns (millAt m) = true) {o : Fin 512} (hen : s.on .oduEnable (millAt m) o = true) :
    let r := (s.gmpSent (millAt m) o client).oduSend (millAt m) o (.ctx o) mfas.toNat gen entry
    exec (.otnFrameTransmit m (.ctx o) mfas omfi gen entry client) s = .next (r.1.overheadSent (millAt m) (.ctx o) r.2) :=
  (if_neg (by simp [hrun])).trans (if_pos hen)

theorem exec_otnFrameTransmit_group (hrun : s.otnRuns (millAt m) = true) (g : Fin 4) :
    let u := if omfi.val = 0 then s.txOmfi (millAt m) g else s
    exec (.otnFrameTransmit m (.group g) mfas omfi gen entry client) s =
      .next (u.overheadSent (millAt m) (.group g) (if s.rd .lgLb .m0 g = 1 then s.looped (millAt m) (.group g) gen else gen)) :=
  if_neg (by simp [hrun])

end

/-- Settles O22: each layer's frame is received by its own function, whose other steps leave what the statement reads, and is sent with
the overhead that its layer's function builds. -/
theorem otnFramesCountedJudgedAndSent : Obligations.OtnFramesCountedJudgedAndSent := by
  intro m mfas omfi oh bip s hrun
  dsimp only
  refine ⟨fun x psi il gmp far => ?_, fun l h => rxContent_line h l, fun g y hlb hy => rxContent_term hlb hy, fun g psi il gmp far => ?_,
    fun o psi il gmp far => ⟨fun hen => ?_, fun hen => ?_⟩, fun g entry client y hy => ?_, fun x entry client => ?_,
    fun o entry client hen => ?_⟩
  · exact ⟨_, exec_otnFrameReceived_slice hrun x, sliceFrame_counts _ _ _ _ _ _ _ rfl⟩
  · let u := s.overheadSeen (millAt m) (.group g) (s.rxContent (millAt m) (.group g) oh)
    have hk : OtnKept u ((if omfi.val = 0 then u.rxOmfi (millAt m) g else u).groupPsi g (millAt m) (.group g) psi) :=
      OtnKept.groupPsi (.ite (OtnKept.rxOmfi .refl) .refl)
    exact ⟨_, exec_otnFrameReceived_group hrun g, (congrArg _ hk.ohRecv).trans (find_overheadSeen ..), hk.receivedTally⟩
  · obtain ⟨hbip, hrecv, hstat, htally⟩ := oduFrame_judges
      (s.overheadSeen (millAt m) (.ctx o) (s.rxContent (millAt m) (.ctx o) oh)) (millAt m) o (.ctx o) mfas.toNat
      (s.rxContent (millAt m) (.ctx o) oh) bip psi il gmp far.toNat rfl
    exact ⟨_, (exec_otnFrameReceived_ctx hrun o).trans (if_pos hen), hbip, (congrArg _ hrecv).trans (find_overheadSeen ..), hstat, htally⟩
  · exact (exec_otnFrameReceived_ctx hrun o).trans (if_neg (by simp [hen]))
  · refine (exec_otnFrameTransmit_group hrun g).trans ?_
    have hoh : (if s.rd .lgLb .m0 g = 1 then s.looped (millAt m) (.group g) oh else oh) = y := by
      split at hy
      · next hlb => rw [if_pos hlb, looped, hy]; rfl
      · next hlb => rw [if_neg hlb, hy]
    rw [hoh]
    rfl
  · obtain ⟨hbei, htally⟩ := s.sliceSend_clears (millAt m) x (.slice x) mfas.toNat oh entry rfl
    exact ⟨_, exec_otnFrameTransmit_slice hrun x, congrArg Option.isSome (find_overheadSent ..), (rd_overheadSent ..).trans hbei,
      (overheadSent_tally ..).trans htally⟩
  · have hg := s.gmpSent_sameLine (millAt m) o client
    obtain ⟨hloop, hsig, hrep, htally⟩ := (s.gmpSent (millAt m) o client).oduSend_shows (millAt m) o (.ctx o) mfas.toNat oh entry rfl
    rw [hg.lineOut, hg.ohRecv] at hloop
    rw [hg.lineOut] at hsig
    rw [hg.lineSignal] at hrep
    exact ⟨_, exec_otnFrameTransmit_ctx hrun hen, congrArg Option.isSome (find_overheadSent ..),
      fun y hout hy => (find_overheadSent ..).trans (congrArg some (hloop y hout hy)),
      (rd_overheadSent ..).trans hsig, (on_overheadSent ..).trans hrep, (overheadSent_tally ..).trans (htally.trans hg.tally)⟩

end Sys2Proof.Machine

/-! ## Client lanes: lock, training and alignment -/

namespace Sys2Proof.Machine

open State

section

variable {s t : State} {m : Fin 2} {l : Fin 24}

theorem State.on_wr_bool (s : State) {f : Fld} (hf : f.row.width = 1) (d : Die) (i : Nat) (v : Bool) :
    (s.wr f d i (b2n v)).on f d i = v := by
  rw [on, rd_wr_same, hf]
  cases v <;> rfl

/-- The pending events after one is raised follow from the events and the tally before. -/
theorem State.raise_events_congr (he : t.events = s.events) (ht : t.tally = s.tally) (r b a0 a1 : Nat) (far : Option Nat) :
    (t.raise r b a0 a1 far).events = (s.raise r b a0 a1 far).events := by
  unfold raise
  rw [raiseAs_def, raiseAs_def, he, ht]

/-! Writes to fields inside the list that may move. -/

section

variable {α : Type} {g : State → α} {fs : List Fld} {s₀ : State} {f : Fld} {d : Die} {i : Nat}

theorem Keeps.wrOwn {v : Nat} (h : Keeps (· ∉ fs) g s₀ s) (hf : fs.contains f = true) : Keeps (· ∉ fs) g s₀ (s.wr f d i v) :=
  h.wr (by simpa using hf)

theorem Keeps.incOwn {k : Nat} (h : Keeps (· ∉ fs) g s₀ s) (hf : fs.contains f = true) : Keeps (· ∉ fs) g s₀ (s.inc f d i k) :=
  h.wrOwn hf

theorem Keeps.wrsOwn {w : List (Fld × Nat)} (h : Keeps (· ∉ fs) g s₀ s) (hw : (w.map Prod.fst).all fs.contains = true) :
    Keeps (· ∉ fs) g s₀ (s.wrs d i w) :=
  h.wrs fun f hf hm => hm (by simpa using List.all_eq_true.mp hw f hf)

end

/-! ### Lock of a lane (R363, R366, R369) -/

theorem exec_cdrLockChange_found {ppm : BitVec 16} (hrun : s.laneRuns (millAt m) l = true) (hlock : s.on .laneCdrLock (millAt m) l = false)
    (hppm : ppm.toInt.natAbs ≤ s.cdrRange (millAt m) l) :
    exec (.cdrLockChange m l true ppm) s = .next ((s.wr .laneCdrLock (millAt m) l 1).raiseField .laneCdrLock (millAt m) l) :=
  if_neg (by simp [hrun, hlock, hppm])

theorem exec_cdrLockChange_beyond {ppm : BitVec 16} (hppm : s.cdrRange (millAt m) l < ppm.toInt.natAbs) :
    exec (.cdrLockChange m l true ppm) s = .next s :=
  if_pos (by simp [hppm])

/-- A lane whose lock is lost: a trained one trains again. -/
def State.trainsAgain (s : State) (d : Die) (l : Nat) : State :=
  let u := (s.wr .laneCdrLock d l 0).raiseField .laneCdrLock d l
  if u.rd .laneTrainState d l = 2 then u.wr .laneTrainState d l 1 else u

theorem State.trainsAgain_keeps (s : State) (d : Die) (l : Nat) :
    Keeps (· ∉ [.laneCdrLock, .laneTrainState]) id s (s.trainsAgain d l) :=
  have h := (Keeps.refl.wrOwn (fs := [.laneCdrLock, .laneTrainState]) rfl).raiseField
  .ite (h.wrOwn rfl) h

theorem State.rd_trainsAgain_lock (s : State) (d : Die) (l : Nat) : (s.trainsAgain d l).rd .laneCdrLock d l = 0 := by
  have h : ((s.wr .laneCdrLock d l 0).raiseField .laneCdrLock d l).rd .laneCdrLock d l = 0 := by
    rw [rd_raiseField, rd_wr_same, Nat.zero_mod]
  by_cases h2 : ((s.wr .laneCdrLock d l 0).raiseField .laneCdrLock d l).rd .laneTrainState d l = 2
  · exact (congrArg (rd · .laneCdrLock d l) (if_pos h2)).trans ((rd_wr_ne _ _ _ _ _ _ (by simp)).trans h)
  · exact (congrArg (rd · .laneCdrLock d l) (if_neg h2)).trans h

theorem State.rd_trainsAgain_trained {d : Die} {i : Nat} (h : s.rd .laneTrainState d i = 2) :
    (s.trainsAgain d i).rd .laneTrainState d i = 1 := by
  have hu : ((s.wr .laneCdrLock d i 0).raiseField .laneCdrLock d i).rd .laneTrainState d i = 2 := by
    rw [rd_raiseField, rd_wr_ne _ _ _ _ _ _ (by simp), h]
  exact (congrArg (rd · .laneTrainState d i) (if_pos hu)).trans (rd_wr_same ..)

/-- After a loss the lane's port only announces its failure and marks its open seconds. -/
theorem exec_cdrLockChange_lost (ppm : BitVec 16) (hrun : s.laneRuns (millAt m) l = true)
    (hlock : s.on .laneCdrLock (millAt m) l = true) :
    ∃ t, exec (.cdrLockChange m l false ppm) s = .next t ∧ Keeps (fun _ => True) State.blank (s.trainsAgain (millAt m) l) t := by
  change ∃ t, execCdrLockChange m l false ppm s = .next t ∧ _
  unfold execCdrLockChange
  extract_lets d u v
  rw [if_neg (by simp [d, hrun, hlock]), if_neg (by simp)]
  split
  · exact ⟨_, rfl, .ite .refl Keeps.refl.raiseField.record⟩
  · exact ⟨_, rfl, .refl⟩

/-! ### Training (R368, R369) -/

theorem exec_laneTrained_training (h : s.rd .laneTrainState (millAt m) l = 1) :
    exec (.laneTrained m l) s = .next (s.wr .laneTrainState (millAt m) l 2) := if_pos h

theorem exec_laneTrainFail_training (h : s.rd .laneTrainState (millAt m) l = 1) :
    exec (.laneTrainFail m l) s =
      .next (((s.raise Reason.laneTrainFail (laneBlk (millAt m) l)).wr .laneTrainState (millAt m) l 3).inc
        .laneTrainFailures (millAt m) l) :=
  (if_pos h).trans (by rw [raise_inc, raise_wr])

theorem exec_laneRetrain_failed (h : s.rd .laneTrainState (millAt m) l = 3) :
    exec (.laneRetrain m l) s = .next (s.wr .laneTrainState (millAt m) l 1) := if_pos h

theorem exec_laneTrainRequest_increment (h : s.rd .laneTrainState (millAt m) l = 1) (k : Fin 5) :
    exec (.laneTrainRequest m l k 1 false) s =
      .next (s.wrs (millAt m) (l * 8 + k) [(.laneCoef, s.rd .laneCoef (millAt m) (l * 8 + k) + 1), (.laneCoefSts, 1)]) :=
  if_neg (not_not.mpr h)

/-- A request beyond the range is answered with the limit that it meets: 2 maximum, 3 minimum. -/
theorem exec_laneTrainRequest_beyond (h : s.rd .laneTrainState (millAt m) l = 1) (k : Fin 5) {req : Fin 3} (hr : req ≠ 0) :
    exec (.laneTrainRequest m l k req true) s =
      .next (s.wr .laneCoefSts (millAt m) (l * 8 + k) (if req = 1 then 2 else 3)) :=
  (if_neg (not_not.mpr h)).trans (if_neg hr)

/-! ### Alignment of a port (R363, R364, R371) -/

theorem SameBut.withPmSecs {r : List Reg} (h : SameBut r s t) (x) : SameBut r { s with pmSecs := x } { t with pmSecs := x } :=
  ⟨id (congrArg (fun u : State => { u with pmSecs := x }) h.1 :), h.2⟩

/-- Codewords move the port's two counts and the open seconds. -/
theorem State.codewords_sameBut (s : State) (d : Die) (i corr unc : Nat) :
    SameBut (regsAt d i [.portCwCorrected, .portCwUncorrectable]) { s with pmSecs := (s.codewords d i corr unc).pmSecs }
      (s.codewords d i corr unc) := by
  have h : SameBut (regsAt d i [.portCwCorrected, .portCwUncorrectable]) s
      ((s.inc .portCwCorrected d i corr).inc .portCwUncorrectable d i unc) :=
    .inc (.inc (.refl ..) _ _ _ _ (by simp [mem_regsAt])) _ _ _ _ (by simp [mem_regsAt])
  unfold codewords pmCount
  split
  · exact h
  · exact h.withPmSecs _

theorem State.rd_codewords (s : State) (d : Die) (i corr unc : Nat) (f : Fld) :
    (s.codewords d i corr unc).rd f d i = ((s.inc .portCwCorrected d i corr).inc .portCwUncorrectable d i unc).rd f d i := by
  unfold codewords pmCount
  split <;> rfl

/-- The codewords counted and the lock shown. -/
def State.aligned (s : State) (d : Die) (i : Nat) (v : Bool) (corr unc : Nat) : State :=
  (s.codewords d i corr unc).wr .portAlignLock d i (b2n v)

theorem exec_alignLockChange_changes {v : Bool} (corr unc : Nat)
    (hmode : s.rd .portMode (millAt m) l = 1 ∨ s.rd .portMode (millAt m) l = 2) (hlock : s.on .portAlignLock (millAt m) l ≠ v)
    (hrun : s.laneRuns (millAt m) l = true)
    (hfed : ((List.range (s.portWidth (millAt m) l)).all fun k => !s.on .laneChkEn (millAt m) (l + k)) = true) :
    exec (.alignLockChange m l v corr unc) s =
      .next (if v then s.aligned (millAt m) l v corr unc
        else ((s.aligned (millAt m) l v corr unc).portEvent (millAt m) l).pmWatch) := by
  have hc : (s.codewords (millAt m) l corr unc).on .portAlignLock (millAt m) l = s.on .portAlignLock (millAt m) l :=
    (s.codewords_sameBut ..).on_field (by decide) _ _
  change execAlignLockChange m l v corr unc s = _
  unfold execAlignLockChange
  extract_lets d fed u w
  have hf : fed = true := hfed
  rw [if_neg (by simp [d, hrun, hf]; omega), if_neg (fun e => hlock (hc.symm.trans e))]
  rfl

theorem State.aligned_counts (s : State) (d : Die) (i : Nat) (v : Bool) (corr unc : Nat) :
    let t := s.aligned d i v corr unc
    t.on .portAlignLock d i = v ∧ t.rd .portCwCorrected d i = min (s.rd .portCwCorrected d i + corr) (2 ^ 32 - 1) ∧
      t.rd .portCwUncorrectable d i = min (s.rd .portCwUncorrectable d i + unc) (2 ^ 32 - 1) := by
  refine ⟨on_wr_bool _ (by decide) .., ?_, ?_⟩
  · refine (rd_wr_ne _ _ _ _ _ _ (by simp)).trans ?_
    rw [rd_codewords, rd_inc, if_neg (by simp), rd_inc, if_pos ⟨rfl, rfl, rfl⟩]
    rfl
  · refine (rd_wr_ne _ _ _ _ _ _ (by simp)).trans ?_
    rw [rd_codewords, rd_inc, if_pos ⟨rfl, rfl, rfl⟩, rd_inc, if_neg (by simp)]
    rfl

theorem State.aligned_frame (s : State) (d : Die) (i : Nat) (v : Bool) (corr unc : Nat) :
    (s.aligned d i v corr unc).events = s.events ∧ (s.aligned d i v corr unc).tally = s.tally :=
  have h := (s.codewords_sameBut d i corr unc).1
  ⟨id (congrArg State.events h :), id (congrArg State.tally h :)⟩

/-- A loss of alignment is announced as the port's failure; the open seconds note it. -/
theorem State.portFailed_shows (s : State) (d : Die) (i : Nat) :
    (∀ f e j, ((s.portEvent d i).pmWatch).rd f e j = s.rd f e j) ∧
      ((s.portEvent d i).pmWatch).events = (s.raiseField .portAlignLock d i).events :=
  ⟨fun f e j => rd_raiseField s .portAlignLock d i none f e j, rfl⟩

end

/-- Settles O24: each command by its own branch; a loss of lock or alignment is followed by what the port announces. -/
theorem lanesLockTrainAndAlign : Obligations.LanesLockTrainAndAlign := by
  intro m l s
  dsimp only
  refine ⟨fun ppm hrun => ⟨fun hlock hppm => ?_, exec_cdrLockChange_beyond, fun hlock => ?_⟩,
    fun htr => ⟨?_, ?_, fun k => ⟨?_, ?_, ?_⟩⟩, fun hfail => ?_, fun v corr unc hmode hlock hrun hfed => ?_⟩
  · refine ⟨_, exec_cdrLockChange_found hrun hlock hppm, ?_, ?_⟩
    · rw [raiseField_wr, on_wr_one _ (by decide)]
    · rw [raiseField_wr]
      exact .wr (.refl ..) _ _ _ _ (by simp)
  · obtain ⟨t, hx, hk⟩ := exec_cdrLockChange_lost ppm hrun hlock
    refine ⟨t, hx, ?_, fun h2 => ?_, ?_⟩
    · rw [hk.on trivial, on, rd_trainsAgain_lock]
      rfl
    · rw [hk.rd _ trivial, rd_trainsAgain_trained h2]
    · exact hk.tally.trans (congrArg State.tally (s.trainsAgain_keeps ..).part :)
  · exact ⟨_, exec_laneTrained_training htr, rd_wr_same .., .wr (.refl ..) _ _ _ _ (by simp)⟩
  · refine ⟨_, exec_laneTrainFail_training htr, ?_, ?_, ?_⟩
    · rw [rd_inc, if_neg (by simp), rd_wr_same]
      rfl
    · rw [rd_inc, if_pos ⟨rfl, rfl, rfl⟩, rd_wr_ne _ _ _ _ _ _ (by simp), rd_raise]
      rfl
    · exact .inc (.wr (.refl ..) _ _ _ _ (by simp [mem_regsAt])) _ _ _ _ (by simp [mem_regsAt])
  · exact ⟨_, exec_laneTrainRequest_increment htr k, rd_wrs .., rd_wrs .., .wrs (.refl ..) _ _ _ (by simp [mem_regsAt])⟩
  · exact ⟨_, exec_laneTrainRequest_beyond htr k (by decide), rd_wr_same .., .wr (.refl ..) _ _ _ _ (by simp)⟩
  · exact ⟨_, exec_laneTrainRequest_beyond htr k (by decide), rd_wr_same .., .wr (.refl ..) _ _ _ _ (by simp)⟩
  · exact ⟨_, exec_laneRetrain_failed hfail, rd_wr_same .., .wr (.refl ..) _ _ _ _ (by simp)⟩
  · obtain ⟨hon, hcorr, hunc⟩ := s.aligned_counts (millAt m) l v corr unc
    obtain ⟨hev, htally⟩ := s.aligned_frame (millAt m) l v corr unc
    refine ⟨_, exec_alignLockChange_changes corr unc hmode hlock hrun hfed, ?_⟩
    cases v with
    | true => exact ⟨hon, hcorr, hunc, hev⟩
    | false =>
      obtain ⟨hrd, hpe⟩ := (s.aligned (millAt m) l false corr unc).portFailed_shows (millAt m) l
      exact ⟨(congrArg (· == 1) (hrd ..)).trans hon, (hrd ..).trans hcorr, (hrd ..).trans hunc,
        hpe.trans (raise_events_congr hev htally ..)⟩

end Sys2Proof.Machine

/-! ## PRBS checkers and error injection -/

namespace Sys2Proof.Machine

open State

section

variable {s : State} {m : Fin 2} {l : Fin 24}

/-! ### Checkers (R370, R371, R389) -/

theorem exec_prbsLock_running (hrun : s.laneRuns (millAt m) l = true) (hchk : s.chkOn (millAt m) l = true) :
    exec (.prbsLock m l) s = .next (s.wr .laneChkLock (millAt m) l 1) := if_pos (by simp [hrun, hchk])

theorem State.prbsCount_locked {d : Die} {i : Nat} (h : s.on .laneChkLock d i = true) (errs nbits : Nat) :
    s.prbsCount d i errs nbits = (s.inc .prbsErrs d i errs).inc .prbsBits d i nbits := if_pos h

theorem State.prbsCount_unlocked {d : Die} {i : Nat} (h : s.on .laneChkLock d i = false) (errs nbits : Nat) :
    s.prbsCount d i errs nbits = s := if_neg (by simp [h])

theorem exec_prbsLockLost_locked (h : s.on .laneChkLock (millAt m) l = true) (errs nbits : BitVec 48) :
    exec (.prbsLockLost m l errs nbits) s =
      .next (((s.inc .prbsErrs (millAt m) l errs.toNat).inc .prbsBits (millAt m) l nbits.toNat).wrs (millAt m) l
        [(.laneChkLock, 0), (.laneChkLost, 1)]) :=
  (if_pos h).trans (by rw [prbsCount_locked h])

/-- A value of 48 bits written to two registers of 32 and 16 bits reads back. -/
theorem State.rd48_wr48 (s : State) {lo hi : Fld} (hlo : lo.row.width = 32) (hhi : hi.row.width = 16) (d : Die) (i : Nat) {v : Nat}
    (hv : v < 2 ^ 48) : (s.wr48 lo hi d i v).rd48 lo hi d i = v := by
  have hne : lo ≠ hi := fun e => by rw [e, hhi] at hlo; omega
  rw [rd48, wr48, rd_wr_same, rd_wr_ne _ _ _ _ _ _ (fun e => hne e.1.symm), rd_wr_same, hlo, hhi,
    Nat.mod_eq_of_lt (by omega : v / 2 ^ 32 < 2 ^ 16)]
  omega

/-- The four count registers of a checker latched. -/
def State.prbsLatched (s : State) (d : Die) (i : Nat) : State :=
  (s.wr48 .lanePrbsErrLo .lanePrbsErrHi d i (s.rd .prbsErrs d i)).wr48 .lanePrbsBitsLo .lanePrbsBitsHi d i (s.rd .prbsBits d i)

theorem State.prbsLatched_sameBut (s : State) (d : Die) (i : Nat) :
    SameBut (regsAt d i [.lanePrbsErrLo, .lanePrbsErrHi, .lanePrbsBitsLo, .lanePrbsBitsHi]) s (s.prbsLatched d i) :=
  .wrs (.refl ..) d i [(.lanePrbsErrLo, _), (.lanePrbsErrHi, _), (.lanePrbsBitsLo, _), (.lanePrbsBitsHi, _)] (by simp [mem_regsAt])

theorem State.rd48_prbsLatched {d : Die} {i : Nat} (h : s.rd .prbsErrs d i < 2 ^ 48) :
    (s.prbsLatched d i).rd48 .lanePrbsErrLo .lanePrbsErrHi d i = s.rd .prbsErrs d i := by
  have hb (u : State) (v : Nat) :
      (u.wr48 .lanePrbsBitsLo .lanePrbsBitsHi d i v).rd48 .lanePrbsErrLo .lanePrbsErrHi d i = u.rd48 .lanePrbsErrLo .lanePrbsErrHi d i := by
    simp [rd48, wr48, rd_wr]
  exact (hb ..).trans (rd48_wr48 _ (by decide) (by decide) _ _ h)

theorem exec_prbsErrRead_unlocked {w : Window} {fs : List (Fld × Nat × Nat)} (h : s.on .laneChkLock (millAt m) l = false)
    (ha : s.dieAccess (millAt m) (Fld.offsetAt .lanePrbsErrLo l) = .word w fs) (errs nbits : BitVec 48) :
    exec (.prbsErrRead m l errs nbits) s =
      .next { s.prbsLatched (millAt m) l with readData := s.rd .prbsErrs (millAt m) l % 2 ^ 32 } := by
  change execPrbsErrRead m l errs nbits s = _
  unfold execPrbsErrRead
  dsimp only
  rw [prbsCount_unlocked h, readReg_word ha]
  rfl

theorem SameBut.withReadData {r : List Reg} {t : State} (h : SameBut r s t) (x) :
    SameBut r { s with readData := x } { t with readData := x } :=
  ⟨id (congrArg (fun u : State => { u with readData := x }) h.1 :), h.2⟩

/-! ### Injection (R372) -/

theorem State.inject_idle {d : Die} {f : Fld} {i : Nat} {w : Window} {fs : List (Fld × Nat × Nat)}
    (ha : s.dieAccess d (f.offsetAt i) = .word w fs) (h : s.on .laneInjBusy d i = false) (n : Nat) :
    s.inject d f i n = s.wrs d i [(.laneInjBusy, 1), (.injLeft, n)] :=
  (writeReg_word ha).trans (if_neg (by simp [h]))

theorem State.inject_busy {d : Die} {f : Fld} {i : Nat} {w : Window} {fs : List (Fld × Nat × Nat)}
    (ha : s.dieAccess d (f.offsetAt i) = .word w fs) (h : s.on .laneInjBusy d i = true) (n : Nat) :
    s.inject d f i n = s.raiseField f d i :=
  (writeReg_word ha).trans (if_pos h)

/-- An injection of `n` bits that starts on an idle lane. -/
theorem State.inject_starts {d : Die} {f : Fld} {i n : Nat} {w : Window} {fs : List (Fld × Nat × Nat)}
    (ha : s.dieAccess d (f.offsetAt i) = .word w fs) (h : s.on .laneInjBusy d i = false) (hn : n < 2 ^ 10) :
    (s.inject d f i n).on .laneInjBusy d i = true ∧ (s.inject d f i n).rd .injLeft d i = n ∧
      SameBut (regsAt d i [.laneInjBusy, .injLeft]) s (s.inject d f i n) := by
  rw [inject_idle ha h]
  exact ⟨on_wrs .., (rd_wrs ..).trans (Nat.mod_eq_of_lt hn), .wrs (.refl ..) _ _ _ (by simp [mem_regsAt])⟩

end

/-- Settles O25: a checker by its lock, an injection by whether one runs. -/
theorem prbsCheckersAndInjection : Obligations.PrbsCheckersAndInjection := by
  intro m l s
  dsimp only
  refine ⟨fun hrun hchk => ?_, fun errs nbits hlock => ?_, fun errs nbits w fs hlock hlt ha => ?_,
    fun w fs ha => ⟨fun hidle => ?_, fun hbusy => ?_⟩, fun w fs ha hlen hidle => ?_, ?_⟩
  · exact ⟨_, exec_prbsLock_running hrun hchk, on_wr_one _ (by decide) .., .wr (.refl ..) _ _ _ _ (by simp)⟩
  · refine ⟨_, exec_prbsLockLost_locked hlock errs nbits, on_wrs .., on_wrs .., (rd_wrs ..).trans ?_, (rd_wrs ..).trans ?_, ?_⟩
    · exact (rd_inc ..).trans ((if_neg (by simp)).trans ((rd_inc ..).trans (if_pos ⟨rfl, rfl, rfl⟩)))
    · exact (rd_inc ..).trans ((if_pos ⟨rfl, rfl, rfl⟩).trans (by rw [rd_inc, if_neg (by simp)]; rfl))
    · exact .wrs (.inc (.inc (.refl ..) _ _ _ _ (by simp [mem_regsAt])) _ _ _ _ (by simp [mem_regsAt])) _ _ _ (by simp [mem_regsAt])
  · exact ⟨_, exec_prbsErrRead_unlocked hlock ha errs nbits, rfl, rd48_prbsLatched hlt, (prbsLatched_sameBut ..).withReadData _⟩
  · exact ⟨_, rfl, inject_starts ha hidle (by decide)⟩
  · exact congrArg _ (inject_busy ha hbusy 1)
  · exact ⟨_, rfl, inject_starts ha hidle (by omega)⟩
  · exact ⟨_, rfl, on_wrs .., rd_wrs .., .wrs (.refl ..) _ _ _ (by simp [mem_regsAt])⟩

end Sys2Proof.Machine

/-! ## The crosscut link: lock, control blocks and the loss of the partner -/

namespace Sys2Proof.Machine

open State

/-! ### The state of the link (R377, R386) -/

/-- What judging the link writes. -/
def linkFields : List Fld := [.xcLinkUp, .xcPartnerLost, .xcSofSeen, .xcLinkDowns, .xcStatusOk]

section

variable {s₀ s t : State} {m : Fin 2} {l : Fin 24}

theorem State.linkEval_moves (s : State) (d : Die) : Moves linkFields s (s.linkEval d) :=
  .ite .refl <|
  have h := (Keeps.refl.wrOwn (fs := linkFields) rfl).raise
  .ite (.foldl (fun _ _ hu => hu.wrOwn rfl) (h.wrOwn rfl)) ((h.incOwn rfl).wrOwn rfl)

/-! ### Block lock and deskew of a lane (R371, R376, R377) -/

theorem exec_blockLock_found (hrun : s.laneRuns (millAt m) l = true) (hlink : s.onLink (millAt m) l = true)
    (hchk : s.on .laneChkEn (millAt m) l = false) :
    exec (.blockLock m l) s = .next ((s.wr .laneBlockLock (millAt m) l 1).linkEval (millAt m)) :=
  if_pos (by simp [hrun, hlink, hchk])

theorem exec_alignBlock_locked (h : s.on .laneBlockLock (millAt m) l = true) (pos : Byte) (skew : Nat) :
    exec (.alignBlock m l pos skew) s =
      .next ((s.wrs (millAt m) l [(.lanePos, pos.toNat), (.laneDeskewed, b2n (decide (skew ≤ 128)))]).linkEval (millAt m)) :=
  if_pos h

/-- A lane out of lock and of deskew, its loss counted. -/
def State.blockLost (s : State) (d : Die) (i : Nat) : State :=
  (s.wrs d i [(.laneBlockLock, 0), (.laneDeskewed, 0)]).inc .laneLockLosses d i

theorem State.rd_blockLost (s : State) (d : Die) (i : Nat) :
    (s.blockLost d i).rd .laneBlockLock d i = 0 ∧ (s.blockLost d i).rd .laneDeskewed d i = 0 ∧
      (s.blockLost d i).rd .laneLockLosses d i = min (s.rd .laneLockLosses d i + 1) 0xFF := by
  refine ⟨?_, ?_, ?_⟩
  · exact (rd_inc ..).trans ((if_neg (by simp)).trans (rd_wrs ..))
  · exact (rd_inc ..).trans ((if_neg (by simp)).trans (rd_wrs ..))
  · exact (rd_inc ..).trans ((if_pos ⟨rfl, rfl, rfl⟩).trans (by rw [rd_wrs]; rfl))

/-- After a lane's loss the link is judged, and a link without any lock notes when it fell silent. -/
theorem exec_blockLockLost_locked (h : s.on .laneBlockLock (millAt m) l = true) :
    ∃ t, exec (.blockLockLost m l) s = .next t ∧ Moves (.xcOutAt :: linkFields) (s.blockLost (millAt m) l) t := by
  have hl := ((s.blockLost (millAt m) l).linkEval_moves (millAt m)).moves (m := .xcOutAt :: linkFields) (by decide)
  exact ⟨_, if_neg (by simp [h]), .ite hl ((hl.wrOwn rfl).wrOwn rfl)⟩

/-! ### The timing selection that a received quality level brings (R436 to R454) -/

/-- What judging the candidates and selecting one writes. -/
def selectionFields : List Fld :=
  [.candRxQl, .candWasEn, .candBase, .candWtrDue, .candWtrRunning, .candWtrLeftS, .candEligible, .timHistS, .timOutQl, .timBwUse,
    .timTstate, .timSecVoid, .timSelCand, .timSwitching, .timReturn, .timOld, .timHold, .timFollow, .timHoldovers]

/-- The selection has moved its own fields only, and the tally stands. -/
abbrev Selected : State → State → Prop := Keeps (· ∉ selectionFields) State.tally

theorem Selected.judgeCand {c : Nat} (h : Selected s₀ s) : Selected s₀ (s.judgeCand c) := h.wrsOwn rfl

theorem Selected.showQl (h : Selected s₀ s) : Selected s₀ s.showQl := (h.wrOwn rfl).wrOwn rfl

theorem Selected.clearHist (h : Selected s₀ s) : Selected s₀ s.clearHist :=
  (Keeps.wrOwn h rfl : Selected s₀ (s.wrP .timHistS 0)).frame rfl rfl rfl

theorem Selected.timTo {st : Nat} (h : Selected s₀ s) : Selected s₀ (s.timTo st) :=
  .ite h <|
  have h₁ := (h.wrsOwn rfl).raise
  .ite (Selected.clearHist h₁) h₁

theorem Selected.fresh (h : Selected s₀ s) : Selected s₀ s.fresh.2 := h.frame rfl rfl rfl

theorem Selected.holdFreq {x : Option Int} (h : Selected s₀ s) : Selected s₀ { s with holdFreq := x } := h.frame rfl rfl rfl

theorem Selected.timLose (h : Selected s₀ s) : Selected s₀ s.timLose := by
  unfold State.timLose
  extract_lets u st f w v
  have hu : Selected s₀ u := h.wrsOwn rfl
  have hv : Selected s₀ v := by
    dsimp only [v]
    split
    · exact Selected.holdFreq (Selected.fresh hu)
    · exact Selected.holdFreq hu
  exact .ite (Selected.timTo hu) (.ite (Selected.timTo (hv.incOwn rfl)) hu)

theorem Selected.timSelect {c : Nat} (h : Selected s₀ s) : Selected s₀ (s.timSelect c) := by
  unfold State.timSelect
  extract_lets old st w u v
  have hw : Selected s₀ w := h.wrsOwn rfl
  have hu : Selected s₀ u := Selected.holdFreq hw
  have hv : Selected s₀ v := .ite hu (hu.wrsOwn rfl)
  exact .ite (Selected.timTo hv) hv

theorem Selected.timUpdate (h : Selected s₀ s) : Selected s₀ s.timUpdate := by
  unfold State.timUpdate
  extract_lets u cur
  have hu : Selected s₀ u := .foldl (fun _ _ hv => Selected.judgeCand hv) h
  refine .ite (Selected.showQl hu) ?_
  split
  · exact Selected.showQl (.ite hu (Selected.timSelect hu))
  · exact .ite (Selected.showQl hu) (Selected.showQl (Selected.timLose hu))

/-! ### Control blocks (R377 to R379, R435) -/

/-- The partner as a STATUS block shows it. -/
def State.partnerSeen (s : State) (d : Die) (id ql tstate : Nat) : State :=
  s.wrs d 0 [(.xcPartnerTstate, tstate), (.xcPartnerQl, ql), (.xcPartnerIdSeen, id)]

/-- What only a STATUS block writes: the partner, as the last one showed it. -/
def partnerFields : List Fld := [.xcPartnerTstate, .xcPartnerQl, .xcPartnerIdSeen]

theorem exec_statusBlock_heard (h : s.linkHears (millAt m) = true) (id : BitVec 12) (ql : BitVec 4) (tstate : BitVec 3) :
    ∃ t, exec (.statusBlock m id ql tstate) s = .next t ∧
      Keeps (· ∈ partnerFields) State.tally (s.partnerSeen (millAt m) id.toNat ql.toNat tstate.toNat) t := by
  let u := s.partnerSeen (millAt m) id.toNat ql.toNat tstate.toNat
  refine ⟨_, if_neg (by simp [h]), ?_⟩
  have hlink (v : State) : Keeps (· ∈ partnerFields) State.tally v (v.linkEval (millAt m)) :=
    (v.linkEval_moves _).weaken (by decide) fun e => congrArg State.tally e
  have hsel (v : State) : Keeps (· ∈ partnerFields) State.tally v v.timUpdate :=
    (Selected.timUpdate (.refl (s := v))).weaken (by decide) fun e => e
  exact .foldl (fun _ _ hv => (hv.wrOther rfl).trans (hsel _)) (.trans (.ite (Keeps.refl.wrOther rfl) .refl) (hlink _))

theorem exec_timeBlock_heard (h : s.linkHears (millAt m) = true) (id : BitVec 12) (count : BitVec 48) (tstate : BitVec 3) :
    exec (.timeBlock m id count tstate) s =
      .next (s.wr48 .xcToffLo .xcToffHi (millAt m) 0 (ofInt 48 ((s.sf : Int) - count.toNat))) := if_pos h

theorem ofInt_lt (w : Nat) (v : Int) : ofInt w v < 2 ^ w :=
  ofInt_mod w v ▸ Nat.mod_lt _ (Nat.two_pow_pos w)

theorem exec_badCtrl_heard (h : s.linkHears (millAt m) = true) : exec (.badCtrl m) s = .next (s.inc .xcBadCtrl (millAt m)) :=
  congrArg Host.Outcome.next (if_pos h)

/-! ### A frame on a pair's channel (R380) -/

theorem exec_xcDataBlock_begins (hup : s.on .xcLinkUp (millAt m) = true) (p : Fin 32) {bytes : List Byte} (hb : bytes.length = 15) :
    exec (.xcDataBlock m p true bytes) s =
      .next { s.wrs (millAt m) p [(.xcSofAt, s.tally), (.xcSofSeen, 1)] with
        xcBuf := Cells.put ((millAt m).code * 32 + p) bytes s.xcBuf } := by
  have hseen : (s.wrs (millAt m) p [(.xcSofAt, s.tally), (.xcSofSeen, 1)]).on .xcSofSeen (millAt m) p = true := on_wrs ..
  have hnew : (bytes.take 15).take 15296 = bytes := by
    rw [List.take_of_length_le (by omega : bytes.length ≤ 15), List.take_of_length_le (by omega)]
  change execXcDataBlock m p true bytes s = _
  unfold execXcDataBlock
  simp only [hup, hseen, hnew, hb, Bool.not_true, Bool.false_eq_true, if_false, if_true, List.nil_append, List.length_nil,
    show ¬(0 < 15296 ∧ 15 = 15296) by omega]
  rfl

theorem SameBut.withXcBuf {r : List Reg} (h : SameBut r s t) (x) : SameBut r { s with xcBuf := x } { t with xcBuf := x } :=
  ⟨id (congrArg (fun u : State => { u with xcBuf := x }) h.1 :), h.2⟩

/-! ### What the client registers show of the ports (R364, R365, R368, R369, R391) -/

/-- What the client registers show of the ports, and the training of the lanes that follows. -/
def portFields : List Fld := [.xcQuads, .portFlexoBase, .portSquelch, .laneTrainState, .laneCoef, .laneCoefSts]

/-- Those registers of a Mill die. -/
def portRegs (d : Die) : List Reg := (List.range 192).flatMap fun i => regsAt d i portFields

theorem mem_portRegs {f : Fld} {d e : Die} {i : Nat} : (f, e, i) ∈ portRegs d ↔ i < 192 ∧ f ∈ portFields ∧ e = d := by
  refine List.mem_flatMap.trans ⟨fun ⟨j, hj, h⟩ => ?_,
    fun ⟨hi, hf, he⟩ => ⟨i, List.mem_range.mpr hi, mem_regsAt.mpr ⟨hf, he, rfl⟩⟩⟩
  obtain ⟨hf, he, rfl⟩ := mem_regsAt.mp h
  exact ⟨List.mem_range.mp hj, hf, he⟩

theorem SameBut.foldl {β : Type} {r : List Reg} {step : State → β → State} {xs : List β} (h : SameBut r s t)
    (hs : ∀ u, ∀ x ∈ xs, SameBut r s u → SameBut r s (step u x)) : SameBut r s (xs.foldl step t) :=
  List.foldlRecOn xs step h fun u hu x hx => hs u x hx hu

theorem SameBut.keeps {α : Type} {K : Fld → Prop} {g : State → α} {r : List Reg} (h : SameBut r s t)
    (hr : ∀ f, K f → ∀ d i, (f, d, i) ∉ r) : Keeps K g s t :=
  ⟨fun f hf d i => h.rd (hr f hf d i), id (congrArg (fun u => g (bare u)) h.1 :), fun e => id (congrArg State.keys h.1 :).trans e⟩

theorem State.laneGate_sameBut (s : State) (d : Die) {i : Nat} (hi : i < 24) : SameBut (portRegs d) s (s.laneGate d i) := by
  have htr (v : Nat) : SameBut (portRegs d) s (s.wr .laneTrainState d i v) :=
    .wr (.refl ..) _ _ _ _ (mem_portRegs.mpr ⟨by omega, by decide, rfl⟩)
  unfold laneGate
  split
  · split
    · exact htr 1
    · exact .refl ..
  · dsimp only
    split
    · exact htr 0
    · refine .foldl (htr 0) fun u k hk hu => hu.wrs _ _ _ ?_
      have hlt := List.mem_range.mp hk
      simpa using ⟨mem_portRegs.mpr ⟨by omega, by decide, rfl⟩, mem_portRegs.mpr ⟨by omega, by decide, rfl⟩⟩

theorem State.portsShow_sameBut (s : State) (d : Die) : SameBut (portRegs d) s (s.portsShow d) := by
  refine .foldl (.foldl (.wr (.refl ..) _ _ _ _ (mem_portRegs.mpr ⟨by omega, by decide, rfl⟩)) fun u i hi hu => ?_) fun u i hi hu => ?_
  · have hlt := List.mem_range.mp hi
    refine hu.wrs _ _ _ ?_
    simpa using ⟨mem_portRegs.mpr ⟨by omega, by decide, rfl⟩, mem_portRegs.mpr ⟨by omega, by decide, rfl⟩⟩
  · exact hu.trans (u.laneGate_sameBut d (List.mem_range.mp hi))

theorem State.rd_portsShow (s : State) (d : Die) {f : Fld} (hf : f ∉ portFields) (e : Die) (i : Nat) :
    (s.portsShow d).rd f e i = s.rd f e i := (s.portsShow_sameBut d).rd fun h => hf (mem_portRegs.mp h).2.1

/-! ### The role of a pair (R382 to R384) -/

/-- What a change of a pair's role writes: the pair's own registers, and those that show the ports. -/
def roleRegs (d : Die) (p : Nat) : List Reg := regsAt d p [.pairRoleActive, .pairTaken, .pairSeq, .pairAgreed] ++ portRegs d

theorem mem_roleRegs {f : Fld} {d e : Die} {p i : Nat} : (f, e, i) ∈ roleRegs d p ↔
    (f ∈ [Fld.pairRoleActive, .pairTaken, .pairSeq, .pairAgreed] ∧ e = d ∧ i = p) ∨ i < 192 ∧ f ∈ portFields ∧ e = d :=
  List.mem_append.trans (or_congr mem_regsAt mem_portRegs)

theorem State.pairRole_sameBut (s : State) (d : Die) (p role : Nat) (taken : Bool) :
    SameBut (roleRegs d p) s (s.pairRole d p role taken) := by
  let u := (s.wrs d p [(.pairRoleActive, role), (.pairTaken, b2n taken)]).coordChange d p
  have hu : SameBut (regsAt d p [.pairRoleActive, .pairTaken, .pairSeq, .pairAgreed]) s u :=
    .wr (.bump (.wrs (.refl ..) _ _ _ (by simp [mem_regsAt])) _ _ _ _ (by simp [mem_regsAt])) _ _ _ _ (by simp [mem_regsAt])
  exact (hu.mono fun r hr => List.mem_append_left _ hr).trans ((u.portsShow_sameBut d).mono fun r hr => List.mem_append_right _ hr)

/-- The new role stands, and no state is agreed. -/
theorem State.pairRole_takes (s : State) (d : Die) (p : Nat) (role taken : Bool) :
    (s.pairRole d p (b2n role) taken).on .pairRoleActive d p = role ∧ (s.pairRole d p (b2n role) taken).on .pairAgreed d p = false := by
  let u := s.wrs d p [(.pairRoleActive, b2n role), (.pairTaken, b2n taken)]
  have hshow {f : Fld} (hf : f ∉ portFields) : (s.pairRole d p (b2n role) taken).on f d p = (u.coordChange d p).on f d p :=
    congrArg (· == 1) (rd_portsShow _ d hf d p)
  have hrole : (u.coordChange d p).rd .pairRoleActive d p = u.rd .pairRoleActive d p := by
    rw [coordChange, rd_wr_ne _ _ _ _ _ _ (by simp), rd_bump, if_neg (by simp)]
  refine ⟨(hshow (by decide)).trans ?_, (hshow (by decide)).trans (on_wr_bool _ (by decide) _ _ false)⟩
  rw [on, hrole]
  exact (on_wrs ..).trans (by cases role <;> rfl)

/-! ### The loss of the partner (R385 to R388) -/

/-- What the loss of the partner leaves: that it is shown, and the tally. -/
abbrev PartnerGone : State → State → Prop := Keeps (· ∈ [.xcPartnerLost]) State.tally

theorem PartnerGone.pairRole {d : Die} {p role : Nat} {taken : Bool} (h : PartnerGone s₀ s) :
    PartnerGone s₀ (s.pairRole d p role taken) :=
  h.trans <| (s.pairRole_sameBut d p role taken).keeps fun f hf e i hm => by
    obtain rfl := List.mem_singleton.mp hf
    rcases mem_roleRegs.mp hm with ⟨hp, -⟩ | ⟨-, hp, -⟩
    · exact absurd hp (by decide)
    · exact absurd hp (by decide)

theorem PartnerGone.pairSwitch {d : Die} {p leg : Nat} (h : PartnerGone s₀ s) : PartnerGone s₀ (s.pairSwitch d p leg) := by
  unfold State.pairSwitch
  refine .ite h ?_
  extract_lets f hits u i v
  have hw : PartnerGone s₀ ((f.2.wr .pairSelLeg d p leg).inc .pairSwitches d p) :=
    Keeps.incOther (Keeps.wrOther (h.frame rfl rfl rfl) rfl) rfl
  have hu : PartnerGone s₀ u := Keeps.wrOther (Keeps.wrOther (hw.frame rfl rfl rfl) rfl) rfl
  exact .ite (hu.wrsOther rfl) hu

theorem PartnerGone.pairLost {d : Die} {p : Nat} (h : PartnerGone s₀ s) : PartnerGone s₀ (s.pairLost d p) :=
  .ite (Keeps.raise (Keeps.wrOther (PartnerGone.pairRole (h.wrOther rfl)) rfl)) (.ite (PartnerGone.pairSwitch h) h)

theorem exec_xcPartnerLost_after (hlanes : (s.linkLanes (millAt m)).isEmpty = false) (hears : s.linkHears (millAt m) = false)
    (hlost : s.on .xcPartnerLost (millAt m) = false)
    (hwait : s.rd .xcOutAt (millAt m) + max 1 (s.rd .xcLostUs (millAt m)) * s.rq * 250 ≤ s.tally) :
    ∃ t, exec (.xcPartnerLost m) s = .next t ∧ PartnerGone (s.wr .xcPartnerLost (millAt m) 0 1) t := by
  refine ⟨_, if_neg ?_, .foldl (fun _ _ hu => PartnerGone.pairLost hu) Keeps.refl.raise⟩
  simp [hlanes, hears, hlost, hwait]

end

/-- Settles O26: each command writes its own fields, and what the link, the selection or the pairs then bring leaves them. -/
theorem crosscutLinkLocksHearsAndLosesPartner : Obligations.CrosscutLinkLocksHearsAndLosesPartner := by
  intro m s
  dsimp only
  refine ⟨fun l hrun hlink hchk => ?_, fun l pos skew hlock => ?_, fun l hlock => ?_,
    fun hears => ⟨fun id ql st => ?_, fun id count st => ?_, ?_⟩, fun p bytes hup hb => ?_, fun hlanes hears hlost hwait => ?_⟩
  · have hk := (s.wr .laneBlockLock (millAt m) l 1).linkEval_moves (millAt m)
    exact ⟨_, exec_blockLock_found hrun hlink hchk, (hk.on (by decide) ..).trans (on_wr_one _ (by decide) ..), hk.rest.1⟩
  · have hk := (s.wrs (millAt m) l [(.lanePos, pos.toNat), (.laneDeskewed, b2n (decide (skew ≤ 128)))]).linkEval_moves (millAt m)
    refine ⟨_, exec_alignBlock_locked hlock pos skew, ?_, ?_, hk.rest.1⟩
    · exact (hk.rd _ (by decide) ..).trans ((rd_wrs ..).trans (Nat.mod_eq_of_lt pos.isLt))
    · exact (hk.on (by decide) ..).trans (on_wr_bool _ (by decide) ..)
  · obtain ⟨t, hx, hk⟩ := exec_blockLockLost_locked hlock
    obtain ⟨h₁, h₂, h₃⟩ := s.rd_blockLost (millAt m) l
    refine ⟨t, hx, ?_, ?_, (hk.rd _ (by decide) ..).trans h₃⟩
    · rw [hk.on (by decide), on, h₁]
      rfl
    · rw [hk.on (by decide), on, h₂]
      rfl
  · obtain ⟨t, hx, hk⟩ := exec_statusBlock_heard hears id ql st
    refine ⟨t, hx, ?_, ?_, ?_⟩
    · exact (hk.rd _ (by decide) ..).trans ((rd_wrs ..).trans (Nat.mod_eq_of_lt id.isLt))
    · exact (hk.rd _ (by decide) ..).trans ((rd_wrs ..).trans (Nat.mod_eq_of_lt ql.isLt))
    · exact (hk.rd _ (by decide) ..).trans ((rd_wrs ..).trans (Nat.mod_eq_of_lt st.isLt))
  · refine ⟨_, exec_timeBlock_heard hears id count st, ?_, ?_⟩
    · exact rd48_wr48 _ (by decide) (by decide) _ _ (ofInt_lt ..)
    · exact .wr (.wr (.refl ..) _ _ _ _ (by simp [mem_regsAt])) _ _ _ _ (by simp [mem_regsAt])
  · exact ⟨_, exec_badCtrl_heard hears, (rd_inc ..).trans (if_pos ⟨rfl, rfl, rfl⟩), .inc (.refl ..) _ _ _ _ (by simp)⟩
  · refine ⟨_, exec_xcDataBlock_begins hup p hb, (Cells.find_put ..).trans (if_pos rfl), on_wrs .., ?_⟩
    exact SameBut.withXcBuf (.wrs (.refl ..) _ _ _ (by simp [mem_regsAt])) _
  · obtain ⟨t, hx, hk⟩ := exec_xcPartnerLost_after hlanes hears hlost hwait
    exact ⟨t, hx, (hk.on (by decide) ..).trans (on_wr_one _ (by decide) ..), hk.part⟩

end Sys2Proof.Machine

/-! ## The crosscut link: blocks sent and roles agreed -/

namespace Sys2Proof.Machine

open State

section

variable {s : State} {m : Fin 2}

/-! ### Blocks sent (R378, R379, R383) -/

/-- The 16 bytes of a control block: its type, its body, and zeros. -/
def controlBlock (kind : Nat) (body : List Nat) : List Byte :=
  (kind :: body).map (BitVec.ofNat 8) ++ List.replicate (15 - body.length) 0

theorem length_controlBlock (kind : Nat) {body : List Nat} (h : body.length ≤ 15) : (controlBlock kind body).length = 16 := by
  have hlen : ((kind :: body).map (BitVec.ofNat 8) ++ List.replicate (15 - body.length) (0 : Byte)).length = 16 := by
    simp
    omega
  exact hlen

/-- A block that is sent is kept as the last of its type and pair. -/
theorem sendBlock_sends {i : Instr} {d : Die} {kind p : Nat} {body : List Nat} (hbody : body.length ≤ 15)
    (hx : exec i s = .next (s.sendBlock d kind p body)) :
    ∃ b : List Byte, b.length = 16 ∧ b.head? = some (BitVec.ofNat 8 kind) ∧
      exec i s = .next { s with xcSent := Cells.put ((d.code * 256 + kind) * 32 + p) b s.xcSent } :=
  ⟨controlBlock kind body, length_controlBlock kind hbody, rfl, hx⟩

theorem exec_xcTimeSend_sends (hs : s.linkSends (millAt m) = true) (hsf : s.sf % 16 = 0) :
    exec (.xcTimeSend m) s = .next (s.sendBlock (millAt m) 0x66 0
      ([s.rd .chipPkgId / 256, s.rd .chipPkgId % 256] ++ (leBytes 6 s.sf).reverse.map BitVec.toNat ++ [s.rd .timTstate])) :=
  if_neg (by simp [hs, hsf])

theorem exec_xcStatusSend_sends (hs : s.linkSends (millAt m) = true) :
    exec (.xcStatusSend m) s = .next (s.sendBlock (millAt m) 0x78 0 [s.rd .chipPkgId / 256, s.rd .chipPkgId % 256,
      (if s.sourceLane (millAt m) then 0xF else s.rd .timOutQl) + 16 * s.rd .timTstate]) :=
  if_neg (by simp [hs])

theorem exec_xcCoordSend_sends (hs : s.linkSends (millAt m) = true) {p : Fin 32} (hp : s.on .pairEn (millAt m) p = true) :
    exec (.xcCoordSend m p) s = .next (s.sendBlock (millAt m) 0x4B p
      [p, s.rd .pairRoleActive (millAt m) p + 2 * s.rd .pairOnLoss (millAt m) p + 4 * s.rd .pairSelLeg (millAt m) p,
        s.rd .pairSeq (millAt m) p / 256, s.rd .pairSeq (millAt m) p % 256,
        s.rd .pairRxSeq (millAt m) p / 256, s.rd .pairRxSeq (millAt m) p % 256]) := if_pos ⟨hs, hp⟩

/-! ### COORD blocks received (R383, R384) -/

variable {p : Fin 32} {owner : Bool} {seq ack : BitVec 16}

theorem exec_coordBlock_agrees (hears : s.linkHears (millAt m) = true) (hen : s.on .pairEn (millAt m) p = true)
    (hrole : s.on .pairRoleActive (millAt m) p ≠ owner) (hack : ack.toNat = s.rd .pairSeq (millAt m) p) (take leg : Bool) :
    exec (.coordBlock m p owner take leg seq ack) s =
      .next ((s.wr .pairRxSeq (millAt m) p seq.toNat).wrs (millAt m) p
        [(.pairAgreed, 1), (.pairAgRole, b2n (s.on .pairRoleActive (millAt m) p)),
          (.pairAgLoss, s.rd .pairOnLoss (millAt m) p), (.pairAgFarLoss, b2n take)]) := by
  have hrd {f : Fld} (hf : f ≠ .pairRxSeq) :
      (s.wr .pairRxSeq (millAt m) p seq.toNat).rd f (millAt m) p = s.rd f (millAt m) p :=
    rd_wr_ne _ _ _ _ _ _ fun e => hf e.1.symm
  change execCoordBlock m p owner take leg seq ack s = _
  unfold execCoordBlock
  extract_lets d u mine v
  have hmine : mine = s.on .pairRoleActive (millAt m) p := congrArg (· == 1) (hrd (by decide))
  rw [if_neg (by simp [d, hears, hen]), if_pos (by simpa [hmine] using hrole), if_pos (hack.trans (hrd (by decide)).symm), hmine,
    hrd (by decide)]

/-- The pair as two equal roles leave it: no agreement, and the event. -/
def State.roleConflict (s : State) (d : Die) (p seq : Nat) : State :=
  ((s.wr .pairRxSeq d p seq).wr .pairAgreed d p 0).raise Reason.xcRoleConflict (blkId d Dom.otn p)

theorem State.roleConflict_eq (s : State) (d : Die) (p seq : Nat) :
    s.roleConflict d p seq =
      (s.raise Reason.xcRoleConflict (blkId d Dom.otn p)).wrs d p [(.pairRxSeq, seq), (.pairAgreed, 0)] := by
  refine (raise_wr ..).trans ?_
  rw [raise_wr]
  rfl

theorem exec_coordBlock_conflicts (hears : s.linkHears (millAt m) = true) (hen : s.on .pairEn (millAt m) p = true)
    (hrole : s.on .pairRoleActive (millAt m) p = owner) (take leg : Bool) :
    exec (.coordBlock m p owner take leg seq ack) s =
      .next (if owner && !s.on .pairTaken (millAt m) p
        then (s.roleConflict (millAt m) p seq.toNat).pairRole (millAt m) p 0 true
        else s.roleConflict (millAt m) p seq.toNat) := by
  have htaken : (s.roleConflict (millAt m) p seq.toNat).on .pairTaken (millAt m) p = s.on .pairTaken (millAt m) p := by
    rw [roleConflict_eq, on_wrs, rd_raise]
    rfl
  change execCoordBlock m p owner take leg seq ack s = _
  unfold execCoordBlock
  extract_lets d u mine v
  have hmine : mine = owner := (congrArg (· == 1) (rd_wr_ne _ _ _ _ _ _ (by simp))).trans hrole
  rw [if_neg (by simp [d, hears, hen]), if_neg (by simp [hmine]), hmine, ← htaken]
  rfl

end

/-- Settles O27: each block is the one that its arm builds, and a COORD block is judged by this end's role. -/
theorem crosscutBlocksSentAndRolesAgreed : Obligations.CrosscutBlocksSentAndRolesAgreed := by
  intro m s
  dsimp only
  refine ⟨fun hs => ⟨fun hsf => ?_, ?_, fun p hp => ?_⟩,
    fun p owner take leg seq ack hears hen => ⟨fun hrole hack => ?_, fun hrole => ?_⟩⟩
  · exact sendBlock_sends (body := [_, _, _, _, _, _, _, _, _]) (by simp) (exec_xcTimeSend_sends hs hsf)
  · exact sendBlock_sends (body := [_, _, _]) (by simp) (exec_xcStatusSend_sends hs)
  · exact sendBlock_sends (body := [_, _, _, _, _, _]) (by simp) (exec_xcCoordSend_sends hs hp)
  · refine ⟨_, exec_coordBlock_agrees hears hen hrole hack take leg, on_wrs .., ?_, ?_⟩
    · exact (rd_wrs ..).trans ((rd_wr_same ..).trans (Nat.mod_eq_of_lt seq.isLt))
    · exact .wrs (.wr (.refl ..) _ _ _ _ (by simp [mem_regsAt])) _ _ _ (by simp [mem_regsAt])
  · refine ⟨_, exec_coordBlock_conflicts hears hen hrole take leg, ?_⟩
    let u := s.roleConflict (millAt m) p seq.toNat
    have hu := s.roleConflict_eq (millAt m) p seq.toNat
    by_cases hyields : (owner && !s.on .pairTaken (millAt m) p) = true
    · obtain ⟨hstandby, hagreed⟩ := u.pairRole_takes (millAt m) p false true
      have hev : (u.pairRole (millAt m) p 0 true).events = u.events :=
        id (congrArg State.events (u.pairRole_sameBut (millAt m) p 0 true).1 :)
      rw [if_pos hyields]
      refine ⟨hagreed, hev.trans ((congrArg State.events hu).trans (wrs_events ..)), fun _ _ => hstandby, fun h => ?_⟩
      simp [h] at hyields
    · rw [if_neg hyields, hu]
      refine ⟨on_wrs .., rfl, fun ho ht => ?_, fun _ => (rd_wrs ..).trans (rd_raise ..)⟩
      simp [ho, ht] at hyields

end Sys2Proof.Machine
